-- ==== Sys2Proof/Word.lean ====
section
/-! DEFINITION. The word types of the NC816: what the manual treats as bits (spec/11 R206). Quantities (nanolitres,
femtolitres, counts) are `Nat`, signed settings `Int`, and numbers of slots, lanes and so on `Fin`. -/

namespace Sys2Proof

/-- A byte on one of the three links. -/
abbrev Byte := BitVec 8

/-- A two-byte word: a maker lot, a notice serial. -/
abbrev Word16 := BitVec 16

/-- An eight-byte word: a serial, a nonce, a challenge answer, a receipt. -/
abbrev Word64 := BitVec 64

/-- The root key (R61). -/
abbrev Word128 := BitVec 128

end Sys2Proof
end

