-- ==== Sys2Proof/Syntax.lean ====
section
/-! DEFINITION. The commands of the NC816: one constructor of `Instr` per row of spec/opcode_table.json, with the
operands the outside gives with it. Host requests carry the tag of their frame and their body as fields (R196). -/

namespace Sys2Proof

/-- A cartridge slot, 0 to 15 (00_scope.md section 0.6). -/
abbrev SlotId := Fin 16

/-- An ink channel, 0 to 7. -/
abbrev ChannelId := Fin 8

/-- A cartridge lane, 0 to 3. -/
abbrev LaneId := Fin 4

/-- What a reset meets outside the part: the input levels when it ends (R24, R41, R68, R193) and what the checks of
the nonvolatile images give (R186, R203). Log entry 7. -/
structure ResetInputs where
  presence : Vector Bool 16
  powerWarn : Bool
  tstrobe : Bool
  baud1 : Bool
  baud0 : Bool
  historyCheck : Bool
  copyCheck : Vector Bool 2
  deriving DecidableEq, Repr

/-- A request body: its fields, or a body whose length is not the one its kind's fields give (R196). -/
inductive Body (α : Type) where
  | fields (f : α)
  | wrongLength
  deriving DecidableEq, Repr

/-- HISTORY_GET and HISTORY_CLEAR name an entry by a selector and a place index or a serial (R187). A selector byte
that is neither is a malformed field (Table 11-2). -/
inductive HistoryName where
  | index (i : Nat)
  | serial (n : Word64)
  | badSelector
  deriving DecidableEq, Repr

/-- CHANNEL_SET's settings as they come (R120); refill policy 0 is WARN, 1 REJECT (R206), any other neither. -/
structure RawSettings where
  inkCode : Nat
  weightSmall : Nat
  weightMedium : Nat
  weightLarge : Nat
  beta : Int
  referenceCode : Nat
  lowLevel : Nat
  veryLowLevel : Nat
  switchLevel : Nat
  commitStep : Nat
  flowWindow : Nat
  flowCeiling : Nat
  upperThreshold : Nat
  lowerThreshold : Nat
  waitLimit : Nat
  refillTolerance : Nat
  deficitTolerance : Nat
  persistence : Nat
  refillPolicy : Nat
  deriving DecidableEq, Repr

structure ChannelSetFields where
  channel : Nat
  settings : RawSettings
  deriving DecidableEq, Repr

/-- SUPPLY_MAP_SET (R123): a primary slot or none, an alternate slot or none. -/
structure SupplyMapFields where
  channel : Nat
  primary : Option Nat
  alternate : Option Nat
  deriving DecidableEq, Repr

structure ReserveFields where
  channel : Nat
  size : Nat
  deriving DecidableEq, Repr

structure ReleaseFields where
  channel : Nat
  id : Nat
  deriving DecidableEq, Repr

structure ServiceDrawFields where
  channel : Nat
  amount : Nat
  deriving DecidableEq, Repr

/-- SCAN_SET (R155, R9): the sources as numbers, the pause and the seat debounce time in ms. -/
structure ScanSetFields where
  sources : List Nat
  pause : Nat
  debounce : Nat
  deriving DecidableEq, Repr

structure SensorCalFields where
  slot : Nat
  offset : Int
  gain : Nat
  deriving DecidableEq, Repr

/-- SCHEDULE_LOAD (R39): the table, 0 for A and 1 for B, and sixteen phase values, 0 ADMIT, 1 COMMIT, 2 MARK, 3 PASS
(R206 with the list of classes of section 2.3). -/
structure ScheduleLoadFields where
  table : Nat
  phases : Vector Nat 16
  deriving DecidableEq, Repr

structure WindowSetFields where
  window : Nat
  low : Nat
  high : Nat
  readEnable : Bool
  writeEnable : Bool
  deriving DecidableEq, Repr

structure TagReadFields where
  slot : Nat
  address : Nat
  length : Nat
  deriving DecidableEq, Repr

structure TagWriteFields where
  slot : Nat
  address : Nat
  data : List Byte
  deriving DecidableEq, Repr

/-- The commands of the block: rows of spec/opcode_table.json, in the table's order. -/
inductive Instr where
  | powerOnReset (inputs : ResetInputs)
  | pinReset (inputs : ResetInputs)
  | hostReset (inputs : ResetInputs)
  | powerWarnAssert
  | powerWarnDeassert
  | presenceGain (slot : SlotId)
  | removal (slot : SlotId)
  | seatDebounceExpiry (slot : SlotId)
  | badFrame
  | oversizedLength
  | partialFrameGapExpiry
  /-- `midFrame`: a partial frame had been received when the character without its stop bit came. -/
  | missingStopBit (midFrame : Bool)
  | busyAnswer (kind tag : Byte)
  | unknownKind (kind tag : Byte)
  | hostFrameTransmitted
  | statusGet (tag : Byte) (body : Body Unit)
  | slotGet (tag : Byte) (body : Body Nat)
  | channelGet (tag : Byte) (body : Body Nat)
  | historyGet (tag : Byte) (body : Body HistoryName)
  | protectionGet (tag : Byte) (body : Body Unit)
  | channelSet (tag : Byte) (body : Body ChannelSetFields)
  | channelEnable (tag : Byte) (body : Body Nat)
  | channelDisable (tag : Byte) (body : Body Nat)
  | supplyMapSet (tag : Byte) (body : Body SupplyMapFields)
  | reserve (tag : Byte) (body : Body ReserveFields)
  | release (tag : Byte) (body : Body ReleaseFields)
  | serviceDraw (tag : Byte) (body : Body ServiceDrawFields)
  /-- One slot, or none for all slots (R115). -/
  | commitNow (tag : Byte) (body : Body (Option Nat))
  | sense (tag : Byte) (body : Body Nat)
  | scanSet (tag : Byte) (body : Body ScanSetFields)
  | sensorCal (tag : Byte) (body : Body SensorCalFields)
  | scheduleLoad (tag : Byte) (body : Body ScheduleLoadFields)
  | scheduleSelect (tag : Byte) (body : Body Nat)
  | windowSet (tag : Byte) (body : Body WindowSetFields)
  | tagRead (tag : Byte) (body : Body TagReadFields)
  | tagWrite (tag : Byte) (body : Body TagWriteFields)
  | historyClear (tag : Byte) (body : Body HistoryName)
  | keyProvision (tag : Byte) (body : Body Word128)
  | policyLock (tag : Byte) (body : Body Unit)
  | noticeGet (tag : Byte) (body : Body Nat)
  | noticeMaskSet (tag : Byte) (body : Body (BitVec 32))
  | settingsSave (tag : Byte) (body : Body Unit)
  | reset (tag : Byte) (body : Body Unit)
  | settingsSaveWriteDone
  /-- `levels`: the levels of TDATA taken while TSTROBE was asserted, one for each bit, first bit first (R68), and the first
  `now` of the entries the frame gives are handed on at once. With no levels `now` more of the entries waiting are handed on
  (R76, R78; log entry 34). -/
  | tallyFrame (levels : Option (List Bool)) (now : Nat)
  | laneReply (lane : LaneId) (frame : List Byte)
  | replyTimeout (lane : LaneId)
  | busyHoldOffExpiry (lane : LaneId)
  /-- `place`: the empty place a new History Entry takes, where the sender says it (R175, log entry 21). -/
  | digestJobComplete (place : Option (Fin 64))
  | keyCellWriteDone
  | conversionComplete (raw : Nat)
  | scanPauseExpiry
  | flowWindowExpiry (channel : ChannelId)
  | waitTimerExpiry (channel : ChannelId) (id : Nat)
  | historyWriteDone
  | presenceLossDuringDebounce (slot : SlotId)
  | tstrobeDeassertedAfterReset
  deriving DecidableEq, Repr

end Sys2Proof
end

