-- ==== Sys2Proof/Decode.lean ====
section
/-! DEFINITION. The command that a word spells by the bits of spec/opcode_table.json. No row of that table gives bits (a
block's commands are requests, frames, line changes and ends of times), so no word spells a command. The byte formats of
the links are in Machine/Wire.lean and Machine/HostWire.lean. -/

namespace Sys2Proof

/-- The command a word of `nbits` bits spells: none. -/
def decodeTableWord (_nbits _w : Nat) : Option Instr := none

end Sys2Proof
end

