-- ==== Sys2Proof/Config.lean ====
section
/-! DEFINITION. The figures the manual fixes for the part, and the free values: constants without a body, which stand
for what the spec names and does not give (log entries 9, 10, 11, 21). -/

namespace Sys2Proof.Config

/-- Notice queue capacity (R198). -/
def noticeCapacity : Nat := 32
/-- Engine job queue capacity (Table 3-1). -/
def engineCapacity : Nat := 8
/-- Injected queue capacity (Table 9-1). -/
def injectedCapacity : Nat := 8
/-- PASS entries one lane queue holds (R44). -/
def passCapacity : Nat := 4
/-- Attempts per transaction (R26). -/
def attempts : Nat := 3
/-- BUSY replies tolerated per transaction (R27). -/
def busyTolerated : Nat := 8
/-- Open and waiting reservations of a channel (R138). -/
def openCapacity : Nat := 8
def waitingCapacity : Nat := 4
/-- Samples of a run and levels of a ring (Table 9-1). -/
def runSamples : Nat := 4
/-- Failed commits after which a slot is faulted (R112). -/
def commitFailures : Nat := 3

def maxU16 : Nat := 65535
def maxU32 : Nat := 4294967295
/-- 2⁴⁸ − 1 (R87, R96, R174). -/
def max48 : Nat := 281474976710655

/-- Femtolitres per nanolitre, and the denominator of the temperature factor (R83 to R85). -/
def flPerNl : Nat := 1000000
def corrOne : Nat := 32768
def corrMin : Int := 16384
def corrMax : Int := 49152

/-- The bounds of R15's first check. -/
def nominalMin : Nat := 1000000
def nominalMax : Nat := 2000000000
def tagOdometerMax : Nat := 2000000000

/-- The largest service draw (R92). -/
def serviceDrawMax : Nat := 100000000

/-- The user area of a tag (section 2.2). -/
def userLow : Nat := 64
def userHigh : Nat := 255

/-- The most entries of a scan list (R155). -/
def scanListMax : Nat := 24

/-- The nonces of the part's random source (R58), by how many have been drawn. A FREE VALUE (log entry 9): nothing
constrains it. -/
opaque nonceValue : Nat → Word64

/-- What key derivation makes of root key, serial and maker lot beside the serial and lot themselves (R49). A FREE
VALUE (log entry 10). -/
opaque derivedSecret : Word128 → Word64 → Word16 → Nat

/-- A cartridge key (R49): the same inputs give the same key, another serial or lot another key (log entry 36). -/
structure CartridgeKey where
  serial : Word64
  makerLot : Word16
  secret : Nat
  deriving DecidableEq, Repr

/-- Key derivation (R49, R51). -/
def cartridgeKey (root : Word128) (serial : Word64) (makerLot : Word16) : CartridgeKey :=
  ⟨serial, makerLot, derivedSecret root serial makerLot⟩

/-- The tag digest (R49): a 64-bit value from a cartridge key and an ordered list of fields. A FREE VALUE (log
entry 10). -/
opaque tagDigest : CartridgeKey → List Nat → Word64

/-- Which empty place of the History Table a new entry takes (R175 does not say), by how many free values have been
used. A FREE VALUE (log entry 21). -/
opaque placeChoice : Nat → Nat

/-- What the host-senses count of a slot holds when it is increased past 65,535: the spec states no result there
(Table 9-2 gives the range, no rule what follows its end). A FREE VALUE (log entry 11), by how many have been used. -/
opaque hostSensesPastEnd : Nat → BitVec 16

end Sys2Proof.Config
end

