-- ==== Sys2Proof/Machine/Records.lean ====
section
/-! DEFINITION. The records the blocks of the NC816 hold (Table 0-1): plain data, named as the manual names them. -/

namespace Sys2Proof.Machine

/-! ## Slot Manager (chapter 1) -/

inductive SlotState where
  | vacant | seating | reading | verifying | sensing | ready | serving | spent | rejected | faulted
  deriving DecidableEq, Repr

inductive RejectReason where
  | wrongInk | badIdentity | authFailed | authUnavailable | barred | rollback | refillRejected | receiptMismatch
  deriving DecidableEq, Repr

inductive FaultReason where
  | noResponse | tagError | odometerAhead | commitFailed
  deriving DecidableEq, Repr

inductive Quality where
  | genuine | refilled
  deriving DecidableEq, Repr

inductive Band where
  | normal | low | veryLow | empty
  deriving DecidableEq, Repr

inductive TagState where
  | fresh | inUse | spent
  deriving DecidableEq, Repr

/-- Table 1-3. -/
structure Description where
  serial : Word64
  inkCode : Nat
  nominalFill : Nat
  fillGeneration : Nat
  tagState : TagState
  refillMark : Bool
  odometerAtRead : Nat
  makerLot : Word16
  deriving DecidableEq, Repr

/-- Table 1-2. The remaining estimate is formed (R2) and TALLY_UNCERTAIN is a view (R4); neither is stored.
`reconciled` is "counts as having passed reconciliation" (R18); `sensingStamp` is the model's own (log entry 13). -/
structure SlotRecord where
  state : SlotState
  channel : Option ChannelId
  description : Option Description
  quality : Option Quality
  rejectReason : Option RejectReason
  faultReason : Option FaultReason
  committed : Nat
  uncommitted : Nat
  band : Band
  senseUnchecked : Bool
  levelDisagree : Bool
  sensorFault : Bool
  reconciled : Bool
  sensingStamp : Nat
  deriving DecidableEq, Repr

/-! ## Cartridge Bus Controller (chapter 2) -/

inductive LaneClass where
  | admission | commit | mark | pass
  deriving DecidableEq, Repr

inductive TagMark where
  | spent | refill
  deriving DecidableEq, Repr

/-- Table 2-2: the commands and the operands sent. -/
inductive TagCommand where
  | describe
  | challenge (nonce : Word64)
  | odoAdvance (value generation : Nat) (nonce : Word64)
  | mark (m : TagMark)
  | memRead (address length : Nat)
  | memWrite (address : Nat) (data : List Byte)
  deriving DecidableEq, Repr

/-- An entry of a lane queue (section 2.3). Its class and its requester follow from the command; a PASS entry has a
ticket. -/
structure LaneEntry where
  slot : SlotId
  command : TagCommand
  ticket : Option Nat
  deriving DecidableEq, Repr

/-- Where a transaction on the wire stands (R26, R27). -/
inductive WirePhase where
  | replyWait | busyHoldOff
  deriving DecidableEq, Repr

/-- A transaction in flight (section 2.1). -/
structure Transaction where
  entry : LaneEntry
  failedAttempts : Nat
  busyReplies : Nat
  phase : WirePhase
  abandoned : Bool
  deriving DecidableEq, Repr

/-- What a job compares (Table 3-2). -/
inductive JobWork where
  | verifyChallenge (fillGeneration odometerAtRead : Nat)
  | verifyReceipt (valueSent : Nat)
  deriving DecidableEq, Repr

/-- A job of the Digest Engine (Table 3-2). -/
structure Job where
  slot : SlotId
  serial : Word64
  makerLot : Word16
  nonce : Word64
  tagValue : Word64
  work : JobWork
  deriving DecidableEq, Repr

inductive LaneState where
  | idle
  | onWire (t : Transaction)
  | held (j : Job)
  deriving DecidableEq, Repr

inductive TableId where
  | a | b
  deriving DecidableEq, Repr

structure Lane where
  state : LaneState
  queue : List LaneEntry
  wheel : Fin 16
  inUse : TableId
  deriving DecidableEq, Repr

/-- A pass-through window (R43). -/
structure Window where
  low : Nat
  high : Nat
  readEnable : Bool
  writeEnable : Bool
  deriving DecidableEq, Repr

/-- A violation as the protection record holds it (R46). -/
inductive Violation where
  | access (slot : SlotId) (address length : Nat) (isWrite : Bool)
  | locked (requestKind : Byte)
  deriving DecidableEq, Repr

structure ProtectionRecord where
  count : Nat
  first : Option Violation
  deriving DecidableEq, Repr

structure WantedMarks where
  spent : Bool
  refill : Bool
  deriving DecidableEq, Repr

structure Bus where
  lanes : Vector Lane 4
  tableA : Vector LaneClass 16
  tableB : Vector LaneClass 16
  requested : TableId
  windows : Vector Window 4
  wanted : Vector WantedMarks 16
  lastTicket : Nat
  protection : ProtectionRecord
  deriving DecidableEq, Repr

/-! ## Digest Engine and Key Store (chapter 3) -/

structure RunningJob where
  job : Job
  discarded : Bool
  deriving DecidableEq, Repr

structure Engine where
  running : Option RunningJob
  queue : List Job
  heldLanes : List LaneId
  deriving DecidableEq, Repr

/-- Table 3-4. -/
inductive KeyState where
  | unprovisioned
  | provisioned (root : Word128)
  | damaged
  deriving DecidableEq, Repr

/-- The one-time nonvolatile cell (R59): blank, written whole, or written and failing its check. -/
inductive KeyCell where
  | blank
  | written (root : Word128)
  | damaged
  deriving DecidableEq, Repr

structure KeyStore where
  state : KeyState
  cell : KeyCell
  writing : Option Word128
  policyLock : Bool
  deriving DecidableEq, Repr

/-! ## Tally Receiver (chapter 4) -/

/-- Sequence state (`none` is AWAITING_RESTART) and counts of one head (Table 4-4). -/
structure Head where
  expected : Option Nat
  taken : Nat
  restarts : Nat
  repeats : Nat
  gaps : Nat
  missed : Nat
  deriving DecidableEq, Repr

/-- Table 4-1. -/
structure TallyEntry where
  channel : ChannelId
  small : Nat
  medium : Nat
  large : Nat
  temperature : Nat
  deriving DecidableEq, Repr

/-- `skippingPartial`: a reset ended with TSTROBE asserted and the frame in progress is not received (R68). `waiting`:
the entries of the frame last processed that are not yet handed on, in their order (R76, R79). -/
structure Tally where
  heads : Vector Head 4
  badFrames : Nat
  idleEntries : Nat
  handedOn : Nat
  skippingPartial : Bool
  waiting : List TallyEntry
  deriving DecidableEq, Repr

/-! ## Volume Unit (chapter 5) -/

/-- Table 5-1. -/
structure Volume where
  residue : Nat
  accumulator : Nat
  totalCharged : Nat
  chargedToSlots : Nat
  unattributed : Nat
  overdraw : Nat
  unreservedDraw : Nat
  uncorrected : Nat
  clamped : Nat
  windowSum : Nat
  lastWindowFlow : Nat
  peakFlow : Nat
  peakArmed : Bool
  windowLength : Nat
  lastWindowLength : Option Nat
  deriving DecidableEq, Repr

/-! ## Commit Unit (chapter 6) -/

inductive FlightPhase where
  | waiting | sent | checking
  deriving DecidableEq, Repr

/-- A commit in flight (R102): its phase and what is present outside NONE. -/
structure Flight where
  phase : FlightPhase
  snapshot : Nat
  advance : Nat
  nonce : Word64
  deriving DecidableEq, Repr

inductive Again where
  | clear | step | forced
  deriving DecidableEq, Repr

/-- Table 6-1; phase NONE is `flight = none`. -/
structure CommitState where
  flight : Option Flight
  again : Again
  failures : Nat
  doubtful : Option Nat
  deriving DecidableEq, Repr

/-! ## Channel Controller and Reservation Unit (chapters 7 and 8) -/

inductive ChannelState where
  | idle | unsupplied | supplied | switching
  deriving DecidableEq, Repr

inductive RefillPolicy where
  | warn | reject
  deriving DecidableEq, Repr

/-- Table 7-2. -/
structure ChannelSettings where
  inkCode : Nat
  weightSmall : Nat
  weightMedium : Nat
  weightLarge : Nat
  beta : Int
  referenceCode : Nat
  lowLevel : Nat
  veryLowLevel : Nat
  switchLevel : Nat
  commitStep : Nat
  flowWindow : Nat
  flowCeiling : Nat
  upperThreshold : Nat
  lowerThreshold : Nat
  waitLimit : Nat
  refillTolerance : Nat
  deficitTolerance : Nat
  persistence : Nat
  refillPolicy : RefillPolicy
  deriving DecidableEq, Repr

structure SupplyPair where
  primary : SlotId
  alternate : Option SlotId
  deriving DecidableEq, Repr

/-- A wait timer (R145): its length in ms and the clock when it started. -/
structure WaitTimer where
  limit : Nat
  startedAt : Nat
  deriving DecidableEq, Repr

/-- Table 8-1. The wait timer is present in WAITING only, so it also says whether the reservation has been granted;
the state follows (R138). -/
structure Reservation where
  id : Nat
  size : Nat
  drawn : Nat
  split : Bool
  wait : Option WaitTimer
  deriving DecidableEq, Repr

inductive ReservationState where
  | waiting | opened | drawing | filled
  deriving DecidableEq, Repr

structure Channel where
  state : ChannelState
  settings : ChannelSettings
  pair : Option SupplyPair
  serving : Option SlotId
  target : Option SlotId
  permit : Bool
  tallyUncertain : Bool
  flowExcess : Bool
  unreservedDraw : Bool
  splitLast : Bool
  volume : Volume
  reservations : List Reservation
  stall : Bool
  lastId : Nat
  deriving DecidableEq, Repr

/-! ## Level Sense Unit (chapter 9) -/

/-- A converter source: a slot sensor, or source 17, the reference. -/
inductive Source where
  | slot (i : SlotId)
  | reference
  deriving DecidableEq, Repr

inductive ScanState where
  | running | pausing | halted
  deriving DecidableEq, Repr

inductive ReferenceState where
  | unread | good | bad
  deriving DecidableEq, Repr

/-- The reasons of an injected request (section 9.3). -/
structure Reasons where
  admission : Bool
  host : Bool
  deriving DecidableEq, Repr

/-- An injected request; `stamp` orders requests by their joining (log entry 13). -/
structure Injected where
  slot : SlotId
  reasons : Reasons
  stamp : Nat
  deriving DecidableEq, Repr

/-- A run in progress and the samples gathered, oldest first, a faulted one as `none` (R159). -/
structure Run where
  request : Injected
  samples : List (Option Nat)
  deriving DecidableEq, Repr

/-- A conversion in progress (R154), with the offset and gain it started with (R163). -/
structure Conversion where
  source : Source
  ofRun : Bool
  offset : Int
  gain : Nat
  discarded : Bool
  deriving DecidableEq, Repr

/-- The Level Sense Unit's items kept for each slot (Table 9-2). -/
structure SlotSense where
  offset : Int
  gain : Nat
  ring : List Nat
  goodRun : Nat
  rise : Nat
  deficit : Nat
  hostSenses : Nat
  deriving DecidableEq, Repr

/-- A SCAN_SET waiting to be taken up (R155). -/
structure PendingScan where
  list : List Source
  pause : Nat
  deriving DecidableEq, Repr

structure LevelSense where
  list : List Source
  pause : Nat
  pendingScan : Option PendingScan
  scan : ScanState
  pauseTimer : Option Nat
  position : Nat
  passConverted : Bool
  conversion : Option Conversion
  run : Option Run
  injected : List Injected
  heldAdmissions : List SlotId
  reference : ReferenceState
  lastReference : Option Nat
  deferred : Nat
  passes : Nat
  slots : Vector SlotSense 16
  deriving DecidableEq, Repr

/-! ## History Unit (chapter 10) -/

/-- Table 10-1. -/
structure HistoryEntry where
  serial : Word64
  inkCode : Nat
  fillGeneration : Nat
  odometer : Nat
  pendingCharge : Option Nat
  uncertain : Option Nat
  barred : Bool
  refillSeen : Bool
  lastSlot : SlotId
  stamp : Nat
  deriving DecidableEq, Repr

/-- A place of the History Table. -/
abbrev PlaceId := Fin 64

/-- A nonvolatile write in progress (R186): the content copied when it started, whether a preservation round counts it
(R190), and whether a host reset waits for it (R191). -/
structure HistoryWrite where
  place : PlaceId
  content : Option HistoryEntry
  forRound : Bool
  forReset : Bool
  deriving DecidableEq, Repr

/-- A preservation round (R190): the places whose write is still to complete, and the size of its set. -/
structure Round where
  remaining : List PlaceId
  size : Nat
  deriving DecidableEq, Repr

structure History where
  places : Vector (Option HistoryEntry) 64
  recency : Nat
  forfeited : Nat
  urgent : List PlaceId
  ordinary : List PlaceId
  writing : Option HistoryWrite
  round : Option Round
  image : Vector (Option HistoryEntry) 64
  deriving DecidableEq, Repr

/-! ## Settings Store (section 11.4) -/

structure SavedChannel where
  settings : ChannelSettings
  pair : Option SupplyPair
  enabled : Bool
  deriving DecidableEq, Repr

structure Calibration where
  offset : Int
  gain : Nat
  deriving DecidableEq, Repr

/-- Everything the image holds. -/
structure SettingsImage where
  channels : Vector SavedChannel 8
  scanList : List Source
  pause : Nat
  debounceTime : Nat
  calibrations : Vector Calibration 16
  windows : Vector Window 4
  tableA : Vector LaneClass 16
  tableB : Vector LaneClass 16
  requested : TableId
  noticeMask : BitVec 18
  deriving DecidableEq, Repr

structure SettingsCopy where
  saveCount : Nat
  image : SettingsImage
  deriving DecidableEq, Repr

/-- A SETTINGS_SAVE write in progress (R202) and the tag of its request. -/
structure Saving where
  target : Fin 2
  copy : SettingsCopy
  tag : Byte
  deriving DecidableEq, Repr

structure SettingsStore where
  copies : Vector (Option SettingsCopy) 2
  inForce : Option (Fin 2)
  saving : Option Saving
  deriving DecidableEq, Repr

end Sys2Proof.Machine
end

