-- ==== Sys2Proof/Machine/Notices.lean ====
section
/-! DEFINITION. The notices the part raises (Table 11-4), each with its subject and the detail fields its raising rule
names. -/

namespace Sys2Proof.Machine

/-- The causes of CHANNEL_CHANGED (R135). -/
inductive ChannelCause where
  | enable | disable | select | switchBegin | switchDone | switchCancelled | failover
  deriving DecidableEq, Repr

/-- Why the old slot left, for FAILOVER (R135). -/
inductive LeaveReason where
  | spent | removed | rejected | faulted
  deriving DecidableEq, Repr

inductive Occasion where
  | admission | inService
  deriving DecidableEq, Repr

inductive VerdictOutcome where
  | genuine | refilled | refillRejected | rollback
  deriving DecidableEq, Repr

/-- Which tests held, for a refill outcome (section 10.3.1). -/
structure TestsHeld where
  tagMark : Bool
  history : Bool
  level : Bool
  deriving DecidableEq, Repr

/-- The sensed and the expected level, when a level was used. -/
structure LevelsUsed where
  sensed : Nat
  expected : Nat
  deriving DecidableEq, Repr

/-- For ROLLBACK: the tag's generation and odometer at read, and the entry's. -/
structure RollbackDetail where
  tagGeneration : Nat
  tagOdometer : Nat
  entryGeneration : Nat
  entryOdometer : Nat
  deriving DecidableEq, Repr

/-- The detail fields of VERDICT (section 10.3.1). -/
structure Verdict where
  serial : Word64
  occasion : Occasion
  outcome : VerdictOutcome
  tests : Option TestsHeld
  levels : Option LevelsUsed
  senseUnchecked : Bool
  policy : Option RefillPolicy
  rollback : Option RollbackDetail
  deriving DecidableEq, Repr

/-- The cause of COMMIT_FAILED, with the tag's code for TAG_ERROR (section 6.4.1). -/
inductive CommitCause where
  | noResponse
  | tagError (code : Byte)
  | receiptMismatch
  | odometerAhead
  deriving DecidableEq, Repr

/-- Why a pass-through ended FAILED (R45). -/
inductive PassFailure where
  | noResponse
  | tagError (code : Byte)
  | wrongState
  deriving DecidableEq, Repr

/-- How a pass-through ended (R45); a TAG_READ ending OK carries the bytes read. -/
inductive PassStatus where
  | ok (bytes : Option (List Byte))
  | failed (reason : PassFailure)
  | aborted
  deriving DecidableEq, Repr

/-- What CHANNEL_CHANGED says of a channel before and after (R135). -/
structure ChannelMove where
  cause : ChannelCause
  previousState : ChannelState
  newState : ChannelState
  previousServing : Option SlotId
  newServing : Option SlotId
  target : Option SlotId
  reason : Option LeaveReason
  deriving DecidableEq, Repr

inductive Notice where
  | slotChanged (slot : SlotId) (previous new : SlotState) (reject : Option RejectReason)
      (fault : Option FaultReason) (quality : Option Quality)
  | verdict (slot : SlotId) (v : Verdict)
  | levelBand (slot : SlotId) (channel : ChannelId) (previous new : Band) (perMille remaining : Nat)
  | channelChanged (channel : ChannelId) (move : ChannelMove)
  | reservationGranted (channel : ChannelId) (id size waited outstanding : Nat)
  | reservationExpired (channel : ChannelId) (id size : Nat) (wasHead stall : Bool)
  | reservationSplit (channel : ChannelId) (id size drawn : Nat) (drawnFrom drawsFrom : Option SlotId)
  | unreservedDraw (channel : ChannelId) (part counter : Nat)
  | commitFailed (slot : SlotId) (cause : CommitCause) (advance failures : Nat) (state : SlotState)
  | flowExcess (channel : ChannelId) (flow ceiling length : Nat)
  | tallyFault (head : Fin 4) (gap received : Nat) (marked : List ChannelId)
  | sensorFault (slot : Option SlotId) (raw : Nat)
  | levelDisagree (slot : SlotId) (channel : ChannelId) (sensed expected tolerance : Nat)
  | historyEvicted (serial : Word64) (tier forfeited : Nat) (barLost : Bool) (place : PlaceId)
  | passthroughDone (slot : SlotId) (ticket : Nat) (status : PassStatus)
  | protection (violation : Violation)
  | powerPreserved (entries : Nat)
  | settingsDefaulted
  deriving DecidableEq, Repr

/-- A notice in the queue with its serial (R198). -/
structure QueuedNotice where
  serial : Word16
  notice : Notice
  deriving DecidableEq, Repr

structure NoticeUnit where
  mask : BitVec 18
  queue : List QueuedNotice
  nextSerial : Word16
  dropped : Nat
  attn : Bool
  deriving DecidableEq, Repr

end Sys2Proof.Machine
end

