-- ==== Sys2Proof/Machine/Replies.lean ====
section
/-! DEFINITION. The replies of the host link: statuses (Table 11-2), the fields each reply carries, and the host link's
own state (section 11.2). -/

namespace Sys2Proof.Machine

/-- Table 11-2. -/
inductive Status where
  | ok | clamped | queued | granted | accepted | busy | badFrame | unknownKind | badArgument | wrongState | full
  | tooLarge | locked | isProtected | unknownId
  deriving DecidableEq, Repr

inductive ResetKind where
  | powerOn | pin | host
  deriving DecidableEq, Repr

/-- R205. -/
structure ResetCause where
  kind : ResetKind
  historyDefaulted : Bool
  settingsDefaulted : Bool
  deriving DecidableEq, Repr

/-- The Key Store state as STATUS_GET reports it: the key is carried in no reply (R59). -/
inductive KeyReport where
  | unprovisioned | provisioned | damaged
  deriving DecidableEq, Repr

inductive LaneReport where
  | idle | onWire | held
  deriving DecidableEq, Repr

structure LaneStatus where
  state : LaneReport
  inUse : TableId
  deriving DecidableEq, Repr

/-- What STATUS_GET carries of a slot's sensing (R170). -/
structure SenseStatus where
  offset : Int
  gain : Nat
  levels : Nat
  sensed : Option Nat
  rise : Nat
  deficit : Nat
  goodRun : Nat
  hostSenses : Nat
  deriving DecidableEq, Repr

structure InjectedStatus where
  slot : SlotId
  reasons : Reasons
  deriving DecidableEq, Repr

/-- The Level Sense Unit fields of R170. -/
structure LevelStatus where
  scan : ScanState
  position : Nat
  list : List Source
  pause : Nat
  pendingScan : Option PendingScan
  injected : List InjectedStatus
  runSlot : Option SlotId
  reference : ReferenceState
  lastReference : Option Nat
  deferred : Nat
  passes : Nat
  slots : Vector SenseStatus 16
  deriving DecidableEq, Repr

/-- The History Unit fields of R187. -/
structure HistoryStatus where
  entries : Nat
  urgentLength : Nat
  ordinaryLength : Nat
  writing : Bool
  forfeited : Nat
  recency : Nat
  roundRunning : Bool
  deriving DecidableEq, Repr

structure ChannelStatus where
  state : ChannelState
  serving : Option SlotId
  deriving DecidableEq, Repr

/-- The reply of STATUS_GET (R197). -/
structure StatusReport where
  cause : ResetCause
  key : KeyReport
  policyLock : Bool
  powerWarn : Bool
  requested : TableId
  lanes : Vector LaneStatus 4
  heads : Vector Head 4
  tallyBadFrames : Nat
  idleEntries : Nat
  handedOn : Nat
  level : LevelStatus
  history : HistoryStatus
  channels : Vector ChannelStatus 8
  slots : Vector SlotState 16
  notices : Nat
  dropped : Nat
  nextSerial : Word16
  badFrames : Nat
  discardedPartials : Nat
  busy : Nat
  overruns : Nat
  deriving DecidableEq, Repr

/-- The reply of SLOT_GET (R23). -/
structure SlotReport where
  state : SlotState
  channel : Option ChannelId
  description : Option Description
  quality : Option Quality
  rejectReason : Option RejectReason
  faultReason : Option FaultReason
  committed : Nat
  uncommitted : Nat
  remaining : Nat
  band : Band
  senseUnchecked : Bool
  levelDisagree : Bool
  sensorFault : Bool
  tallyUncertain : Bool
  deriving DecidableEq, Repr

structure ServingReport where
  remaining : Nat
  perMille : Nat
  band : Band
  deriving DecidableEq, Repr

/-- The Volume Unit fields of CHANNEL_GET (R100). -/
structure VolumeReport where
  totalCharged : Nat
  chargedToSlots : Nat
  unattributed : Nat
  overdraw : Nat
  unreservedDraw : Nat
  uncorrected : Nat
  clamped : Nat
  lastWindowFlow : Nat
  windowLength : Nat
  peakFlow : Nat
  peakArmed : Bool
  flowExcess : Bool
  timeToEmpty : Nat
  deriving DecidableEq, Repr

structure ReservationReport where
  id : Nat
  state : ReservationState
  size : Nat
  drawn : Nat
  split : Bool
  timeLeft : Option Nat
  deriving DecidableEq, Repr

/-- The reservation summary (R152). -/
structure ReservationSummary where
  list : List ReservationReport
  granted : Nat
  waiting : Nat
  outstanding : Nat
  available : Nat
  stall : Bool
  lastId : Nat
  deriving DecidableEq, Repr

/-- The reply of CHANNEL_GET (R136). -/
structure ChannelReport where
  state : ChannelState
  settings : ChannelSettings
  pair : Option SupplyPair
  serving : Option SlotId
  target : Option SlotId
  tallyUncertain : Bool
  flowExcess : Bool
  unreservedDraw : Bool
  splitLast : Bool
  servingReport : Option ServingReport
  volume : VolumeReport
  reservations : ReservationSummary
  deriving DecidableEq, Repr

/-- Where a place stands with the store queue (R187). -/
inductive StoreStanding where
  | urgent | ordinary | writing | none
  deriving DecidableEq, Repr

/-- The reply of HISTORY_GET (R187). -/
structure HistoryReport where
  place : PlaceId
  entry : HistoryEntry
  seatedIn : Option SlotId
  standing : StoreStanding
  entries : Nat
  forfeited : Nat
  deriving DecidableEq, Repr

/-- A slot's commit phase as COMMIT_NOW reports it (R102, R115). -/
inductive CommitPhase where
  | none | waiting | sent | checking
  deriving DecidableEq, Repr

structure ListedSlot where
  slot : SlotId
  phase : CommitPhase
  deriving DecidableEq, Repr

/-- The fields a reply carries after its status, as the owning rule names them for that status (R196). -/
inductive ReplyFields where
  | none
  | status (r : StatusReport)
  | slot (r : SlotReport)
  | channel (r : ChannelReport)
  | history (r : HistoryReport)
  | protection (count : Nat) (first : Option Violation)
  | settingsTaken (s : ChannelSettings)
  | channelState (s : ChannelState)
  | reservationGranted (id outstanding : Nat)
  | reservationQueued (id position : Nat) (stall : Bool)
  | released (state : ReservationState) (size drawn : Nat) (split : Bool)
  | drawn (amount : Nat) (serving : Option SlotId) (toSlot overdraw unattributed : Nat)
  | commitOne (phase : CommitPhase) (advance : Nat)
  | commitAll (acted : List ListedSlot)
  | position (n : Nat)
  | scanTaken (pause debounce : Nat)
  | calibrationTaken (offset : Int) (gain : Nat)
  | schedule (requested : TableId) (inUse : Vector TableId 4)
  | windowTaken (w : Window)
  | ticket (n : Nat)
  | cleared (serial : Word64) (forfeited : Nat)
  | notices (maximum : Option Nat) (list : List QueuedNotice) (left dropped : Nat)
  | mask (m : BitVec 18)
  deriving DecidableEq, Repr

/-- A reply: the request's kind and tag, the status and the fields. -/
structure Reply where
  kind : Byte
  tag : Byte
  status : Status
  fields : ReplyFields
  deriving DecidableEq, Repr

/-- An answer to a frame that is not acted on (R195). -/
inductive OwedAnswer where
  | busy (kind tag : Byte)
  | badFrame
  deriving DecidableEq, Repr

/-- A frame the transmitter sends. -/
inductive OutFrame where
  | reply (r : Reply)
  | answer (a : OwedAnswer)
  deriving DecidableEq, Repr

/-- The receiver (R193): HUNTING, or COLLECTING with the bytes gathered after the start byte. -/
inductive Receiver where
  | hunting
  | collecting (bytes : List Byte)
  deriving DecidableEq, Repr

/-- The host link. `outgoing` holds the frames that are owed and not yet being sent, in the order in which they became
owed: at most the built reply and the one owed answer (R195). -/
structure HostLink where
  receiver : Receiver
  working : Bool
  transmitting : Option OutFrame
  outgoing : List OutFrame
  rate : Nat
  badFrames : Nat
  discardedPartials : Nat
  busy : Nat
  overruns : Nat
  deriving DecidableEq, Repr

/-- A host RESET in preparation (R191, R204): whether its reply has been sent, and the places whose writes it still
waits for and which have not started. -/
structure ResetPreparation where
  replySent : Bool
  waits : List PlaceId
  deriving DecidableEq, Repr

end Sys2Proof.Machine
end

