-- ==== Sys2Proof/Machine/Defaults.lean ====
section
/-! DEFINITION. The defaults of the settings (R9, R37, R43, R122, R155, R163, R201) and the values each block's records
take after a reset (R24, R48, R67, R79, R101, R118, R137, R153, R171, R192). -/

namespace Sys2Proof.Machine

/-- Table 2-3. -/
def defaultTable : Vector LaneClass 16 :=
  #v[.admission, .commit, .pass, .commit, .admission, .commit, .mark, .commit,
     .admission, .commit, .pass, .commit, .admission, .commit, .mark, .commit]

/-- Table 7-2: the ink code is the channel number + 1. -/
def defaultSettings (c : ChannelId) : ChannelSettings where
  inkCode := c.val + 1
  weightSmall := 0
  weightMedium := 0
  weightLarge := 0
  beta := 0
  referenceCode := 80
  lowLevel := 150
  veryLowLevel := 50
  switchLevel := 30
  commitStep := 500000
  flowWindow := 1000
  flowCeiling := 0
  upperThreshold := 0
  lowerThreshold := 0
  waitLimit := 2000
  refillTolerance := 150
  deficitTolerance := 200
  persistence := 4
  refillPolicy := .warn

/-- Sources 0 to 15 and then the reference (R155). -/
def defaultScanList : List Source :=
  (List.finRange 16).map .slot ++ [.reference]

/-- R43: every window spans the user area with both enables clear. -/
def defaultWindow : Window := ⟨64, 255, false, false⟩

/-- R163: offset 0 and gain 1,000. -/
def defaultCalibration : Calibration := ⟨0, 1000⟩

/-- What the blocks take when the settings load falls back (R203). -/
def defaultImage : SettingsImage where
  channels := Vector.ofFn fun c => ⟨defaultSettings c, none, false⟩
  scanList := defaultScanList
  pause := 50
  debounceTime := 50
  calibrations := Vector.replicate 16 defaultCalibration
  windows := Vector.replicate 4 defaultWindow
  tableA := defaultTable
  tableB := defaultTable
  requested := .a
  noticeMask := BitVec.allOnes 18

/-- The VACANT values of R21 with the given channel field (R24). -/
def vacantSlot (channel : Option ChannelId) : SlotRecord where
  state := .vacant
  channel := channel
  description := none
  quality := none
  rejectReason := none
  faultReason := none
  committed := 0
  uncommitted := 0
  band := .normal
  senseUnchecked := false
  levelDisagree := false
  sensorFault := false
  reconciled := false
  sensingStamp := 0

def noMarks : WantedMarks := ⟨false, false⟩

/-- R102: phase NONE, again CLEAR, failure count 0, no doubtful value. -/
def initialCommit : CommitState := ⟨none, .clear, 0, none⟩

/-- R101, with the given flow window length (R95; log entry 20 for an IDLE channel). -/
def resetVolume (windowLength : Nat) : Volume where
  residue := 0
  accumulator := 0
  totalCharged := 0
  chargedToSlots := 0
  unattributed := 0
  overdraw := 0
  unreservedDraw := 0
  uncorrected := 0
  clamped := 0
  windowSum := 0
  lastWindowFlow := 0
  peakFlow := 0
  peakArmed := true
  windowLength := windowLength
  lastWindowLength := none

/-- R137, R153: a channel loaded as enabled is UNSUPPLIED, any other IDLE. -/
def resetChannel (saved : SavedChannel) : Channel where
  state := if saved.enabled then .unsupplied else .idle
  settings := saved.settings
  pair := saved.pair
  serving := none
  target := none
  permit := false
  tallyUncertain := false
  flowExcess := false
  unreservedDraw := false
  splitLast := false
  volume := resetVolume saved.settings.flowWindow
  reservations := []
  stall := false
  lastId := 0

/-- R25, R37: IDLE, empty, on the requested table at position 0. -/
def resetLane (requested : TableId) : Lane := ⟨.idle, [], 0, requested⟩

def resetHead : Head := ⟨none, 0, 0, 0, 0, 0⟩

/-- R171 with the loaded calibration. -/
def resetSlotSense (c : Calibration) : SlotSense := ⟨c.offset, c.gain, [], 0, 0, 0, 0⟩

/-- The channel whose pair names a slot (R5). -/
def namingChannel (pairs : ChannelId → Option SupplyPair) (slot : SlotId) : Option ChannelId :=
  (List.finRange 8).find? fun c =>
    match pairs c with
    | some p => p.primary = slot || p.alternate = some slot
    | none => false

end Sys2Proof.Machine
end

