-- ==== Sys2Proof/Machine/State.lean ====
section
/-! DEFINITION. The state of the NC816 (INVENTORY.md, State): every item the manual names, and the model's own queue of
commands, clock and counters of free values. -/

namespace Sys2Proof.Machine

/-- The input levels the part holds (11 section 11.6): presence (R8), POWER_WARN (R41). -/
structure Pins where
  presence : Vector Bool 16
  powerWarn : Bool
  deriving DecidableEq, Repr

structure State where
  pins : Pins
  host : HostLink
  notices : NoticeUnit
  cause : ResetCause
  preparation : Option ResetPreparation
  store : SettingsStore
  slots : Vector SlotRecord 16
  debounce : Vector (Option Nat) 16
  debounceTime : Nat
  bus : Bus
  engine : Engine
  keys : KeyStore
  tally : Tally
  channels : Vector Channel 8
  commits : Vector CommitState 16
  sense : LevelSense
  history : History
  /-- Milliseconds passed on an empty queue. The model's own (log entry 1). -/
  clockMs : Nat
  /-- Nonces drawn so far. The model's own (log entry 9). -/
  nonceDraws : Nat
  /-- Free values used so far. The model's own (log entry 11). -/
  freeDraws : Nat
  /-- The next stamp of the injected queue's order. The model's own (log entry 13). -/
  joinStamps : Nat
  /-- The commands that wait, first in first out. The model's own. -/
  pending : List Instr
  deriving DecidableEq, Repr

/-- The block stops with no fault: it has no exception entry, and every refusal the manual describes is a reply or a
counted discard. No constructor, which is safe: no claim can rest on a fault. -/
inductive Fault where
  deriving DecidableEq, Repr

/-- The reasons a command is refused. -/
inductive Refusal where
  /-- Raised by an arm of `exec` whose command has no meaning yet (none has none). Safe: the model stops. -/
  | notModelled (mnemonic : String)
  deriving DecidableEq, Repr

/-- The host link after a reset (Table 11-5), with the rate the straps select (R193). -/
def resetHost (rate : Nat) : HostLink where
  receiver := .hunting
  working := false
  transmitting := none
  outgoing := []
  rate := rate
  badFrames := 0
  discardedPartials := 0
  busy := 0
  overruns := 0

/-- The machine right after the power-on reset of a part as delivered: the key cell blank, the History image empty and
sound, no settings saved, no cartridge present, POWER_WARN and TSTROBE not asserted, straps 00 (log entry 8). The
settings load has fallen back, so SETTINGS_DEFAULTED is in the cause and queued (R203), and the scan, RUNNING over 16
VACANT slots, has started the conversion of the reference (R154, R156, R171). -/
def State.reset : State where
  pins := ⟨Vector.replicate 16 false, false⟩
  host := resetHost 115200
  notices := ⟨BitVec.allOnes 18, [⟨0, .settingsDefaulted⟩], 1, 0, true⟩
  cause := ⟨.powerOn, false, true⟩
  preparation := none
  store := ⟨Vector.replicate 2 none, none, none⟩
  slots := Vector.replicate 16 (vacantSlot none)
  debounce := Vector.replicate 16 none
  debounceTime := 50
  bus :=
    { lanes := Vector.replicate 4 (resetLane .a)
      tableA := defaultTable
      tableB := defaultTable
      requested := .a
      windows := Vector.replicate 4 defaultWindow
      wanted := Vector.replicate 16 noMarks
      lastTicket := 0
      protection := ⟨0, none⟩ }
  engine := ⟨none, [], []⟩
  keys := ⟨.unprovisioned, .blank, none, false⟩
  tally := ⟨Vector.replicate 4 resetHead, 0, 0, 0, false, []⟩
  channels := Vector.ofFn fun c => resetChannel ⟨defaultSettings c, none, false⟩
  commits := Vector.replicate 16 initialCommit
  sense :=
    { list := defaultScanList
      pause := 50
      pendingScan := none
      scan := .running
      pauseTimer := none
      position := 17
      passConverted := true
      conversion := some ⟨.reference, false, 0, 0, false⟩
      run := none
      injected := []
      heldAdmissions := []
      reference := .unread
      lastReference := none
      deferred := 0
      passes := 0
      slots := Vector.replicate 16 (resetSlotSense defaultCalibration) }
  history :=
    { places := Vector.replicate 64 none
      recency := 0
      forfeited := 0
      urgent := []
      ordinary := []
      writing := none
      round := none
      image := Vector.replicate 64 none }
  clockMs := 0
  nonceDraws := 0
  freeDraws := 0
  joinStamps := 0
  pending := []

end Sys2Proof.Machine
end

