-- ==== Sys2Proof/Machine/Ops.lean ====
section
/-! DEFINITION. The named operations over the state that every block uses: reading and changing one record, raising a
notice (R198), moving a slot (R6), and the figures formed from a Slot Record (R2, R93). -/

namespace Sys2Proof.Machine

/-- `v` with item `i` changed by `f`. -/
def modifyAt {α : Type} {n : Nat} (v : Vector α n) (i : Fin n) (f : α → α) : Vector α n :=
  v.set i.val (f v[i.val]) i.isLt

/-- An addition that stays at `cap` once there (R78, R87, R197, R198). -/
def satAdd (cap a b : Nat) : Nat := min cap (a + b)

/-- A value outside a range is clamped to the nearer bound (R9, R120, R163). -/
def clampNat (lo hi x : Nat) : Nat := max lo (min hi x)

def clampInt (lo hi x : Int) : Int := max lo (min hi x)

/-- Slot s is on lane s div 4 (Table 1-1). -/
def laneOf (i : SlotId) : LaneId := ⟨i.val / 4, by omega⟩

/-- The lane address of a slot is s mod 4 (Table 1-1). -/
def laneAddress (i : SlotId) : Nat := i.val % 4

/-! ## Reading and changing one record -/

def State.slot (s : State) (i : SlotId) : SlotRecord := s.slots[i.val]
def State.channel (s : State) (c : ChannelId) : Channel := s.channels[c.val]
def State.commit (s : State) (i : SlotId) : CommitState := s.commits[i.val]
def State.lane (s : State) (l : LaneId) : Lane := s.bus.lanes[l.val]
def State.slotSense (s : State) (i : SlotId) : SlotSense := s.sense.slots[i.val]
def State.place (s : State) (p : PlaceId) : Option HistoryEntry := s.history.places[p.val]

def State.updSlot (s : State) (i : SlotId) (f : SlotRecord → SlotRecord) : State :=
  { s with slots := modifyAt s.slots i f }

def State.updChannel (s : State) (c : ChannelId) (f : Channel → Channel) : State :=
  { s with channels := modifyAt s.channels c f }

def State.updVolume (s : State) (c : ChannelId) (f : Volume → Volume) : State :=
  s.updChannel c fun ch => { ch with volume := f ch.volume }

def State.updCommit (s : State) (i : SlotId) (f : CommitState → CommitState) : State :=
  { s with commits := modifyAt s.commits i f }

def State.updLane (s : State) (l : LaneId) (f : Lane → Lane) : State :=
  { s with bus := { s.bus with lanes := modifyAt s.bus.lanes l f } }

def State.updSense (s : State) (f : LevelSense → LevelSense) : State :=
  { s with sense := f s.sense }

def State.updSlotSense (s : State) (i : SlotId) (f : SlotSense → SlotSense) : State :=
  s.updSense fun u => { u with slots := modifyAt u.slots i f }

def State.updHistory (s : State) (f : History → History) : State :=
  { s with history := f s.history }

def State.updEngine (s : State) (f : Engine → Engine) : State :=
  { s with engine := f s.engine }

def State.updHost (s : State) (f : HostLink → HostLink) : State :=
  { s with host := f s.host }

def State.updTally (s : State) (f : Tally → Tally) : State :=
  { s with tally := f s.tally }

/-! ## Notices (R198, R199) -/

/-- The mask position of a kind (Table 11-4). -/
def Notice.maskBit : Notice → Nat
  | .slotChanged .. => 0
  | .verdict .. => 1
  | .levelBand .. => 2
  | .channelChanged .. => 3
  | .reservationGranted .. => 4
  | .reservationExpired .. => 5
  | .reservationSplit .. => 6
  | .unreservedDraw .. => 7
  | .commitFailed .. => 8
  | .flowExcess .. => 9
  | .tallyFault .. => 10
  | .sensorFault .. => 11
  | .levelDisagree .. => 12
  | .historyEvicted .. => 13
  | .passthroughDone .. => 14
  | .protection .. => 15
  | .powerPreserved .. => 16
  | .settingsDefaulted => 17

/-- R198, R199: a masked kind is not queued and takes no serial; another takes the next serial, and joins the queue
(ATTN asserted) or, with 32 in the queue, is dropped and counted. -/
def NoticeUnit.raise (u : NoticeUnit) (n : Notice) : NoticeUnit :=
  if u.mask.getLsbD n.maskBit then
    if u.queue.length < Config.noticeCapacity then
      { u with queue := u.queue ++ [⟨u.nextSerial, n⟩], nextSerial := u.nextSerial + 1, attn := true }
    else
      { u with nextSerial := u.nextSerial + 1, dropped := satAdd Config.maxU16 u.dropped 1 }
  else u

def State.raise (s : State) (n : Notice) : State :=
  { s with notices := s.notices.raise n }

/-! ## Figures of a Slot Record -/

/-- While the description is absent the nominal fill is taken as 0 (R2). -/
def SlotRecord.nominal (r : SlotRecord) : Nat :=
  match r.description with
  | some d => d.nominalFill
  | none => 0

/-- R2: nominal fill minus committed minus uncommitted, not below zero. -/
def SlotRecord.remaining (r : SlotRecord) : Nat := r.nominal - r.committed - r.uncommitted

/-- R93: remaining estimate × 1000 div nominal fill. -/
def SlotRecord.perMille (r : SlotRecord) : Nat := r.remaining * 1000 / r.nominal

/-- A slot in READY, SERVING or SPENT (Table 0-3, admitted slot). -/
def SlotState.isAdmitted : SlotState → Bool
  | .ready | .serving | .spent => true
  | _ => false

/-- READING, VERIFYING or SENSING: admission in progress (R11). -/
def SlotState.inAdmission : SlotState → Bool
  | .reading | .verifying | .sensing => true
  | _ => false

/-- The SLOT_CHANGED of a slot that was in `previous` and now has record `r` (R6). -/
def slotChangedNotice (i : SlotId) (previous : SlotState) (r : SlotRecord) : Notice :=
  .slotChanged i previous r.state
    (if r.state = .rejected then r.rejectReason else none)
    (if r.state = .faulted then r.faultReason else none)
    (if r.state.isAdmitted then r.quality else none)

/-- A change of a slot's state: the record takes `f`, and SLOT_CHANGED is raised (R6). -/
def State.moveSlot (s : State) (i : SlotId) (f : SlotRecord → SlotRecord) : State :=
  (s.updSlot i f).raise (slotChangedNotice i (s.slot i).state (f (s.slot i)))

/-! ## Slots and serials -/

/-- A reconciled slot: non-VACANT and past reconciliation (R185). -/
def SlotRecord.isReconciled (r : SlotRecord) : Bool :=
  r.state ≠ .vacant && r.reconciled

/-- A slot that is not VACANT and holds a description with the serial (R172). -/
def SlotRecord.seats (r : SlotRecord) (serial : Word64) : Bool :=
  r.state ≠ .vacant && match r.description with
    | some d => d.serial == serial
    | none => false

/-- The slot in which the cartridge of a serial is seated (R172): the lowest-numbered where two slots hold the serial
(log entry 50). -/
def State.seatedIn (s : State) (serial : Word64) : Option SlotId :=
  (List.finRange 16).find? fun i => (s.slot i).seats serial

/-- Whether a reconciled slot holds the serial (R185). -/
def State.serialReconciled (s : State) (serial : Word64) : Bool :=
  (List.finRange 16).any fun i => (s.slot i).isReconciled && (s.slot i).seats serial

/-! ## Free values -/

/-- A fresh nonce (R58, log entry 9): the free value of the next draw. -/
def State.nextNonce (s : State) : Word64 := Config.nonceValue s.nonceDraws

def State.nonceDrawn (s : State) : State := { s with nonceDraws := s.nonceDraws + 1 }

/-- A stamp for an order of joining (log entry 13). -/
def State.stampUsed (s : State) : State := { s with joinStamps := s.joinStamps + 1 }

/-! ## The model's clock -/

/-- A millisecond passes on an empty queue (log entry 1). -/
def State.tick (s : State) : State := { s with clockMs := s.clockMs + 1 }

end Sys2Proof.Machine
end

