-- ==== Sys2Proof/Machine/Operands.lean ====
section
/-! DEFINITION. The operands of host requests: the numbers that name a slot, a channel, a window, a table, a class or a
source, with the refusal of the ones out of range, and the clamping of settings (R9, R43, R92, R120, R155, R163, R200). -/

namespace Sys2Proof.Machine

/-! ## Numbers that name a thing -/

/-- A slot number, none above 15. -/
def slotOf (n : Nat) : Option SlotId := if h : n < 16 then some ⟨n, h⟩ else none

/-- A channel number, none above 7. -/
def channelOf (n : Nat) : Option ChannelId := if h : n < 8 then some ⟨n, h⟩ else none

/-- A window number, none above 3 (R43). -/
def windowOf (n : Nat) : Option (Fin 4) := if h : n < 4 then some ⟨n, h⟩ else none

/-- A place index, none above 63 (R187). -/
def placeOf (n : Nat) : Option PlaceId := if h : n < 64 then some ⟨n, h⟩ else none

/-- A Schedule Table: A is 0 and B is 1 (R206). -/
def tableOf : Nat → Option TableId
  | 0 => some .a
  | 1 => some .b
  | _ => none

/-- A phase value: ADMIT, COMMIT, MARK, PASS from 0 (section 2.3, R206). -/
def classOf : Nat → Option LaneClass
  | 0 => some .admission
  | 1 => some .commit
  | 2 => some .mark
  | 3 => some .pass
  | _ => none

/-- A refill policy: WARN is 0 and REJECT is 1 (Table 7-2, R206). -/
def policyOf : Nat → Option RefillPolicy
  | 0 => some .warn
  | 1 => some .reject
  | _ => none

/-- A converter source: 0..15 or 17 (section 0.6). -/
def sourceOf (n : Nat) : Option Source :=
  if n = 17 then some .reference
  else match slotOf n with
    | some i => some (.slot i)
    | none => none

/-- Every element read, or none when one cannot be. -/
def readAll {α β : Type} (f : α → Option β) : List α → Option (List β)
  | [] => some []
  | x :: xs =>
    match f x, readAll f xs with
    | some y, some ys => some (y :: ys)
    | _, _ => none

/-- The scan list of a SCAN_SET: none with more than 24 entries or an entry that names no source (R155). -/
def scanListOf (sources : List Nat) : Option (List Source) :=
  if sources.length ≤ Config.scanListMax then readAll sourceOf sources else none

/-- A slot number or none; a number above 15 is refused (R123). -/
def optionalSlotOf : Option Nat → Option (Option SlotId)
  | none => some none
  | some n =>
    match slotOf n with
    | some i => some (some i)
    | none => none

/-! ## A Schedule Table as loaded (R39) -/

/-- The four classes. -/
def allClasses : List LaneClass := [.admission, .commit, .mark, .pass]

/-- Each phase value names a class, and each class stands in at least one phase. -/
def phasesValid (phases : Vector Nat 16) : Bool :=
  phases.toList.all (fun v => (classOf v).isSome) &&
    allClasses.all fun k => phases.toList.any fun v => classOf v = some k

/-- The table of valid phases. -/
def phaseTable (phases : Vector Nat 16) : Vector LaneClass 16 :=
  phases.map fun v => (classOf v).getD .admission

/-! ## Clamping -/

/-- CHANNEL_SET's settings as taken (R120): the low level first, then the very-low and the switch level lowered to it,
and the lower threshold lowered to the upper. -/
def takenSettings (r : RawSettings) (policy : RefillPolicy) : ChannelSettings :=
  let low := min 1000 r.lowLevel
  let upper := min 4000000000 r.upperThreshold
  { inkCode := clampNat 1 254 r.inkCode
    weightSmall := min Config.maxU16 r.weightSmall
    weightMedium := min Config.maxU16 r.weightMedium
    weightLarge := min Config.maxU16 r.weightLarge
    beta := clampInt (-128) 127 r.beta
    referenceCode := min 254 r.referenceCode
    lowLevel := low
    veryLowLevel := min low r.veryLowLevel
    switchLevel := min low r.switchLevel
    commitStep := clampNat 1000 10000000 r.commitStep
    flowWindow := clampNat 100 60000 r.flowWindow
    flowCeiling := min Config.maxU32 r.flowCeiling
    upperThreshold := upper
    lowerThreshold := min upper r.lowerThreshold
    waitLimit := clampNat 10 60000 r.waitLimit
    refillTolerance := clampNat 20 500 r.refillTolerance
    deficitTolerance := clampNat 20 500 r.deficitTolerance
    persistence := clampNat 1 15 r.persistence
    refillPolicy := policy }

/-- The settings as a request gives them. -/
def ChannelSettings.given (c : ChannelSettings) : RawSettings where
  inkCode := c.inkCode
  weightSmall := c.weightSmall
  weightMedium := c.weightMedium
  weightLarge := c.weightLarge
  beta := c.beta
  referenceCode := c.referenceCode
  lowLevel := c.lowLevel
  veryLowLevel := c.veryLowLevel
  switchLevel := c.switchLevel
  commitStep := c.commitStep
  flowWindow := c.flowWindow
  flowCeiling := c.flowCeiling
  upperThreshold := c.upperThreshold
  lowerThreshold := c.lowerThreshold
  waitLimit := c.waitLimit
  refillTolerance := c.refillTolerance
  deficitTolerance := c.deficitTolerance
  persistence := c.persistence
  refillPolicy := match c.refillPolicy with
    | .warn => 0
    | .reject => 1

/-- The seat debounce time, 10..250 ms (R9). -/
def debounceTaken (n : Nat) : Nat := clampNat 10 250 n

/-- The pause after a pass, 0..1000 ms (R155). -/
def pauseTaken (n : Nat) : Nat := min 1000 n

/-- A sensor offset, −512..511 (R163). -/
def offsetTaken (n : Int) : Int := clampInt (-512) 511 n

/-- A sensor gain, 0..2047 (R163). -/
def gainTaken (n : Nat) : Nat := min 2047 n

/-- A window as taken: each address into 64..255, then the high address raised to the low one (R43). -/
def windowTaken (f : WindowSetFields) : Window :=
  let low := clampNat Config.userLow Config.userHigh f.low
  ⟨low, max low (clampNat Config.userLow Config.userHigh f.high), f.readEnable, f.writeEnable⟩

/-- A service draw as taken (R92). -/
def drawTaken (n : Nat) : Nat := min Config.serviceDrawMax n

/-- NOTICE_GET's maximum as taken, 1..8 (R200). -/
def noticesTaken (n : Nat) : Nat := clampNat 1 8 n

end Sys2Proof.Machine
end

