-- ==== Sys2Proof/Machine/HistoryOps.lean ====
section
/-! DEFINITION. The History Unit's shared operations: finding and rewriting entries, the store queue (R185), starting a
nonvolatile write (R186), stamps (R173), eviction (R183, R184), forfeits (R174) and the preservation write (R109). -/

namespace Sys2Proof.Machine

/-- The place that holds the entry of a serial. R172 has at most one; of two that an image loaded at a reset can hold, the
lowest (log entry 56). -/
def State.findEntry (s : State) (serial : Word64) : Option PlaceId :=
  (List.finRange 64).find? fun p =>
    match s.place p with
    | some e => e.serial == serial
    | none => false

/-- The entry of a slot's cartridge. -/
def State.entryOf (s : State) (i : SlotId) : Option PlaceId :=
  match (s.slot i).description with
  | some d => s.findEntry d.serial
  | none => none

def History.count (h : History) : Nat := (h.places.toList.filter Option.isSome).length

/-- R185: where an index joins. Urgent: an index in the ordinary part moves to the end of the urgent part, one in
neither joins its end. Otherwise one in neither part joins the ordinary part. -/
def History.placed (h : History) (p : PlaceId) (urgent : Bool) : History :=
  if p ∈ h.urgent then h
  else if urgent then { h with urgent := h.urgent ++ [p], ordinary := h.ordinary.filter (· ≠ p) }
  else if p ∈ h.ordinary then h
  else { h with ordinary := h.ordinary ++ [p] }

/-- R185: an index is placed urgent where a rule says so, or when its place holds the entry of a reconciled slot
changed while POWER_WARN is asserted. -/
def State.placeStored (s : State) (p : PlaceId) (urgent : Bool) : State :=
  let reconciledNow :=
    s.pins.powerWarn && match s.place p with
      | some e => s.serialReconciled e.serial
      | none => false
  s.updHistory fun h => h.placed p (urgent || reconciledNow)

/-- A place is filled, rewritten, refilled or emptied, and its index placed in the store queue (R172, R185). -/
def State.writePlace (s : State) (p : PlaceId) (e : Option HistoryEntry) (urgent : Bool) : State :=
  (s.updHistory fun h => { h with places := modifyAt h.places p fun _ => e }).placeStored p urgent

/-- An entry is rewritten in place. -/
def State.editEntry (s : State) (p : PlaceId) (f : HistoryEntry → HistoryEntry) (urgent : Bool) : State :=
  match s.place p with
  | some e => s.writePlace p (some (f e)) urgent
  | none => s

/-- The write of a place starts: it copies the content of that moment (R186), counts for the round when its place is
in the round's set (R190), and is waited for when a host reset waits for its place (R191). -/
def State.startWriteOf (s : State) (p : PlaceId) : State :=
  let forRound := match s.history.round with
    | some r => p ∈ r.remaining
    | none => false
  let forReset := match s.preparation with
    | some r => p ∈ r.waits
    | none => false
  { s with
    history := { s.history with writing := some ⟨p, s.place p, forRound, forReset⟩ }
    preparation := match s.preparation with
      | some r => some { r with waits := r.waits.erase p }
      | none => none }

/-- R186: with no write in progress, the first index of the urgent part, or of the ordinary part when that is empty,
leaves the queue and its write starts. Taken at the end of each event (log entry 12). -/
def State.startWrite (s : State) : State :=
  match s.history.writing with
  | some _ => s
  | none =>
    match s.history.urgent, s.history.ordinary with
    | p :: rest, _ => (s.updHistory fun h => { h with urgent := rest }).startWriteOf p
    | [], p :: rest => (s.updHistory fun h => { h with ordinary := rest }).startWriteOf p
    | [], [] => s

/-- R174. -/
def State.forfeit (s : State) (pending : Option Nat) : State :=
  s.updHistory fun h => { h with forfeited := satAdd Config.max48 h.forfeited (pending.getD 0) }

/-! ## Recency stamps (R173) -/

/-- Whether the entry `e` of place `p` stands before one of place `q` with a stamp: by stamp, and by place where two
loaded entries have one stamp (log entry 55). -/
def HistoryEntry.before (e : HistoryEntry) (p q : PlaceId) (stamp : Nat) : Bool :=
  e.stamp < stamp || (e.stamp = stamp && p < q)

/-- The new stamp of the entry of place `q` at a renumbering: its rank by old stamp, from 1. -/
def History.rank (h : History) (q : PlaceId) (stamp : Nat) : Nat :=
  1 + ((List.finRange 64).filter fun p =>
    match h.places[p.val] with
    | some e => e.before p q stamp
    | none => false).length

/-- The place of the entry with the lowest stamp among the candidates `ok`, the lowest such place where two loaded
entries have one stamp (log entry 55). -/
def State.nextByStamp (s : State) (ok : PlaceId → HistoryEntry → Bool) : Option PlaceId :=
  ((List.finRange 64).foldl
    (fun best p =>
      match s.place p with
      | some e =>
        if ok p e then
          match best with
          | some (q, t) => if e.stamp < t then some (p, e.stamp) else some (q, t)
          | none => some (p, e.stamp)
        else best
      | none => best)
    none).map Prod.fst

/-- The places of the candidates `ok` in the order of their stamps, lowest first, at most `n` of them. -/
def State.byStamp : Nat → State → (PlaceId → HistoryEntry → Bool) → List PlaceId
  | 0, _, _ => []
  | n + 1, s, ok =>
    match s.nextByStamp ok with
    | some p =>
      match s.place p with
      | some e => p :: State.byStamp n s fun q x => e.before p q x.stamp
      | none => []
    | none => []

/-- R173: when the counter stands at its maximum, each entry takes a new stamp from 1 upward in the order of its old
stamp, the counter takes the number of entries, and each index is placed in the store queue. -/
def State.renumber (s : State) : State :=
  let order := State.byStamp 64 s fun _ _ => true
  let h := s.history
  let s := s.updHistory fun h' =>
    { h' with
      places := Vector.ofFn fun q => h'.places[q.val].map fun x => { x with stamp := h.rank q x.stamp }
      recency := h.count }
  order.foldl (fun s p => s.placeStored p false) s

/-- The counter before a bump: renumbered when it is at its maximum (R173). -/
def State.roomForStamp (s : State) : State :=
  if s.history.recency = Config.maxU32 then s.renumber else s

/-- A bump adds 1 to the counter; the entry takes `recency` after it (R173). -/
def State.stampTaken (s : State) : State :=
  s.updHistory fun h => { h with recency := h.recency + 1 }

/-! ## Eviction (R183, R184) -/

/-- The candidate of R183 and its tier: the lowest stamp of the first tier that has one. -/
def State.evictionChoice (s : State) : Option (PlaceId × Nat) :=
  let notSeated (e : HistoryEntry) := (s.seatedIn e.serial).isNone
  match s.nextByStamp fun _ e => notSeated e && e.pendingCharge.isNone && !e.barred with
  | some p => some (p, 1)
  | none =>
    match s.nextByStamp fun _ e => notSeated e && !e.barred with
    | some p => some (p, 2)
    | none =>
      match s.nextByStamp fun _ e => notSeated e with
      | some p => some (p, 3)
      | none => none

/-- R183, R184: the chosen entry is removed, its pending charge forfeited, HISTORY_EVICTED raised; the place freed. -/
def State.evict (s : State) : State × Option PlaceId :=
  match s.evictionChoice with
  | some (p, tier) =>
    match s.place p with
    | some e =>
      let s := s.forfeit e.pendingCharge
      let s := s.updHistory fun h => { h with places := modifyAt h.places p fun _ => none }
      (s.raise (.historyEvicted e.serial tier (e.pendingCharge.getD 0) e.barred p), some p)
    | none => (s, none)
  | none => (s, none)

/-- The empty places. -/
def State.emptyPlaces (s : State) : List PlaceId :=
  (List.finRange 64).filter fun p => (s.place p).isNone

/-- An empty place for a new entry, if there is one: the one the sender names, or whichever the free choice picks
(R175 does not say which; log entry 21). -/
def State.emptyPlace (s : State) (named : Option PlaceId) : Option PlaceId :=
  match named with
  | some p => if (s.place p).isNone then some p else s.emptyPlaces.head?
  | none =>
    match s.emptyPlaces with
    | [] => none
    | p :: rest => some ((p :: rest).getD (Config.placeChoice s.freeDraws % (rest.length + 1)) p)

/-! ## The preservation write (R109) -/

/-- Absent when 0. -/
def nonzero (n : Nat) : Option Nat := if n = 0 then none else some n

/-- The highest value that may have reached the tag: the advance value of a commit in SENT or CHECKING, and the
doubtful value; 0 when neither is present (R109). -/
def CommitState.exposedTop (c : CommitState) : Nat :=
  max (match c.flight with
    | some f => if f.phase = .waiting then 0 else f.advance
    | none => 0) (c.doubtful.getD 0)

/-- The exposed amount (R109). -/
def State.exposed (s : State) (i : SlotId) : Nat :=
  (s.commit i).exposedTop - (s.slot i).committed

/-- R109: the entry's pending charge takes the slot's uncommitted and its uncertain part the exposed amount, each
absent when 0. -/
def State.preserve (s : State) (i : SlotId) (urgent : Bool) : State :=
  match s.entryOf i with
  | some p =>
    s.editEntry p (fun e =>
      { e with pendingCharge := nonzero (s.slot i).uncommitted, uncertain := nonzero (s.exposed i) }) urgent
  | none => s

/-- The preservation writes of every reconciled slot, in slot order, placed urgent (R189, R191). -/
def State.preserveAll (s : State) : State :=
  (List.finRange 16).foldl (fun s i => if (s.slot i).isReconciled then s.preserve i true else s) s

/-- The places of the entries of the reconciled slots, in slot order (R189's set). -/
def State.preservedPlaces (s : State) : List PlaceId :=
  (List.finRange 16).filterMap fun i => if (s.slot i).isReconciled then s.entryOf i else none

end Sys2Proof.Machine
end

