-- ==== Sys2Proof/Machine/Sensing.lean ====
section
/-! DEFINITION. The Level Sense Unit's shared operations: hold-off (R42, R157), the injected queue (R158 to R160), the
regular scan (R155, R156, R161), the converter taking its next work (R154), and the arithmetic of chapter 9. -/

namespace Sys2Proof.Machine

/-- A slot is held off while a lane is on the wire to it (R42, R157). -/
def State.heldOff (s : State) (i : SlotId) : Bool :=
  match (s.lane (laneOf i)).state with
  | .onWire t => t.entry.slot == i
  | _ => false

/-! ## The injected queue -/

def Reasons.or (a b : Reasons) : Reasons := ⟨a.admission || b.admission, a.host || b.host⟩

def Reasons.none (r : Reasons) : Bool := !r.admission && !r.host

/-- A request goes back among the others by its stamp (R159). -/
def insertInjected (q : Injected) : List Injected → List Injected
  | [] => [q]
  | x :: xs => if q.stamp < x.stamp then q :: x :: xs else x :: insertInjected q xs

/-- R158: merge with a queued request for the slot, join the end, or (none) find the queue full. -/
def State.placeRequest (s : State) (i : SlotId) (why : Reasons) : Option State :=
  if s.sense.injected.any (·.slot = i) then
    some (s.updSense fun u =>
      { u with injected := u.injected.map fun q => if q.slot = i then { q with reasons := q.reasons.or why } else q })
  else if s.sense.injected.length < Config.injectedCapacity then
    some ((s.updSense fun u => { u with injected := u.injected ++ [⟨i, why, s.joinStamps⟩] }).stampUsed)
  else none

/-- The position of a slot's request in the queue, from 1. -/
def State.requestPosition (s : State) (i : SlotId) : Nat :=
  s.sense.injected.findIdx (·.slot = i) + 1

/-- The Slot Manager holds a slot's ADMISSION request, in the order the slots entered SENSING (R158). -/
def insertHeld (s : State) (i : SlotId) : List SlotId → List SlotId
  | [] => [i]
  | j :: rest =>
    if (s.slot i).sensingStamp < (s.slot j).sensingStamp then i :: j :: rest else j :: insertHeld s i rest

def State.holdAdmission (s : State) (i : SlotId) : State :=
  s.updSense fun u => { u with heldAdmissions := insertHeld s i u.heldAdmissions }

/-- Held ADMISSION requests are placed, in their order, while the queue takes them (R19, R158). -/
def State.placeHeldN : Nat → State → State
  | 0, s => s
  | n + 1, s =>
    match s.sense.heldAdmissions with
    | [] => s
    | i :: rest =>
      match (s.updSense fun u => { u with heldAdmissions := rest }).placeRequest i ⟨true, false⟩ with
      | some s' => State.placeHeldN n s'
      | none => s

def State.placeHeld (s : State) : State := State.placeHeldN s.sense.heldAdmissions.length s

/-- The ADMISSION request of a slot that enters SENSING: placed, or held while the queue is full (R19). -/
def State.requestAdmission (s : State) (i : SlotId) : State :=
  match s.placeRequest i ⟨true, false⟩ with
  | some s' => s'
  | none => s.holdAdmission i

/-- R159: an abandoned run's request returns to the place it held, merged with a request for the same slot that joined
meanwhile; with 8 others queued an ADMISSION reason passes to the Slot Manager and a HOST reason is dropped. -/
def State.returnRequest (s : State) (q : Injected) : State :=
  match s.sense.injected.find? (·.slot = q.slot) with
  | some later =>
    s.updSense fun u =>
      { u with injected :=
          insertInjected { q with reasons := q.reasons.or later.reasons } (u.injected.filter (·.slot ≠ q.slot)) }
  | none =>
    if s.sense.injected.length < Config.injectedCapacity then
      s.updSense fun u => { u with injected := insertInjected q u.injected }
    else if q.reasons.admission then s.holdAdmission q.slot
    else s

/-- The conversion in progress is to be discarded when it completes (R154). -/
def State.discardConversion (s : State) : State :=
  s.updSense fun u => { u with conversion := u.conversion.map fun c => { c with discarded := true } }

/-- R159: the run is abandoned; its samples are discarded, the conversion in progress spoiled, the request returns. -/
def State.abandonRun (s : State) : State :=
  match s.sense.run with
  | some r => ((s.updSense fun u => { u with run := none }).discardConversion).returnRequest r.request
  | none => s

/-- A lane goes on the wire to a slot (R157): a conversion of its sensor in progress is spoiled. A regular one counts
as deferred (log entry 35); one of a run abandons the run. -/
def State.goesOnWire (s : State) (i : SlotId) : State :=
  match s.sense.conversion with
  | some c =>
    if c.source = .slot i ∧ c.discarded = false then
      if c.ofRun then s.abandonRun
      else s.discardConversion.updSense fun u => { u with deferred := satAdd Config.maxU32 u.deferred 1 }
    else s
  | none => s

/-- R160, removal: the queued request is removed whatever its reasons, a run in progress stops, a conversion of the
slot is discarded (R154), and a held ADMISSION request is dropped. -/
def State.removeSensing (s : State) (i : SlotId) : State :=
  let s := s.updSense fun u =>
    { u with
      injected := u.injected.filter (·.slot ≠ i)
      heldAdmissions := u.heldAdmissions.filter (· ≠ i)
      run := match u.run with
        | some r => if r.request.slot = i then none else some r
        | none => none
      conversion := u.conversion.map fun c =>
        if c.source = .slot i then { c with discarded := true } else c }
  s.placeHeld

/-- R160, abandonment of admission: the request loses reason ADMISSION; left with none it is removed, or in a run it
stops; a held request is dropped. -/
def State.dropAdmissionReason (s : State) (i : SlotId) : State :=
  let s := s.updSense fun u =>
    { u with
      injected := (u.injected.map fun q =>
          if q.slot = i then { q with reasons := { q.reasons with admission := false } } else q).filter
            fun q => !q.reasons.none
      heldAdmissions := u.heldAdmissions.filter (· ≠ i) }
  let s := match s.sense.run with
    | some r =>
      if r.request.slot = i then
        if r.request.reasons.host then
          s.updSense fun u =>
            { u with run := some { r with request := { r.request with reasons := { r.request.reasons with admission := false } } } }
        else (s.updSense fun u => { u with run := none }).discardConversion
      else s
    | none => s
  s.placeHeld

/-! ## The converter (R154) and the scan (R156) -/

/-- A conversion starts; it keeps the offset and gain of this moment (R163: new values apply to the next one). -/
def State.startConversion (s : State) (source : Source) (ofRun : Bool) : State :=
  let cal : Calibration := match source with
    | .slot i => ⟨(s.slotSense i).offset, (s.slotSense i).gain⟩
    | .reference => ⟨0, 0⟩
  s.updSense fun u => { u with conversion := some ⟨source, ofRun, cal.offset, cal.gain, false⟩ }

/-- R159: the oldest request whose slot is not held off leaves the queue and its run starts, unless POWER_WARN is
asserted; a place is then free for a held ADMISSION request (R158). -/
def State.startInjected (s : State) : Option State :=
  if s.pins.powerWarn then none
  else
    match s.sense.injected.find? fun q => !s.heldOff q.slot with
    | some q =>
      some (((s.updSense fun u =>
        { u with injected := u.injected.filter (·.slot ≠ q.slot), run := some ⟨q, []⟩ }).startConversion
          (.slot q.slot) true).placeHeld)
    | none => none

/-- R156: the pass ends; the count rises and the scan enters PAUSING, for at least 1 ms after a pass that converted
nothing. The scan position is then 0 (log entry 49). -/
def State.endPass (s : State) : State :=
  s.updSense fun u =>
    { u with
      passes := satAdd Config.maxU32 u.passes 1
      scan := .pausing
      pauseTimer := some (if u.passConverted then u.pause else max u.pause 1)
      position := 0 }

/-- R156: the scan walks its list from the scan position; skipped entries take no time. -/
def State.scanFrom : List Source → State → State
  | [], s => s.endPass
  | src :: rest, s =>
    let s := s.updSense fun u => { u with position := u.position + 1 }
    match src with
    | .reference => (s.updSense fun u => { u with passConverted := true }).startConversion .reference false
    | .slot i =>
      if (s.slot i).state = .vacant then State.scanFrom rest s
      else if s.heldOff i then
        State.scanFrom rest (s.updSense fun u => { u with deferred := satAdd Config.maxU32 u.deferred 1 })
      else (s.updSense fun u => { u with passConverted := true }).startConversion (.slot i) false

/-- R156: a pass whose last entry has been dealt with ends, whatever injected work there is. With the scan HALTED it ends
when the scan runs again (R161; log entry 48). -/
def State.passOver (s : State) : State :=
  if s.sense.scan = .running ∧ s.sense.list.length ≤ s.sense.position then s.endPass else s

/-- R154: a free converter with work starts its next conversion: an injected request first, then the scan when it is
RUNNING. Taken at the end of each event (log entry 13). -/
def State.converterWork (s : State) : State :=
  match s.sense.conversion with
  | some _ => s
  | none =>
    let s := s.passOver
    match s.startInjected with
    | some s' => s'
    | none => if s.sense.scan = .running then State.scanFrom (s.sense.list.drop s.sense.position) s else s

/-- R155: a pending SCAN_SET is taken up. -/
def State.takeUpScan (s : State) : State :=
  match s.sense.pendingScan with
  | some p => s.updSense fun u => { u with list := p.list, pause := p.pause, pendingScan := none }
  | none => s

/-- R156: a pass starts at the first entry of the list in force; with an empty list the scan stays PAUSING with no
pause timer. -/
def State.beginPass (s : State) : State :=
  s.updSense fun u =>
    if u.list.isEmpty then { u with scan := .pausing, pauseTimer := none, position := 0, passConverted := false }
    else { u with scan := .running, pauseTimer := none, position := 0, passConverted := false }

/-- R161, at the assertion of POWER_WARN: the scan enters HALTED keeping its position; a pause in progress is
abandoned, a pending SCAN_SET then taken up and the position set to the first entry. -/
def State.haltScan (s : State) : State :=
  match s.sense.scan with
  | .running => s.updSense fun u => { u with scan := .halted }
  | .pausing =>
    s.takeUpScan.updSense fun u =>
      { u with scan := .halted, pauseTimer := none, position := 0, passConverted := false }
  | .halted => s

/-- R161, at the deassertion: RUNNING at the scan position, or PAUSING with no pause timer on an empty list. -/
def State.resumeScan (s : State) : State :=
  match s.sense.scan with
  | .halted =>
    s.updSense fun u => { u with scan := if u.list.isEmpty then .pausing else .running, pauseTimer := none }
  | _ => s

/-! ## From raw code to level -/

/-- R162: raw 0..15 and 4080..4095. -/
def rawFaulted (raw : Nat) : Bool := raw ≤ 15 || 4080 ≤ raw

/-- R163: c is the raw code less the offset, kept in 0..4095; the level is (c × gain + 2048) div 4096, at most 1000. -/
def levelOf (raw : Nat) (offset : Int) (gain : Nat) : Nat :=
  min 1000 (((clampInt 0 4095 ((raw : Int) - offset)).toNat * gain + 2048) / 4096)

/-- R164: 1900..2200. -/
def referenceGood (raw : Nat) : Bool := 1900 ≤ raw && raw ≤ 2200

/-- R165: the ring is valid when it holds four levels; the sensed level is then their sum div 4. -/
def sensedLevel (ring : List Nat) : Option Nat :=
  if ring.length = Config.runSamples then some (ring.sum / 4) else none

/-- R165: a regular good sample joins the end; of four the oldest leaves. -/
def pushRing (ring : List Nat) (level : Nat) : List Nat :=
  if ring.length < Config.runSamples then ring ++ [level] else ring.drop 1 ++ [level]

/-- R162: what a sample does to SENSOR_FAULT and the good-sample run; the level it gives, if it is good. -/
def State.takeSample (s : State) (i : SlotId) (raw : Nat) (offset : Int) (gain : Nat) : State × Option Nat :=
  if rawFaulted raw then
    let s := s.updSlotSense i fun u => { u with goodRun := 0 }
    if (s.slot i).sensorFault then (s, none)
    else ((s.updSlot i fun r => { r with sensorFault := true }).raise (.sensorFault (some i) raw), none)
  else
    let level := levelOf raw offset gain
    if (s.slot i).sensorFault then
      let run := min Config.runSamples ((s.slotSense i).goodRun + 1)
      let s := s.updSlotSense i fun u => { u with goodRun := run }
      if run = Config.runSamples then (s.updSlot i fun r => { r with sensorFault := false }, some level)
      else (s, some level)
    else (s, some level)

/-- R159: the slot's host-senses count increases by 1; past 65,535 it holds a free value (log entry 11). -/
def State.countHostSense (s : State) (i : SlotId) : State :=
  if (s.slotSense i).hostSenses < Config.maxU16 then
    s.updSlotSense i fun u => { u with hostSenses := u.hostSenses + 1 }
  else
    { s.updSlotSense i fun u => { u with hostSenses := (Config.hostSensesPastEnd s.freeDraws).toNat } with
      freeDraws := s.freeDraws + 1 }

end Sys2Proof.Machine
end

