-- ==== Sys2Proof/Machine/Lanes.lean ====
section
/-! DEFINITION. The Cartridge Bus Controller's shared operations: lane queues (R35, R36), the choice of the next entry
(R38, R40, R41), taking it (R25, R45), wanted marks (R32), tickets (R44) and the protection record (R46). -/

namespace Sys2Proof.Machine

/-- The queue class in which a command is issued (Table 2-2). -/
def TagCommand.laneClass : TagCommand → LaneClass
  | .describe | .challenge _ => .admission
  | .odoAdvance .. => .commit
  | .mark _ => .mark
  | .memRead .. | .memWrite .. => .pass

def LaneEntry.laneClass (e : LaneEntry) : LaneClass := e.command.laneClass

def Bus.table (b : Bus) : TableId → Vector LaneClass 16
  | .a => b.tableA
  | .b => b.tableB

/-! ## The choice of the next entry -/

/-- The oldest entry of a class. -/
def oldestOf (q : List LaneEntry) (k : LaneClass) : Option LaneEntry := q.find? (·.laneClass = k)

/-- Where a search stops: the entry, the wheel position after it and the table then in use. -/
structure Choice where
  entry : LaneEntry
  wheel : Fin 16
  inUse : TableId
  deriving DecidableEq, Repr

/-- R38, R40: the search from phase `p` of table `t`, stopping at the first phase whose class has an entry; passing
from phase 15 to phase 0 takes up the requested table, and so does setting the wheel from 15 to 0. -/
def searchWheel : Nat → Bus → List LaneEntry → TableId → Fin 16 → Option Choice
  | 0, _, _, _, _ => none
  | n + 1, b, q, t, p =>
    match oldestOf q ((b.table t)[p.val]) with
    | some e => some ⟨e, p + 1, if p.val = 15 then b.requested else t⟩
    | none => searchWheel n b q (if p.val = 15 then b.requested else t) (p + 1)

/-- The entry a lane takes: in urgent mode the oldest COMMIT entry, the wheel unchanged (R41); otherwise by the search
(R38). 32 phases reach every phase of the table in use and then of the requested one. -/
def State.chooseEntry (s : State) (l : LaneId) : Option Choice :=
  let lane := s.lane l
  match (if s.pins.powerWarn then oldestOf lane.queue .commit else none) with
  | some e => some ⟨e, lane.wheel, lane.inUse⟩
  | none => searchWheel 32 s.bus lane.queue lane.inUse lane.wheel

/-! ## Taking an entry -/

/-- R107: when the lane takes the COMMIT entry, the phase becomes SENT. -/
def State.commitSent (s : State) (i : SlotId) : State :=
  s.updCommit i fun c => { c with flight := c.flight.map fun f => { f with phase := .sent } }

/-- R25, R42: the lane enters ON_WIRE with the entry's command frame, and is on the wire to its slot. -/
def State.startTransaction (s : State) (l : LaneId) (e : LaneEntry) : State :=
  let s := s.updLane l fun lane => { lane with state := .onWire ⟨e, 0, 0, .replyWait, false⟩ }
  let s := match e.command with
    | .odoAdvance .. => s.commitSent e.slot
    | _ => s
  s.goesOnWire e.slot

/-- A pass-through ends (R45). -/
def State.passDone (s : State) (e : LaneEntry) (status : PassStatus) : State :=
  match e.ticket with
  | some t => s.raise (.passthroughDone e.slot t status)
  | none => s

/-- An IDLE lane with an empty queue takes up the requested table at position 0, when it runs another (R40). -/
def Lane.takeUp (lane : Lane) (requested : TableId) : Lane :=
  if lane.inUse = requested then lane else { lane with inUse := requested, wheel := 0 }

/-- R25: an IDLE lane takes entries (each the oldest of its class) until one starts a transaction or the queue is empty. A PASS entry of a slot no
longer admitted makes no transaction and ends FAILED, WRONG_STATE (R45). -/
def State.takeEntryN : Nat → State → LaneId → State
  | 0, s, _ => s
  | n + 1, s, l =>
    if (s.lane l).queue.isEmpty then s.updLane l fun lane => lane.takeUp s.bus.requested
    else
      match s.chooseEntry l with
      | none => s
      | some c =>
        let s := s.updLane l fun lane =>
          { lane with
            queue := lane.queue.eraseP fun e => e.laneClass = c.entry.laneClass
            wheel := c.wheel
            inUse := c.inUse }
        if c.entry.laneClass = .pass ∧ (s.slot c.entry.slot).state.isAdmitted = false then
          State.takeEntryN n (s.passDone c.entry (.failed .wrongState)) l
        else s.startTransaction l c.entry

def State.takeEntry (s : State) (l : LaneId) : State :=
  State.takeEntryN ((s.lane l).queue.length + 1) s l

/-- The lane returns to IDLE and takes its next entry at once (R25). -/
def State.laneFree (s : State) (l : LaneId) : State :=
  (s.updLane l fun lane => { lane with state := .idle }).takeEntry l

/-- An entry joins the queue of its slot's lane; an IDLE lane takes an entry at that moment (R25). -/
def State.enqueue (s : State) (e : LaneEntry) : State :=
  let l := laneOf e.slot
  let s := s.updLane l fun lane => { lane with queue := lane.queue ++ [e] }
  match (s.lane l).state with
  | .idle => s.takeEntry l
  | _ => s

/-- A slot's entries of the classes `drop` leave the queue of its lane (R36). -/
def State.dropEntries (s : State) (i : SlotId) (drop : LaneClass → Bool) : State :=
  s.updLane (laneOf i) fun lane =>
    { lane with queue := lane.queue.filter fun e => !(e.slot = i ∧ drop e.laneClass) }

/-! ## Marks (R32) -/

/-- Whether a description shows a mark. -/
def Description.shows (d : Description) : TagMark → Bool
  | .spent => d.tagState = .spent
  | .refill => d.refillMark

def SlotRecord.shows (r : SlotRecord) (m : TagMark) : Bool :=
  match r.description with
  | some d => d.shows m
  | none => false

/-- The mark of a slot's MARK entry queued or in flight. -/
def State.markUnderWay (s : State) (i : SlotId) : Option TagMark :=
  let lane := s.lane (laneOf i)
  let inFlight := match lane.state with
    | .onWire t => if t.entry.slot = i then [t.entry] else []
    | _ => []
  ((inFlight ++ lane.queue).filter (·.slot = i)).findSome? fun e =>
    match e.command with
    | .mark m => some m
    | _ => none

def WantedMarks.set (w : WantedMarks) (m : TagMark) (v : Bool) : WantedMarks :=
  match m with
  | .spent => { w with spent := v }
  | .refill => { w with refill := v }

def WantedMarks.has (w : WantedMarks) : TagMark → Bool
  | .spent => w.spent
  | .refill => w.refill

def State.setWanted (s : State) (i : SlotId) (m : TagMark) (v : Bool) : State :=
  { s with bus := { s.bus with wanted := modifyAt s.bus.wanted i fun w => w.set m v } }

/-- A request for a mark on a slot (R32). -/
def State.requestMark (s : State) (i : SlotId) (m : TagMark) : State :=
  if (s.slot i).shows m then s
  else
    match s.markUnderWay i with
    | none => s.enqueue ⟨i, .mark m, none⟩
    | some m' => if m' = m then s else s.setWanted i m true

/-- R1: a MARK that ends with ACK shows in the description. -/
def Description.marked (d : Description) : TagMark → Description
  | .spent => { d with tagState := .spent }
  | .refill => { d with refillMark := true }

def State.markWritten (s : State) (i : SlotId) (m : TagMark) : State :=
  s.updSlot i fun r => { r with description := r.description.map fun d => d.marked m }

/-- When a slot's MARK transaction ends other than by an abort (R32): its mark leaves the wanted set, and a wanted mark
that the description does not show is queued. -/
def State.markEnded (s : State) (i : SlotId) (m : TagMark) : State :=
  let s := s.setWanted i m false
  let other : TagMark := match m with
    | .spent => .refill
    | .refill => .spent
  if (s.bus.wanted[i.val]).has other ∧ (s.slot i).shows other = false then s.enqueue ⟨i, .mark other, none⟩ else s

/-! ## Pass-through (R43, R44) -/

/-- The tickets of outstanding pass-throughs: queued or in flight. -/
def State.ticketsHeld (s : State) : List Nat :=
  (List.finRange 4).flatMap fun l =>
    let lane := s.lane l
    let inFlight := match lane.state with
      | .onWire t => [t.entry]
      | _ => []
    (inFlight ++ lane.queue).filterMap (·.ticket)

/-- The number after `last`, with `1` following 255, skipping the ones held (R44, R139). -/
def nextNumber : Nat → List Nat → Nat → Nat
  | 0, _, last => last
  | n + 1, taken, last =>
    let next := if last < 255 then last + 1 else 1
    if next ∈ taken then nextNumber n taken next else next

/-- The ticket issued next (R44). -/
def State.nextTicket (s : State) : Nat := nextNumber 255 s.ticketsHeld s.bus.lastTicket

/-- R43: a byte range lies within one window that permits the access. -/
def Window.permits (w : Window) (first last : Nat) (isWrite : Bool) : Bool :=
  w.low ≤ first && last ≤ w.high && (if isWrite then w.writeEnable else w.readEnable)

def State.accessPermitted (s : State) (address length : Nat) (isWrite : Bool) : Bool :=
  s.bus.windows.toList.any fun w => w.permits address (address + length - 1) isWrite

/-- PASS entries a lane's queue holds. -/
def State.passQueued (s : State) (l : LaneId) : Nat :=
  ((s.lane l).queue.filter (·.laneClass = .pass)).length

/-- R46: a violation is recorded; the first after an empty record raises PROTECTION. -/
def State.violation (s : State) (v : Violation) : State :=
  if s.bus.protection.count = 0 then
    ({ s with bus := { s.bus with protection := ⟨1, some v⟩ } }).raise (.protection v)
  else
    { s with bus := { s.bus with protection :=
        { s.bus.protection with count := satAdd Config.maxU16 s.bus.protection.count 1 } } }

end Sys2Proof.Machine
end

