-- ==== Sys2Proof/Machine/Commits.lean ====
section
/-! DEFINITION. The Commit Unit's triggers (R103, R104), taking and enlarging a commit (R105), the again flag (R106,
R113) and the withdrawal of a waiting commit (R114). -/

namespace Sys2Proof.Machine

/-- A trigger acts on a slot in READY, SERVING or SPENT with uncommitted above 0 (R103). -/
def State.triggerActs (s : State) (i : SlotId) : Bool :=
  (s.slot i).state.isAdmitted && 0 < (s.slot i).uncommitted

/-- R104: uncommitted at or above the commit step of the channel the channel field names. -/
def State.stepHolds (s : State) (i : SlotId) : Bool :=
  match (s.slot i).channel with
  | some c => (s.channel c).settings.commitStep ≤ (s.slot i).uncommitted
  | none => false

/-- The fill generation of the slot's description (R31). -/
def SlotRecord.generation (r : SlotRecord) : Nat :=
  match r.description with
  | some d => d.fillGeneration
  | none => 0

/-- R105, phase NONE: the snapshot takes uncommitted, the advance value committed plus the snapshot, a nonce is drawn,
the phase is WAITING and a COMMIT entry joins the lane queue, from which an IDLE lane takes it at once. -/
def State.takeCommit (s : State) (i : SlotId) : State :=
  let r := s.slot i
  let advance := r.committed + r.uncommitted
  let nonce := s.nextNonce
  let s := s.nonceDrawn.updCommit i fun c => { c with flight := some ⟨.waiting, r.uncommitted, advance, nonce⟩ }
  s.enqueue ⟨i, .odoAdvance advance r.generation nonce, none⟩

/-- A COMMIT entry with a new advance value, its nonce and place kept (R105). -/
def LaneEntry.enlarged (e : LaneEntry) (i : SlotId) (advance : Nat) : LaneEntry :=
  match e.command with
  | .odoAdvance _ g n => if e.slot = i then { e with command := .odoAdvance advance g n } else e
  | _ => e

/-- R105, phase WAITING: the snapshot and the advance value grow to the present uncommitted. -/
def State.enlargeCommit (s : State) (i : SlotId) : State :=
  let r := s.slot i
  let advance := r.committed + r.uncommitted
  let s := s.updCommit i fun c =>
    { c with flight := c.flight.map fun f => { f with snapshot := r.uncommitted, advance := advance } }
  s.updLane (laneOf i) fun lane => { lane with queue := lane.queue.map (·.enlarged i advance) }

/-- R106: what a trigger leaves in the again flag of a commit in SENT or CHECKING. -/
def Again.after (a : Again) (forced : Bool) : Again :=
  if forced then .forced else match a with
    | .clear => .step
    | x => x

/-- What a trigger does, by the phase (R103, R105, R106). -/
def State.actTrigger (s : State) (i : SlotId) (forced : Bool) : State :=
  match (s.commit i).flight with
  | none => s.takeCommit i
  | some f =>
    if f.phase = .waiting then s.enlargeCommit i
    else if (s.slot i).uncommitted = f.snapshot then s
    else s.updCommit i fun c => { c with again := c.again.after forced }

/-- A forced trigger (Table 6-2). -/
def State.forcedTrigger (s : State) (i : SlotId) : State :=
  if s.triggerActs i then s.actTrigger i true else s

/-- The step trigger's test (R104). -/
def State.stepTrigger (s : State) (i : SlotId) : State :=
  if s.triggerActs i ∧ s.stepHolds i then s.actTrigger i false else s

/-- R114: a COMMIT entry still WAITING is withdrawn; phase NONE, again CLEAR. -/
def State.withdrawCommit (s : State) (i : SlotId) : State :=
  match (s.commit i).flight with
  | some f =>
    if f.phase = .waiting then
      (s.dropEntries i (· = .commit)).updCommit i fun c => { c with flight := none, again := .clear }
    else s
  | none => s

/-- R102: at completion the snapshot, the advance value and the nonce become absent and the phase returns to NONE. -/
def State.landed (s : State) (i : SlotId) : State :=
  s.updCommit i fun c => { c with flight := none }

/-- R113: the again flag is read and set to CLEAR, and may take a new commit. -/
def State.actAgain (s : State) (i : SlotId) : State :=
  let again := (s.commit i).again
  let s := s.updCommit i fun c => { c with again := .clear }
  match again with
  | .clear => s
  | .step => s.stepTrigger i
  | .forced => s.forcedTrigger i

/-- The phase as Table 6-1 names it. -/
def CommitState.phase (c : CommitState) : CommitPhase :=
  match c.flight with
  | none => .none
  | some f => match f.phase with
    | .waiting => .waiting
    | .sent => .sent
    | .checking => .checking

/-- The advance value of the commit in flight; 0 with none. -/
def CommitState.advance (c : CommitState) : Nat :=
  match c.flight with
  | some f => f.advance
  | none => 0

/-- The doubtful value takes an advance value that is higher than the one held, or when none is held (R110, R112). -/
def raisedDoubt (held : Option Nat) (advance : Nat) : Option Nat :=
  match held with
  | none => some advance
  | some d => some (max d advance)

end Sys2Proof.Machine
end

