-- ==== Sys2Proof/Machine/EngineOps.lean ====
section
/-! DEFINITION. The Digest Engine's shared operations: jobs joining the queue and starting (R50, R56), held lanes
(R34, R56), withdrawal (R57), the digests (R51 to R53), and the ways a lane's work is called off (R11, R21, R29). -/

namespace Sys2Proof.Machine

/-- R107: when the receipt's job joins the engine's queue, the phase becomes CHECKING. -/
def State.commitChecking (s : State) (j : Job) : State :=
  match j.work with
  | .verifyReceipt _ =>
    s.updCommit j.slot fun c => { c with flight := c.flight.map fun f => { f with phase := .checking } }
  | .verifyChallenge .. => s

/-- R50: a job that joins while the engine is IDLE starts at once. -/
def Engine.join (e : Engine) (j : Job) : Engine :=
  match e.running with
  | none => { e with running := some ⟨j, false⟩ }
  | some _ => { e with queue := e.queue ++ [j] }

def State.joinEngine (s : State) (j : Job) : State :=
  (s.updEngine fun e => e.join j).commitChecking j

/-- R34, R56: a lane offers a job. With room the job joins, the transaction ends and the lane returns to IDLE;
otherwise the lane enters HELD with the job at the end of the held-lane list. -/
def State.offerJob (s : State) (l : LaneId) (j : Job) : State :=
  if s.engine.queue.length < Config.engineCapacity then (s.joinEngine j).laneFree l
  else
    (s.updLane l fun lane => { lane with state := .held j }).updEngine fun e =>
      { e with heldLanes := e.heldLanes ++ [l] }

/-- R56: a place in the queue has fallen free; the lane at the head of the held-lane list places its job and returns
to IDLE. -/
def State.placeFreed (s : State) : State :=
  match s.engine.heldLanes with
  | [] => s
  | l :: rest =>
    match (s.lane l).state with
    | .held j => ((s.updEngine fun e => { e with heldLanes := rest }).joinEngine j).laneFree l
    | _ => s.updEngine fun e => { e with heldLanes := rest }

/-- R50: the oldest job of the queue starts, and its place falls free; with none the engine returns to IDLE. -/
def State.startNextJob (s : State) : State :=
  match s.engine.queue with
  | [] => s.updEngine fun e => { e with running := none }
  | j :: rest => (s.updEngine fun e => { e with running := some ⟨j, false⟩, queue := rest }).placeFreed

/-- Which jobs of a slot a calling off concerns: all at a removal, VERIFY_CHALLENGE at an abandonment (R57). -/
def JobWork.concerned (w : JobWork) (all : Bool) : Bool :=
  all || match w with
    | .verifyChallenge .. => true
    | .verifyReceipt _ => false

/-- R57: a queued job of the slot is withdrawn, which frees a place; one in progress is marked discarded. -/
def State.withdrawJobs (s : State) (i : SlotId) (all : Bool) : State :=
  let gone (j : Job) : Bool := j.slot = i && j.work.concerned all
  let hadQueued := s.engine.queue.any gone
  let s := s.updEngine fun e =>
    { e with
      queue := e.queue.filter fun j => !gone j
      running := e.running.map fun r => if gone r.job then { r with discarded := true } else r }
  if hadQueued then s.placeFreed else s

/-- R29, R57: a job of the slot held by its lane is dropped, the lane leaves the held-lane list and returns to IDLE. -/
def State.dropHeld (s : State) (i : SlotId) (all : Bool) : State :=
  let l := laneOf i
  match (s.lane l).state with
  | .held j =>
    if j.slot = i ∧ j.work.concerned all then
      (s.updEngine fun e => { e with heldLanes := e.heldLanes.filter (· ≠ l) }).laneFree l
    else s
  | _ => s

/-! ## The comparison (R51 to R53) -/

/-- The fields of the tag digest, in their order: R52 for a challenge, R53 for a receipt. -/
def Job.fields (j : Job) : List Nat :=
  match j.work with
  | .verifyChallenge g t => [j.nonce.toNat, j.serial.toNat, g, t, j.makerLot.toNat]
  | .verifyReceipt v => [j.serial.toNat, v, j.nonce.toNat]

/-- The value the engine computes under the job's derived cartridge key (R51). -/
def Job.computed (j : Job) (root : Word128) : Word64 :=
  Config.tagDigest (Config.cartridgeKey root j.serial j.makerLot) j.fields

/-- R52, R53: a match when the computed value equals the job's tag value. The root key is present whenever a job
starts (R51); without one there is no match. -/
def State.jobMatches (s : State) (j : Job) : Bool :=
  match s.keys.state with
  | .provisioned root => j.computed root == j.tagValue
  | _ => false

/-! ## Calling off a slot's lane work -/

/-- R29, abandonment: a DESCRIBE or CHALLENGE of the slot in ON_WIRE runs on, its outcome to be discarded. -/
def State.abandonTransaction (s : State) (i : SlotId) : State :=
  s.updLane (laneOf i) fun lane =>
    match lane.state with
    | .onWire t =>
      if t.entry.slot = i ∧ t.entry.laneClass = .admission then { lane with state := .onWire { t with abandoned := true } }
      else lane
    | _ => lane

/-- The first five items of R11's list, in their order: the work of the slot's admission is called off. -/
def State.abandonAdmission (s : State) (i : SlotId) : State :=
  ((((s.dropEntries i (· = .admission)).abandonTransaction i).withdrawJobs i false).dropHeld i false).dropAdmissionReason i

/-- The slot's pass-throughs that end ABORTED at a removal: the one in flight, then the queued ones (R21, R45; log entry
29). -/
def State.passEntries (s : State) (i : SlotId) : List LaneEntry :=
  let lane := s.lane (laneOf i)
  let inFlight := match lane.state with
    | .onWire t => [t.entry]
    | _ => []
  (inFlight ++ lane.queue).filter fun e => e.slot = i ∧ e.laneClass = .pass

/-- R29: a transaction of the slot in ON_WIRE is aborted; nothing is handed over and the lane returns to IDLE. -/
def State.abortTransaction (s : State) (i : SlotId) : State :=
  match (s.lane (laneOf i)).state with
  | .onWire t => if t.entry.slot = i then s.laneFree (laneOf i) else s
  | _ => s

/-- The bus's and the engine's part of a removal (R21, first two items; R57). -/
def State.removeWork (s : State) (i : SlotId) : State :=
  let aborted := s.passEntries i
  let s := s.dropEntries i fun _ => true
  let s := aborted.foldl (fun s e => s.passDone e .aborted) s
  let s := ((s.abortTransaction i).dropHeld i true).withdrawJobs i true
  { s with bus := { s.bus with wanted := modifyAt s.bus.wanted i fun _ => noMarks } }

end Sys2Proof.Machine
end

