-- ==== Sys2Proof/Machine/Reservations.lean ====
section
/-! DEFINITION. The Reservation Unit's shared operations: outstanding and available (section 8.1), ids (R139), the grant
test (R141), the clear test (R142), the head test (R143, R144), the draw (R148, R149) and a leaving (R145, R146). -/

namespace Sys2Proof.Machine

/-- Granted: no wait timer (Table 8-1: the timer is present in WAITING only). -/
def Reservation.isGranted (r : Reservation) : Bool := r.wait.isNone

/-- R138: the state follows the drawn amount and whether it has been granted (Table 8-2). -/
def Reservation.state (r : Reservation) : ReservationState :=
  if !r.isGranted then .waiting
  else if r.size ≤ r.drawn then .filled
  else if r.drawn = 0 then .opened
  else .drawing

def Reservation.isDrawing (r : Reservation) : Bool := r.state = .drawing

def Channel.granted (ch : Channel) : List Reservation := ch.reservations.filter (·.isGranted)

def Channel.waiting (ch : Channel) : List Reservation := ch.reservations.filter fun r => !r.isGranted

/-- The sum of size − drawn over the granted reservations. -/
def Channel.outstanding (ch : Channel) : Nat := (ch.granted.map fun r => r.size - r.drawn).sum

/-- A channel holds a reservation in DRAWING (R129, R130). -/
def Channel.hasDrawing (ch : Channel) : Bool := ch.reservations.any (·.isDrawing)

/-- The slots of a pair, primary first. -/
def SupplyPair.slots (p : SupplyPair) : List SlotId :=
  p.primary :: p.alternate.toList

def Channel.pairSlots (ch : Channel) : List SlotId :=
  match ch.pair with
  | some p => p.slots
  | none => []

/-- What a slot counts towards availability: its remaining estimate in READY or SERVING, otherwise nothing (R141). -/
def SlotRecord.counted (r : SlotRecord) : Nat :=
  if r.state = .ready ∨ r.state = .serving then r.remaining else 0

/-- Section 8.1: the counted remaining estimates of the pair, less outstanding, not below 0. -/
def State.available (s : State) (c : ChannelId) : Nat :=
  (((s.channel c).pairSlots.map fun i => (s.slot i).counted).sum) - (s.channel c).outstanding

/-! ## The grant test (R141) -/

/-- The ceiling test: outstanding plus the size is at or below the upper threshold. -/
def Channel.underCeiling (ch : Channel) (size : Nat) : Bool :=
  ch.outstanding + size ≤ ch.settings.upperThreshold

/-- All of R141's conditions. -/
def State.grantPasses (s : State) (c : ChannelId) (size : Nat) : Bool :=
  let ch := s.channel c
  (ch.state = .supplied || ch.state = .switching) && !ch.stall && ch.granted.length < Config.openCapacity &&
    size ≤ s.available c && ch.underCeiling size

/-- R141: a failing ceiling test sets the stall flag; with the flag set the test is not made. -/
def State.grantTested (s : State) (c : ChannelId) (size : Nat) : State :=
  s.updChannel c fun ch => { ch with stall := ch.stall || !ch.underCeiling size }

/-- R142: the stall flag clears when outstanding is at or below the lower threshold. -/
def State.clearTest (s : State) (c : ChannelId) : State :=
  s.updChannel c fun ch =>
    if ch.outstanding ≤ ch.settings.lowerThreshold then { ch with stall := false } else ch

/-- R144: the reservation is granted where it stands, which is the end of the granted part when it is the head. -/
def grantFirst : List Reservation → List Reservation
  | [] => []
  | r :: rest => if r.isGranted then r :: grantFirst rest else { r with wait := none } :: rest

/-- How long a reservation has waited on the model's clock (log entry 1). -/
def Reservation.waited (r : Reservation) (now : Nat) : Nat :=
  match r.wait with
  | some w => now - w.startedAt
  | none => 0

/-- R143, R144: the head of the waiting list is tested, and granted while it passes. -/
def State.headTestN : Nat → State → ChannelId → State
  | 0, s, _ => s
  | n + 1, s, c =>
    match (s.channel c).waiting with
    | [] => s
    | r :: _ =>
      if s.grantPasses c r.size then
        let s := s.updChannel c fun ch =>
          { ch with reservations := grantFirst ch.reservations, unreservedDraw := false }
        let s := s.raise (.reservationGranted c r.id r.size (r.waited s.clockMs) (s.channel c).outstanding)
        State.headTestN n s c
      else s.grantTested c r.size

def State.headTest (s : State) (c : ChannelId) : State :=
  State.headTestN ((s.channel c).waiting.length) s c

/-! ## The draw (R148, R149) -/

/-- R148: the granted reservations take, oldest first, what they still lack; what is left is the unreserved part. -/
def drawFrom : Nat → List Reservation → List Reservation × Nat
  | amount, [] => ([], amount)
  | amount, r :: rest =>
    if r.isGranted then
      let part := min amount (r.size - r.drawn)
      let (rest', left) := drawFrom (amount - part) rest
      ({ r with drawn := r.drawn + part } :: rest', left)
    else
      let (rest', left) := drawFrom amount rest
      (r :: rest', left)

/-- R149: an unreserved part sets UNRESERVED_DRAW while reservations are on, and raises its notice when it was clear. -/
def State.unreserved (s : State) (c : ChannelId) (part : Nat) : State :=
  let s := s.updVolume c fun v => { v with unreservedDraw := satAdd Config.max48 v.unreservedDraw part }
  let ch := s.channel c
  if part = 0 ∨ ch.settings.upperThreshold = 0 ∨ ch.unreservedDraw = true then s
  else
    (s.updChannel c fun ch => { ch with unreservedDraw := true }).raise
      (.unreservedDraw c part ch.volume.unreservedDraw)

/-- R148: the draw rule, with the clear test and the head test at its end. -/
def State.draw (s : State) (c : ChannelId) (amount : Nat) : State :=
  let (list, left) := drawFrom amount (s.channel c).reservations
  let s := s.updChannel c fun ch => { ch with reservations := list }
  ((s.unreserved c left).clearTest c).headTest c

/-! ## Ids and leaving -/

/-- R139: the id after the last issued, skipping those held. -/
def Channel.nextId (ch : Channel) : Nat := nextNumber 255 (ch.reservations.map (·.id)) ch.lastId

def Channel.findReservation (ch : Channel) (id : Nat) : Option Reservation :=
  ch.reservations.find? (·.id = id)

/-- A reservation leaves the list, which closes up behind it (R138). -/
def State.leaveList (s : State) (c : ChannelId) (id : Nat) : State :=
  s.updChannel c fun ch => { ch with reservations := ch.reservations.filter (·.id ≠ id) }

end Sys2Proof.Machine
end

