-- ==== Sys2Proof/Machine/Channels.lean ====
section
/-! DEFINITION. The Channel Controller's shared operations: selection (R128), the planned switch (R129 to R131),
immediate failover (R132), split marking (R133), and the ways a slot leaves READY or SERVING (R13, R20, R90, R114). -/

namespace Sys2Proof.Machine

/-- CHANNEL_CHANGED from one record of a channel to the next (R135). -/
def channelMove (cause : ChannelCause) (before after : Channel) (reason : Option LeaveReason) : ChannelMove :=
  ⟨cause, before.state, after.state, before.serving, after.serving, after.target, reason⟩

/-- The other slot of a channel's pair. -/
def Channel.otherSlot (ch : Channel) (i : SlotId) : Option SlotId :=
  ch.pairSlots.find? (· ≠ i)

/-- R128: in READY with a remaining estimate above 0 (the slot is one of the channel's pair). -/
def State.qualifies (s : State) (i : SlotId) : Bool :=
  (s.slot i).state = .ready && 0 < (s.slot i).remaining

/-- The channel draws from a slot: SUPPLIED on it, PERMIT high, no switch target (R127, R128, R132). -/
def Channel.supplied (ch : Channel) (i : SlotId) : Channel :=
  { ch with state := .supplied, serving := some i, target := none, permit := true }

/-- The channel has nothing to draw from: UNSUPPLIED, PERMIT low (R127, R132). -/
def Channel.unsupplied (ch : Channel) : Channel :=
  { ch with state := .unsupplied, serving := none, target := none, permit := false }

/-- The Slot Manager moves a slot from READY to SERVING, with SLOT_CHANGED. -/
def State.toServing (s : State) (i : SlotId) : State :=
  s.moveSlot i fun r => { r with state := .serving }

/-- The Slot Manager moves a slot from SERVING to READY, with SLOT_CHANGED: a forced commit trigger (R103). -/
def State.toReady (s : State) (i : SlotId) : State :=
  (s.moveSlot i fun r => { r with state := .ready }).forcedTrigger i

/-! ## Split marking (R133) -/

/-- Each reservation in DRAWING has its split flag set. -/
def markSplit (l : List Reservation) : List Reservation :=
  l.map fun r => if r.isDrawing then { r with split := true } else r

/-- R133: marking, RESERVATION_SPLIT for each reservation marked, and SPLIT_LAST. -/
def State.applySplit (s : State) (c : ChannelId) (drewFrom drawsFrom : Option SlotId) : State :=
  let marked := (s.channel c).reservations.filter (·.isDrawing)
  let s := s.updChannel c fun ch =>
    { ch with reservations := markSplit ch.reservations, splitLast := !marked.isEmpty }
  marked.foldl (fun s r => s.raise (.reservationSplit c r.id r.size r.drawn drewFrom drawsFrom)) s

/-! ## The planned switch (R129, R130, R131) -/

/-- R130: the switch completes, in its order. -/
def State.completeSwitch (s : State) (c : ChannelId) (old new : SlotId) : State :=
  let before := s.channel c
  let s := (s.toReady old).toServing new
  let s := s.updChannel c fun ch => { ch.supplied new with splitLast := false }
  let s := s.raise (.channelChanged c (channelMove .switchDone before (s.channel c) none))
  s.headTest c

/-- R130: the completion test of a channel in SWITCHING. -/
def State.completionTest (s : State) (c : ChannelId) : State :=
  let ch := s.channel c
  match ch.state, ch.serving, ch.target with
  | .switching, some old, some new => if ch.hasDrawing then s else s.completeSwitch c old new
  | _, _, _ => s

/-- R129's condition for a channel in SUPPLIED: the serving slot at or below the switch level and the other slot READY
above it; the other slot. -/
def State.switchWanted (s : State) (c : ChannelId) : Option SlotId :=
  let ch := s.channel c
  match ch.state, ch.serving with
  | .supplied, some i =>
    match ch.otherSlot i with
    | some j =>
      if (s.slot i).perMille ≤ ch.settings.switchLevel ∧ (s.slot j).state = .ready ∧
          ch.settings.switchLevel < (s.slot j).perMille then some j
      else none
    | none => none
  | _, _ => none

/-- R129: the planned-switch condition is tested; when it holds the channel enters SWITCHING, SWITCH_BEGIN is raised
and the completion test is made. -/
def State.plannedSwitch (s : State) (c : ChannelId) : State :=
  match s.switchWanted c with
  | some j =>
    let before := s.channel c
    let s := s.updChannel c fun ch => { ch with state := .switching, target := some j }
    let s := s.raise (.channelChanged c (channelMove .switchBegin before (s.channel c) none))
    s.completionTest c
  | none => s

/-- R131: the channel returns to SUPPLIED on its serving slot. -/
def State.cancelSwitch (s : State) (c : ChannelId) : State :=
  let before := s.channel c
  let s := s.updChannel c fun ch => { ch with state := .supplied, target := none }
  let s := s.raise (.channelChanged c (channelMove .switchCancelled before (s.channel c) none))
  s.headTest c

/-- R131, first event: the switch target is no longer READY. -/
def State.targetTest (s : State) (c : ChannelId) : State :=
  let ch := s.channel c
  match ch.state, ch.target with
  | .switching, some j => if (s.slot j).state = .ready then s else s.cancelSwitch c
  | _, _ => s

/-- R131, second event: a changed switch level no longer has the serving slot at or below it and the target above. -/
def State.levelCancelTest (s : State) (c : ChannelId) : State :=
  let ch := s.channel c
  match ch.state, ch.serving, ch.target with
  | .switching, some i, some j =>
    if (s.slot j).perMille ≤ ch.settings.switchLevel ∨ ch.settings.switchLevel < (s.slot i).perMille then
      s.cancelSwitch c
    else s
  | _, _, _ => s

/-! ## Selection (R128) -/

/-- The slot selected for a channel: the primary when it qualifies, otherwise the alternate when it does. -/
def State.selectionChoice (s : State) (c : ChannelId) : Option SlotId :=
  (s.channel c).pairSlots.find? fun i => s.qualifies i

/-- R128: the selection test of a channel in UNSUPPLIED, in its order. -/
def State.select (s : State) (c : ChannelId) : State :=
  if (s.channel c).state = .unsupplied then
    match s.selectionChoice c with
    | some i =>
      let before := s.channel c
      let s := s.toServing i
      let s := s.updChannel c fun ch => ch.supplied i
      let s := s.applySplit c none (some i)
      let s := s.raise (.channelChanged c (channelMove .select before (s.channel c) none))
      (s.headTest c).plannedSwitch c
    | none => s
  else s

/-- A slot of a pair has entered READY (R19, R128, R129, R151): it is offered for selection, the planned-switch
condition is tested, and the head test is made. -/
def State.offerReady (s : State) (i : SlotId) : State :=
  match (s.slot i).channel with
  | some c => ((s.select c).plannedSwitch c).headTest c
  | none => s

/-! ## Failover (R132) -/

/-- R132: the other slot of the pair, when it qualifies. -/
def State.standIn (s : State) (c : ChannelId) (old : SlotId) : Option SlotId :=
  ((s.channel c).otherSlot old).filter fun j => s.qualifies j

/-- R132: the channel draws from a slot, which enters SERVING, or has nothing to draw from. -/
def State.drawNext (s : State) (c : ChannelId) : Option SlotId → State
  | some j => (s.toServing j).updChannel c fun ch => ch.supplied j
  | none => s.updChannel c fun ch => ch.unsupplied

/-- R132: failover of a channel whose serving slot `old` has left, in its order. -/
def State.failover (s : State) (c : ChannelId) (old : SlotId) (reason : LeaveReason) : State :=
  let before := s.channel c
  let pick := s.standIn c old
  let s := (s.drawNext c pick).applySplit c (some old) pick
  let s := s.raise (.channelChanged c (channelMove .failover before (s.channel c) (some reason)))
  (s.headTest c).plannedSwitch c

/-- A slot has left SERVING (for SPENT, REJECTED or FAULTED) or READY: the channel it serves fails over, a channel that
was switching to it stays on its slot (R131, R132). -/
def State.slotLeft (s : State) (i : SlotId) (reason : LeaveReason) : State :=
  match (s.slot i).channel with
  | some c => if (s.channel c).serving = some i then s.failover c i reason else s.targetTest c
  | none => s

/-! ## Rejection and fault -/

/-- A slot goes REJECTED, and a commit still WAITING is withdrawn (R3, R6, R114). The channel's part follows. -/
def State.rejectSlot (s : State) (i : SlotId) (why : RejectReason) : State :=
  (s.moveSlot i fun r => { r with state := .rejected, rejectReason := some why }).withdrawCommit i

/-- A slot goes FAULTED, and a commit still WAITING is withdrawn (R3, R6, R114). -/
def State.faultSlot (s : State) (i : SlotId) (why : FaultReason) : State :=
  (s.moveSlot i fun r => { r with state := .faulted, faultReason := some why }).withdrawCommit i

/-- The states in which the ink code test is made (R13). -/
def SlotState.inkTested : SlotState → Bool
  | .verifying | .sensing | .ready | .serving | .spent => true
  | _ => false

/-- R13's test: the slot must carry its channel's ink code. -/
def State.inkDiffers (s : State) (i : SlotId) : Bool :=
  match (s.slot i).channel, (s.slot i).description with
  | some c, some d => (s.slot i).state.inkTested && d.inkCode ≠ (s.channel c).settings.inkCode
  | _, _ => false

/-- R13: a slot whose ink code differs goes REJECTED, WRONG_INK. An admission step in progress is called off before the
slot moves (log entry 46). -/
def State.inkTest (s : State) (i : SlotId) : State :=
  if s.inkDiffers i then
    let s := if (s.slot i).state.inAdmission then s.abandonAdmission i else s
    s.rejectSlot i .wrongInk
  else s

/-! ## Bands (R93, R94) -/

/-- Table 5-6, in its order. -/
def bandOf (remaining perMille : Nat) (settings : ChannelSettings) : Band :=
  if remaining = 0 then .empty
  else if perMille ≤ settings.veryLowLevel then .veryLow
  else if perMille ≤ settings.lowLevel then .low
  else .normal

/-- The band with the levels of the channel named by the slot's channel field (R93); a slot that has left every pair
keeps the band it holds (R94). -/
def State.bandNow (s : State) (i : SlotId) : Band :=
  match (s.slot i).channel with
  | some c => bandOf (s.slot i).remaining (s.slot i).perMille (s.channel c).settings
  | none => (s.slot i).band

/-- A forming after the first: a band that differs raises LEVEL_BAND; a slot in no pair forms none (R94). -/
def State.formBand (s : State) (i : SlotId) : State :=
  let r := s.slot i
  match r.channel with
  | some c =>
    let new := bandOf r.remaining r.perMille (s.channel c).settings
    let s := s.updSlot i fun r => { r with band := new }
    if new = r.band then s else s.raise (.levelBand i c r.band new r.perMille r.remaining)
  | none => s

/-! ## Going SPENT (R90) -/

/-- R90: the slot goes SPENT, the commit trigger acts (R103), MARK(SPENT) is asked for when the description's tag state
is not SPENT (R20), and the channel fails over. The order of the commit, the mark and the failover is log entry 47's. -/
def State.slotSpent (s : State) (i : SlotId) : State :=
  (((s.moveSlot i fun r => { r with state := .spent }).forcedTrigger i).requestMark i .spent).slotLeft i .spent

end Sys2Proof.Machine
end

