-- ==== Sys2Proof/Machine/Flags.lean ====
section
/-! DEFINITION. The flags the part reports and how each is formed: TALLY_UNCERTAIN as a slot shows it (R4, R74), the
flow ceiling (R96 to R98), and the tests of the window check (R167 to R169). -/

namespace Sys2Proof.Machine

/-- TALLY_UNCERTAIN as a slot shows it: its channel's flag while it is SERVING, clear otherwise (R4). -/
def State.slotTallyUncertain (s : State) (i : SlotId) : Bool :=
  match (s.slot i).state, (s.slot i).channel with
  | .serving, some c => (s.channel c).tallyUncertain
  | _, _ => false

/-- The channels a gap marks: those not IDLE (R74), by rising number (log entry 51). -/
def State.channelsInUse (s : State) : List ChannelId :=
  (List.finRange 8).filter fun c => (s.channel c).state ≠ .idle

/-- R74: the flag of each channel in use is set. -/
def State.markUncertain (s : State) : State :=
  { s with channels := s.channels.map fun ch =>
      if ch.state = .idle then ch else { ch with tallyUncertain := true } }

/-! ## The flow monitor (R95 to R98) -/

/-- R96, its first, second and last step, with the length then set. -/
def Volume.closeWindow (v : Volume) (nextLength : Nat) : Volume :=
  { v with
    lastWindowFlow := min Config.max48 v.windowSum
    lastWindowLength := some v.windowLength
    peakFlow := if v.peakArmed ∧ v.peakFlow < v.windowSum then min Config.max48 v.windowSum else v.peakFlow
    windowSum := 0
    windowLength := nextLength }

/-- R98: whether FLOW_EXCESS holds after a window of the given flow. -/
def flowExceeds (flow ceiling : Nat) : Bool := ceiling ≠ 0 && ceiling < flow

/-! ## The window check (R167 to R169) -/

/-- R168: the deviation is below the negative of the deficit tolerance. -/
def readsLow (sensed expected tolerance : Nat) : Bool := sensed + tolerance < expected

/-- R169: the deviation is greater than the refill tolerance. -/
def readsHigh (sensed expected tolerance : Nat) : Bool := expected + tolerance < sensed

/-- R168: the deficit count after a check. -/
def deficitAfter (low : Bool) (persistence count : Nat) : Nat :=
  if low then min persistence (count + 1) else 0

/-- R169: the rise count after a check, before a detection is handed over. -/
def riseAfter (high : Bool) (count : Nat) : Nat := if high then count + 1 else 0

end Sys2Proof.Machine
end

