-- ==== Sys2Proof/Machine/Admission.lean ====
section
/-! DEFINITION. Admission: its start (R10, R14), the DESCRIBE checks (R15), step 3 (R60, R17), reconciliation (R175 to
R178), the admission verdict (R179, R180, R19) and the in-service detection (R181, R182). -/

namespace Sys2Proof.Machine

/-! ## Steps 1 and 2 -/

/-- R14: the slot enters READING and a DESCRIBE is queued for it. -/
def State.enterReading (s : State) (i : SlotId) : State :=
  (s.moveSlot i fun r => { r with state := .reading }).enqueue ⟨i, .describe, none⟩

/-- R10, R17: the slot enters SEATING, and READING at once when its channel field names a channel. -/
def State.seat (s : State) (i : SlotId) (f : SlotRecord → SlotRecord) : State :=
  let s := s.moveSlot i fun r => { f r with state := .seating }
  if (s.slot i).channel.isSome then s.enterReading i else s

/-- R15, check 1. -/
def Description.badIdentity (d : Description) : Bool :=
  d.inkCode = 0 || d.inkCode = 255 || d.nominalFill < Config.nominalMin || Config.nominalMax < d.nominalFill ||
    Config.tagOdometerMax < d.odometerAtRead

/-- R15, check 2: another slot that is not VACANT holds a description with the same serial. -/
def State.serialElsewhere (s : State) (i : SlotId) (serial : Word64) : Bool :=
  (List.finRange 16).any fun j => j ≠ i && (s.slot j).seats serial

/-- R15, check 3: the ink code differs from the one of the slot's channel. -/
def State.wrongInk (s : State) (i : SlotId) (inkCode : Nat) : Bool :=
  match (s.slot i).channel with
  | some c => inkCode ≠ (s.channel c).settings.inkCode
  | none => false

/-- R15, check 4: the History Table holds a BARRED entry for the serial. -/
def State.barredSerial (s : State) (serial : Word64) : Bool :=
  match s.findEntry serial with
  | some p => match s.place p with
    | some e => e.barred
    | none => false
  | none => false

/-- Table 1-7: the first check that fails. -/
def State.describeCheck (s : State) (i : SlotId) (d : Description) : Option RejectReason :=
  if d.badIdentity then some .badIdentity
  else if s.serialElsewhere i d.serial then some .badIdentity
  else if s.wrongInk i d.inkCode then some .wrongInk
  else if s.barredSerial d.serial then some .barred
  else none

/-! ## Step 3 -/

/-- R60: step 3 starts with a request for a nonce. With a root key a CHALLENGE is queued; without one the slot goes
REJECTED, AUTH_UNAVAILABLE. -/
def State.requestChallenge (s : State) (i : SlotId) : State :=
  match s.keys.state with
  | .provisioned _ => (s.nonceDrawn).enqueue ⟨i, .challenge s.nextNonce, none⟩
  | _ => s.rejectSlot i .authUnavailable

/-- R15: a DESCRIBE reply of a slot in READING is stored and checked. -/
def State.describeReply (s : State) (i : SlotId) (d : Description) : State :=
  if (s.slot i).state = .reading then
    let s := s.updSlot i fun r => { r with description := some d }
    match s.describeCheck i d with
    | some why => s.rejectSlot i why
    | none => (s.moveSlot i fun r => { r with state := .verifying }).requestChallenge i
  else s

/-- R16: a failed DESCRIBE or CHALLENGE faults the slot. -/
def State.admissionFailed (s : State) (i : SlotId) (why : FaultReason) : State :=
  if (s.slot i).state = .reading ∨ (s.slot i).state = .verifying then s.faultSlot i why else s

/-! ## Step 4: reconciliation -/

/-- R178: a rollback. -/
def State.rollback (s : State) (i : SlotId) (d : Description) (p : PlaceId) (e : HistoryEntry) : State :=
  let s := s.editEntry p (fun e => { e with barred := true }) true
  let s := s.rejectSlot i .rollback
  s.raise (.verdict i
    { serial := d.serial, occasion := .admission, outcome := .rollback, tests := none, levels := none
      senseUnchecked := false, policy := none
      rollback := some ⟨d.fillGeneration, d.odometerAtRead, e.fillGeneration, e.odometer⟩ })

/-- What reconciliation sets in the Slot Record (R18, R175 to R177), before the entry is written (log entry 24). -/
def State.setReconciled (s : State) (i : SlotId) (committed uncommitted : Nat) : State :=
  (s.updSlot i fun r =>
    { r with
      committed := committed
      uncommitted := uncommitted
      reconciled := true
      sensingStamp := s.joinStamps }).stampUsed

/-- R18, R19: the slot enters SENSING and its ADMISSION request is placed or held. -/
def State.enterSensing (s : State) (i : SlotId) : State :=
  (s.moveSlot i fun r => { r with state := .sensing }).requestAdmission i

/-- R176, R177: the entry of a cartridge that passes, with its stamp bumped as an admission (R173). -/
def State.entryPasses (s : State) (i : SlotId) (d : Description) (p : PlaceId) (uncommitted : Nat) : State :=
  let s := (s.setReconciled i d.odometerAtRead uncommitted).roomForStamp.stampTaken
  let s := s.editEntry p (fun e =>
    { e with
      inkCode := d.inkCode
      fillGeneration := d.fillGeneration
      odometer := d.odometerAtRead
      pendingCharge := nonzero uncommitted
      uncertain := none
      lastSlot := i
      stamp := s.history.recency }) false
  s.enterSensing i

/-- R175: a new entry is made, in an empty place or in one that an eviction frees. -/
def State.entryMade (s : State) (i : SlotId) (d : Description) (named : Option PlaceId) : State :=
  let (s, place) := match s.emptyPlace named with
    | some p => ({ s with freeDraws := s.freeDraws + 1 }, some p)
    | none => s.evict
  match place with
  | none => s
  | some p =>
    let s := (s.setReconciled i d.odometerAtRead 0).roomForStamp.stampTaken
    let s := s.writePlace p (some
      { serial := d.serial
        inkCode := d.inkCode
        fillGeneration := d.fillGeneration
        odometer := d.odometerAtRead
        pendingCharge := none
        uncertain := none
        barred := false
        refillSeen := false
        lastSlot := i
        stamp := s.history.recency }) false
    s.enterSensing i

/-- The outcomes of reconciliation against an entry (Table 10-2, its last five rows). -/
inductive Reconciled where
  | rollback
  | newFill
  | passed (uncommitted : Nat)
  deriving DecidableEq, Repr

/-- Table 10-2 against an entry. -/
def reconcileWith (d : Description) (e : HistoryEntry) : Reconciled :=
  let p := e.pendingCharge.getD 0
  let u := e.uncertain.getD 0
  if d.fillGeneration < e.fillGeneration then .rollback
  else if e.fillGeneration < d.fillGeneration then .newFill
  else if d.odometerAtRead < e.odometer then .rollback
  else if e.odometer + u ≤ d.odometerAtRead then .passed (p - u)
  else .passed p

/-- R175 to R178: reconciliation of a slot in VERIFYING. -/
def State.reconcile (s : State) (i : SlotId) (d : Description) (named : Option PlaceId) : State :=
  match s.findEntry d.serial with
  | none => s.entryMade i d named
  | some p =>
    match s.place p with
    | none => s
    | some e =>
      match reconcileWith d e with
      | .rollback => s.rollback i d p e
      | .newFill => (s.forfeit e.pendingCharge).entryPasses i d p 0
      | .passed uncommitted => s.entryPasses i d p uncommitted

/-- R17: the result of a VERIFY_CHALLENGE. -/
def State.challengeResult (s : State) (i : SlotId) (isMatch : Bool) (named : Option PlaceId) : State :=
  if (s.slot i).state = .verifying then
    if isMatch then
      match (s.slot i).description with
      | some d => s.reconcile i d named
      | none => s
    else s.rejectSlot i .authFailed
  else s

/-! ## Steps 5 and 6: the verdict -/

/-- The REFILL_SEEN flag of the entry of a slot's cartridge. -/
def State.refillSeen (s : State) (i : SlotId) : Bool :=
  match s.entryOf i with
  | some p => match s.place p with
    | some e => e.refillSeen
    | none => false
  | none => false

/-- REFILL_SEEN is set, and the entry placed on the store queue when the flag was clear (R180 to R182). -/
def State.setRefillSeen (s : State) (i : SlotId) : State :=
  if s.refillSeen i then s
  else match s.entryOf i with
    | some p => s.editEntry p (fun e => { e with refillSeen := true }) false
    | none => s

/-- R19: READY, or SPENT when the remaining estimate is 0 or the tag reports SPENT. -/
def SlotRecord.admittedState (r : SlotRecord) : SlotState :=
  if r.remaining = 0 ∨ r.shows .spent = true then .spent else .ready

/-- R19: the slot is admitted with a quality: its band formed without a notice (R4); the commit trigger of the admission
acts (R103, R104); MARK(SPENT), and then MARK(REFILL), is asked for; and a slot in READY is offered to its channel. The
order of the commit, the marks and the offer is log entry 47's. -/
def State.admitSlot (s : State) (i : SlotId) (q : Quality) : State :=
  let band := s.bandNow i
  let s := s.moveSlot i fun r => { r with state := r.admittedState, quality := some q, band := band }
  let s :=
    if (s.slot i).state = .spent then (s.forcedTrigger i).requestMark i .spent
    else s.stepTrigger i
  let s := if q = .refilled then s.requestMark i .refill else s
  if (s.slot i).state = .ready then s.offerReady i else s

/-- The tests of R179: the tag's mark, REFILL_SEEN, and the level against the expected level of that moment. -/
def State.refillTests (s : State) (i : SlotId) (sensed : Option Nat) (tolerance : Nat) : TestsHeld where
  tagMark := (s.slot i).shows .refill
  history := s.refillSeen i
  level := match sensed with
    | some l => readsHigh l (s.slot i).perMille tolerance
    | none => false

def TestsHeld.any (t : TestsHeld) : Bool := t.tagMark || t.history || t.level

/-- The serial of a slot's description. -/
def SlotRecord.serial (r : SlotRecord) : Word64 :=
  match r.description with
  | some d => d.serial
  | none => 0

/-- The fields of an admission VERDICT that is no rollback (section 10.3.1). -/
def State.admissionVerdict (s : State) (i : SlotId) (sensed : Option Nat) (outcome : VerdictOutcome)
    (tests : TestsHeld) (policy : RefillPolicy) : Verdict where
  serial := (s.slot i).serial
  occasion := .admission
  outcome := outcome
  tests := if outcome = .genuine then none else some tests
  levels := sensed.map fun l => ⟨l, (s.slot i).perMille⟩
  senseUnchecked := sensed.isNone
  policy := some policy
  rollback := none

/-- R179, R180: the verdict on an admission result, valid with its sensed level or faulted (none), acted on; VERDICT
comes last (log entry 16). -/
def State.admissionResult (s : State) (i : SlotId) (sensed : Option Nat) : State :=
  match (s.slot i).state, (s.slot i).channel with
  | .sensing, some c =>
    let settings := (s.channel c).settings
    let s := if sensed.isNone then s.updSlot i fun r => { r with senseUnchecked := true } else s
    let tests := s.refillTests i sensed settings.refillTolerance
    if tests.any then
      match settings.refillPolicy with
      | .warn =>
        let notice := Notice.verdict i (s.admissionVerdict i sensed .refilled tests .warn)
        ((s.setRefillSeen i).admitSlot i .refilled).raise notice
      | .reject =>
        let notice := Notice.verdict i (s.admissionVerdict i sensed .refillRejected tests .reject)
        (((s.setRefillSeen i).requestMark i .refill).rejectSlot i .refillRejected).raise notice
    else
      let notice := Notice.verdict i (s.admissionVerdict i sensed .genuine tests settings.refillPolicy)
      (s.admitSlot i .genuine).raise notice
  | _, _ => s

/-! ## In service -/

/-- The fields of an in-service VERDICT (R181, R182; log entry 38). -/
def State.serviceVerdict (s : State) (i : SlotId) (sensed expected : Nat) (outcome : VerdictOutcome)
    (policy : RefillPolicy) : Verdict where
  serial := (s.slot i).serial
  occasion := .inService
  outcome := outcome
  tests := some ⟨false, false, true⟩
  levels := some ⟨sensed, expected⟩
  senseUnchecked := false
  policy := some policy
  rollback := none

/-- R181, R182: an in-service refill detection. -/
def State.detection (s : State) (i : SlotId) (sensed expected : Nat) (policy : RefillPolicy) : State :=
  match policy with
  | .warn =>
    let s := s.updSlot i fun r => { r with quality := if r.quality = some .genuine then some .refilled else r.quality }
    let s := (s.setRefillSeen i).requestMark i .refill
    s.raise (.verdict i (s.serviceVerdict i sensed expected .refilled .warn))
  | .reject =>
    let s := (s.requestMark i .refill).setRefillSeen i
    let s := (s.rejectSlot i .refillRejected).slotLeft i .rejected
    s.raise (.verdict i (s.serviceVerdict i sensed expected .refillRejected .reject))

/-! ## The window check (R167 to R169) -/

/-- R167: when a check is made, and with which sensed level and channel. None is made while the scan is HALTED (R161; log
entry 48). -/
def State.checkable (s : State) (i : SlotId) : Option (ChannelId × Nat) :=
  match (s.slot i).channel, sensedLevel (s.slotSense i).ring with
  | some c, some l =>
    if s.sense.scan ≠ .halted ∧ (s.slot i).state.isAdmitted = true ∧ (s.slot i).sensorFault = false ∧
        s.sense.reference = .good then some (c, l)
    else none
  | _, _ => none

/-- R168: the deficit side of a check. -/
def State.deficitCheck (s : State) (i : SlotId) (c : ChannelId) (sensed : Nat) : State :=
  let settings := (s.channel c).settings
  let expected := (s.slot i).perMille
  let low := readsLow sensed expected settings.deficitTolerance
  let s := s.updSlotSense i fun u => { u with deficit := deficitAfter low settings.persistence u.deficit }
  if low then
    if (s.slotSense i).deficit = settings.persistence ∧ (s.slot i).levelDisagree = false then
      (s.updSlot i fun r => { r with levelDisagree := true }).raise
        (.levelDisagree i c sensed expected settings.deficitTolerance)
    else s
  else s.updSlot i fun r => { r with levelDisagree := false }

/-- R169: the rise side of a check. -/
def State.riseCheck (s : State) (i : SlotId) (c : ChannelId) (sensed : Nat) : State :=
  let settings := (s.channel c).settings
  let expected := (s.slot i).perMille
  let high := readsHigh sensed expected settings.refillTolerance
  let count := riseAfter high (s.slotSense i).rise
  if high && settings.persistence ≤ count then
    (s.updSlotSense i fun u => { u with rise := 0 }).detection i sensed expected settings.refillPolicy
  else s.updSlotSense i fun u => { u with rise := count }

/-- R167: the window check of a regular good sample. -/
def State.windowCheck (s : State) (i : SlotId) : State :=
  match s.checkable i with
  | some (c, sensed) =>
    let s := s.updSlot i fun r => { r with senseUnchecked := false }
    (s.deficitCheck i c sensed).riseCheck i c sensed
  | none => s

/-! ## What a conversion gives (R154, R159, R164, R166) -/

/-- R166, R159: four good levels of a run become the ring, and a run with reason HOST counts. -/
def State.runKept (s : State) (r : Run) (levels : List Nat) : State :=
  if levels.length = Config.runSamples then
    let s := s.updSlotSense r.request.slot fun u => { u with ring := levels }
    if r.request.reasons.host then s.countHostSense r.request.slot else s
  else s

/-- R166: the admission result of a run: valid with four good levels and a GOOD reference, otherwise faulted. -/
def State.runAdmits (s : State) (i : SlotId) (levels : List Nat) : State :=
  if levels.length = Config.runSamples then
    let s := s.updSlotSense i fun u => { u with rise := 0, deficit := 0 }
    s.admissionResult i (if s.sense.reference = .good then sensedLevel levels else none)
  else s.admissionResult i none

/-- R166, R159: the run is over; what its samples do. -/
def State.endRun (s : State) (r : Run) : State :=
  let levels := r.samples.filterMap id
  let s := (s.updSense fun u => { u with run := none }).runKept r levels
  if r.request.reasons.admission then s.runAdmits r.request.slot levels else s

/-- A sample of a run: gathered apart; the next conversion starts, or with the fourth the run ends (R159). -/
def State.runSample (s : State) (i : SlotId) (sample : Option Nat) : State :=
  match s.sense.run with
  | some r =>
    let r := { r with samples := r.samples ++ [sample] }
    if r.samples.length < Config.runSamples then
      (s.updSense fun u => { u with run := some r }).startConversion (.slot i) true
    else s.endRun r
  | none => s

/-- R164: a conversion of the reference. -/
def State.referenceSample (s : State) (raw : Nat) : State :=
  let was := s.sense.reference
  let now : ReferenceState := if referenceGood raw then .good else .bad
  let s := s.updSense fun u => { u with reference := now, lastReference := some raw }
  if now = .bad ∧ was ≠ .bad then s.raise (.sensorFault none raw) else s

/-- R154: a conversion completes with a raw code. -/
def State.conversionDone (s : State) (c : Conversion) (raw : Nat) : State :=
  let s := s.updSense fun u => { u with conversion := none }
  if c.discarded then s
  else match c.source with
    | .reference => s.referenceSample raw
    | .slot i =>
      let (s, sample) := s.takeSample i raw c.offset c.gain
      if c.ofRun then s.runSample i sample
      else match sample with
        | some level => (s.updSlotSense i fun u => { u with ring := pushRing u.ring level }).windowCheck i
        | none => s

end Sys2Proof.Machine
end

