-- ==== Sys2Proof/Machine/Outcomes.lean ====
section
/-! DEFINITION. What follows the end of a tag transaction and of a Digest Engine job: the commit outcomes (R108 to R113),
the handing over to the requester (R28 to R34) and the job's result (R50, R54). -/

namespace Sys2Proof.Machine

/-! ## Commit outcomes -/

/-- COMMIT_FAILED with the failure count and the state after the outcome (section 6.4.1; log entry 17). -/
def State.commitFailed (s : State) (i : SlotId) (cause : CommitCause) (advance : Nat) : State :=
  s.raise (.commitFailed i cause advance (s.commit i).failures (s.slot i).state)

/-- R108, R109: a match with the value sent. -/
def State.commitMatch (s : State) (i : SlotId) (f : Flight) : State :=
  let s := (s.landed i).updCommit i fun c => { c with failures := 0, doubtful := none }
  let s := s.updSlot i fun r =>
    { r with committed := f.advance, uncommitted := r.uncommitted - f.snapshot }
  let s := match s.entryOf i with
    | some p =>
      s.editEntry p (fun e =>
        { e with
          odometer := f.advance
          pendingCharge := nonzero (s.slot i).uncommitted
          uncertain := none }) false
    | none => s
  s.actAgain i

/-- BARRED is set in the cartridge's entry, placed urgent (R110, R178). -/
def State.barEntry (s : State) (i : SlotId) : State :=
  match s.entryOf i with
  | some p => s.editEntry p (fun e => { e with barred := true }) true
  | none => s

/-- R110: a receipt that does not match. -/
def State.commitMismatch (s : State) (i : SlotId) (f : Flight) : State :=
  let admitted := (s.slot i).state.isAdmitted
  let s := (s.landed i).updCommit i fun c => { c with doubtful := raisedDoubt c.doubtful f.advance }
  let s :=
    if admitted then (((s.rejectSlot i .receiptMismatch).barEntry i).slotLeft i .rejected)
    else s.barEntry i
  (s.commitFailed i .receiptMismatch f.advance).actAgain i

/-- R111: REFUSED_DECREASE. -/
def State.commitRefused (s : State) (i : SlotId) (f : Flight) : State :=
  let admitted := (s.slot i).state.isAdmitted
  let s := s.landed i
  let s := if admitted then (s.faultSlot i .odometerAhead).slotLeft i .faulted else s
  (s.commitFailed i .odometerAhead f.advance).actAgain i

/-- R112: a transaction failure. -/
def State.commitTransactionFailed (s : State) (i : SlotId) (f : Flight) (cause : CommitCause) : State :=
  let s := (s.landed i).updCommit i fun c =>
    { c with
      doubtful := raisedDoubt c.doubtful f.advance
      failures := min Config.commitFailures (c.failures + 1) }
  let s :=
    if (s.slot i).state.isAdmitted ∧ (s.commit i).failures = Config.commitFailures then
      (s.faultSlot i .commitFailed).slotLeft i .faulted
    else s
  (s.commitFailed i cause f.advance).actAgain i

/-! ## The end of a transaction -/

/-- A failure's reason (R26, R28). -/
inductive TagFailure where
  | noResponse
  | tagError (code : Byte)
  deriving DecidableEq, Repr

def TagFailure.faultReason : TagFailure → FaultReason
  | .noResponse => .noResponse
  | .tagError _ => .tagError

def TagFailure.commitCause : TagFailure → CommitCause
  | .noResponse => .noResponse
  | .tagError code => .tagError code

def TagFailure.passFailure : TagFailure → PassFailure
  | .noResponse => .noResponse
  | .tagError code => .tagError code

/-- What a usable reply carries (Table 2-2). -/
inductive UsableReply where
  | description (d : Description)
  | answer (w : Word64)
  | refusedDecrease
  | ack
  | data (bytes : List Byte)
  deriving DecidableEq, Repr

/-- The transaction's failure is handed to its requester (R16, R28, R32, R45, R112). -/
def State.handFailure (s : State) (e : LaneEntry) (why : TagFailure) : State :=
  match e.command with
  | .describe | .challenge _ => s.admissionFailed e.slot why.faultReason
  | .odoAdvance .. =>
    match (s.commit e.slot).flight with
    | some f => s.commitTransactionFailed e.slot f why.commitCause
    | none => s
  | .mark m => s.markEnded e.slot m
  | .memRead .. | .memWrite .. => s.passDone e (.failed why.passFailure)

/-- R28: a transaction fails; the reason is handed over, unless it was abandoned (R29), and the lane is free. -/
def State.transactionFailed (s : State) (l : LaneId) (t : Transaction) (why : TagFailure) : State :=
  (if t.abandoned then s else s.handFailure t.entry why).laneFree l

/-- The job that checks an answer or a receipt (Table 3-2), for a slot that holds a description. -/
def State.jobOf (s : State) (e : LaneEntry) (w : Word64) : Option Job :=
  match (s.slot e.slot).description, e.command with
  | some d, .challenge nonce =>
    some ⟨e.slot, d.serial, d.makerLot, nonce, w, .verifyChallenge d.fillGeneration d.odometerAtRead⟩
  | some d, .odoAdvance value _ nonce => some ⟨e.slot, d.serial, d.makerLot, nonce, w, .verifyReceipt value⟩
  | _, _ => none

/-- A reply that does not need the Digest Engine is handed to its requester (R28). -/
def State.handReply (s : State) (e : LaneEntry) (reply : UsableReply) : State :=
  match e.command, reply with
  | .describe, .description d => s.describeReply e.slot d
  | .odoAdvance .., .refusedDecrease =>
    match (s.commit e.slot).flight with
    | some f => s.commitRefused e.slot f
    | none => s
  | .mark m, .ack => (s.markWritten e.slot m).markEnded e.slot m
  | .memWrite .., .ack => s.passDone e (.ok none)
  | .memRead .., .data bytes => s.passDone e (.ok (some bytes))
  | _, _ => s

/-- The transaction ends with a usable reply (R28 to R34): the requester acts before the lane is free (log entry 23); an
abandoned one hands nothing over (R29, log entry 27). -/
def State.transactionDone (s : State) (l : LaneId) (t : Transaction) (reply : UsableReply) : State :=
  if t.abandoned then s.laneFree l
  else match reply with
    | .answer w =>
      match s.jobOf t.entry w with
      | some j => s.offerJob l j
      | none => s.laneFree l
    | _ => (s.handReply t.entry reply).laneFree l

/-! ## Attempts (R26, R27) -/

def State.setTransaction (s : State) (l : LaneId) (t : Transaction) : State :=
  s.updLane l fun lane => { lane with state := .onWire t }

/-- R26: an attempt fails; the command is resent, or with the third the transaction ends, NO_RESPONSE. -/
def State.attemptFailed (s : State) (l : LaneId) (t : Transaction) : State :=
  if t.failedAttempts + 1 < Config.attempts then
    s.setTransaction l { t with failedAttempts := t.failedAttempts + 1, phase := .replyWait }
  else s.transactionFailed l t .noResponse

/-- R27: a BUSY reply starts a hold-off; the ninth ends the transaction, NO_RESPONSE. -/
def State.busyReply (s : State) (l : LaneId) (t : Transaction) : State :=
  if t.busyReplies < Config.busyTolerated then
    s.setTransaction l { t with busyReplies := t.busyReplies + 1, phase := .busyHoldOff }
  else s.transactionFailed l t .noResponse

/-! ## The end of a job -/

/-- R54: a result is handed to the job's requester. -/
def State.handResult (s : State) (j : Job) (isMatch : Bool) (place : Option PlaceId) : State :=
  match j.work with
  | .verifyChallenge .. => s.challengeResult j.slot isMatch place
  | .verifyReceipt _ =>
    match (s.commit j.slot).flight with
    | some f => if isMatch then s.commitMatch j.slot f else s.commitMismatch j.slot f
    | none => s

/-- R50: the job in progress completes; its result is handed over unless it was discarded (R57), and the oldest job of
the queue starts. -/
def State.jobDone (s : State) (r : RunningJob) (place : Option PlaceId) : State :=
  (if r.discarded then s else s.handResult r.job (s.jobMatches r.job) place).startNextJob

end Sys2Proof.Machine
end

