-- ==== Sys2Proof/Machine/HostLinkOps.lean ====
section
/-! DEFINITION. The host link's shared operations (R193 to R197): the frames sent and owed, taking a request and answering
it, and the end of an event (log entries 12, 13). -/

namespace Sys2Proof.Machine

/-- How a command of the model ends: a next state. -/
abbrev Result := Host.Outcome State Fault Refusal

/-- The end of an event: a free converter with work starts its next conversion (R154), and the History Unit its next
write (R186). Log entries 12, 13. -/
def State.settle (s : State) : State := s.converterWork.startWrite

/-! ## Frames sent and owed (R195) -/

/-- A frame becomes owed: it is sent when the transmitter is free, in the order in which it became owed. -/
def HostLink.owe (h : HostLink) (f : OutFrame) : HostLink :=
  match h.transmitting with
  | none => { h with transmitting := some f }
  | some _ => { h with outgoing := h.outgoing ++ [f] }

/-- The owed-answer place is full: an answer waits for the transmitter (log entry 14). -/
def HostLink.placeFull (h : HostLink) : Bool :=
  h.outgoing.any fun f => match f with
    | .answer _ => true
    | .reply _ => false

/-- R195: an answer to a frame that is not acted on; with the place full the frame is discarded and counted. -/
def HostLink.answer (h : HostLink) (a : OwedAnswer) : HostLink :=
  if h.placeFull then { h with overruns := satAdd Config.maxU16 h.overruns 1 }
  else h.owe (.answer a)

/-- R195: a good frame that completes while the link is WORKING: BUSY with its own kind and tag, and counted; or, with
the place full, discarded without an answer. -/
def HostLink.answerBusy (h : HostLink) (kind tag : Byte) : HostLink :=
  if h.placeFull then h.answer (.busy kind tag)
  else { h with busy := satAdd Config.maxU16 h.busy 1 }.answer (.busy kind tag)

/-- R194: a bad frame is counted and answered BAD_FRAME. -/
def HostLink.badFrame (h : HostLink) : HostLink :=
  { h with badFrames := satAdd Config.maxU16 h.badFrames 1, receiver := .hunting }.answer .badFrame

/-- R193: a partial frame is discarded and counted. -/
def HostLink.discardPartial (h : HostLink) : HostLink :=
  { h with discardedPartials := satAdd Config.maxU16 h.discardedPartials 1, receiver := .hunting }

/-- The transmitter takes the next owed frame. -/
def HostLink.nextFrame (h : HostLink) : HostLink :=
  match h.outgoing with
  | [] => { h with transmitting := none }
  | f :: rest => { h with transmitting := some f, outgoing := rest }

/-! ## Requests -/

/-- A status with its fields: what a block answers. -/
structure Answer where
  status : Status
  fields : ReplyFields
  deriving DecidableEq, Repr

/-- An answer that carries only its status. -/
def only (st : Status) : Answer := ⟨st, .none⟩

/-- The reply is sent when the transmitter is free (R195). -/
def State.sendReply (s : State) (kind tag : Byte) (a : Answer) : State :=
  s.updHost fun h => h.owe (.reply ⟨kind, tag, a.status, a.fields⟩)

/-- The link enters WORKING. -/
def State.beginRequest (s : State) : State := s.updHost fun h => { h with working := true }

/-- R196: a body of the wrong length is answered BAD_ARGUMENT; any other goes to the owning block. -/
def serveBody {α : Type} (body : Body α) (serve : α → State → State × Answer) (s : State) : State × Answer :=
  match body with
  | .wrongLength => (s, only .badArgument)
  | .fields f => serve f s

/-- R195, R196: a good frame: while the link is WORKING it is answered BUSY (log entry 5); otherwise it is taken, served, and its
reply built. -/
def State.request {α : Type} (s : State) (kind tag : Byte) (body : Body α)
    (serve : α → State → State × Answer) : State :=
  if s.host.working then s.updHost fun h => h.answerBusy kind tag
  else
    let (s, a) := serveBody body serve s.beginRequest
    s.sendReply kind tag a

/-- R195: the last byte of the frame in transmission has been sent. A reply's end returns the link to READY, but for
the reply to RESET, after which the reset is prepared (R204); the next owed frame is then sent. -/
def State.frameSent (s : State) : State :=
  match s.host.transmitting with
  | none => s
  | some (.answer _) => s.updHost fun h => h.nextFrame
  | some (.reply _) =>
    match s.preparation with
    | some p => { s with preparation := some { p with replySent := true } }.updHost fun h => h.nextFrame
    | none => s.updHost fun h => { h with working := false }.nextFrame

end Sys2Proof.Machine
end

