-- ==== Sys2Proof/Machine/BusRequests.lean ====
section
/-! DEFINITION. The requests of the Cartridge Bus Controller and the Commit Unit: SCHEDULE_LOAD, SCHEDULE_SELECT,
WINDOW_SET, TAG_READ, TAG_WRITE and COMMIT_NOW. -/

namespace Sys2Proof.Machine

/-! ## Schedule Tables -/

/-- A table that is requested or in use by a lane (R39). -/
def State.tableBusy (s : State) (t : TableId) : Bool :=
  s.bus.requested = t || s.bus.lanes.toList.any fun l => l.inUse = t

def State.setTable (s : State) (t : TableId) (phases : Vector LaneClass 16) : State :=
  { s with bus := match t with
    | .a => { s.bus with tableA := phases }
    | .b => { s.bus with tableB := phases } }

/-- R39. -/
def serveScheduleLoad (f : ScheduleLoadFields) (s : State) : State × Answer :=
  match tableOf f.table with
  | none => (s, only .badArgument)
  | some t =>
    if phasesValid f.phases = false then (s, only .badArgument)
    else if s.tableBusy t then (s, only .wrongState)
    else (s.setTable t (phaseTable f.phases), only .ok)

/-- SCHEDULE_LOAD (R39). -/
def execScheduleLoad (tag : Byte) (body : Body ScheduleLoadFields) (s : State) : Result :=
  .next (s.request 0x11 tag body serveScheduleLoad)

/-- R40: a lane that is IDLE with an empty queue takes up the requested table at once. -/
def Lane.selected (l : Lane) (requested : TableId) : Lane :=
  match l.state with
  | .idle => if l.queue.isEmpty then l.takeUp requested else l
  | _ => l

/-- R40: the table becomes the requested one. -/
def State.selectTable (s : State) (t : TableId) : State :=
  { s with bus := { s.bus with requested := t, lanes := s.bus.lanes.map fun l => l.selected t } }

def serveScheduleSelect (n : Nat) (s : State) : State × Answer :=
  match tableOf n with
  | none => (s, only .badArgument)
  | some t =>
    let s := s.selectTable t
    (s, ⟨.ok, .schedule t (s.bus.lanes.map fun l => l.inUse)⟩)

/-- SCHEDULE_SELECT (R40). -/
def execScheduleSelect (tag : Byte) (body : Body Nat) (s : State) : Result :=
  .next (s.request 0x12 tag body serveScheduleSelect)

/-! ## Windows and pass-through -/

/-- R43, R64; a CLAMPED reply carries the four fields of the window (log entry 54). -/
def serveWindowSet (f : WindowSetFields) (s : State) : State × Answer :=
  match windowOf f.window with
  | none => (s, only .badArgument)
  | some w =>
    if s.keys.policyLock then (s.violation (.locked 0x13), only .locked)
    else
      let window := windowTaken f
      ({ s with bus := { s.bus with windows := s.bus.windows.set w.val window w.isLt } },
        if window.low = f.low ∧ window.high = f.high then only .ok else ⟨.clamped, .windowTaken window⟩)

/-- WINDOW_SET (R43, R64). -/
def execWindowSet (tag : Byte) (body : Body WindowSetFields) (s : State) : Result :=
  .next (s.request 0x13 tag body serveWindowSet)

/-- R44: checks 2 to 4, and the acceptance of a pass-through. -/
def State.passThrough (s : State) (i : SlotId) (command : TagCommand) (address length : Nat) (isWrite : Bool) :
    State × Answer :=
  if (s.slot i).state.isAdmitted = false then (s, only .wrongState)
  else if s.accessPermitted address length isWrite = false then
    (s.violation (.access i address length isWrite), only .isProtected)
  else if Config.passCapacity ≤ s.passQueued (laneOf i) then (s, only .full)
  else
    let ticket := s.nextTicket
    (({ s with bus := { s.bus with lastTicket := ticket } }).enqueue ⟨i, command, some ticket⟩,
      ⟨.accepted, .ticket ticket⟩)

def serveTagRead (f : TagReadFields) (s : State) : State × Answer :=
  match slotOf f.slot with
  | none => (s, only .badArgument)
  | some i =>
    if f.length = 0 ∨ 16 < f.length then (s, only .badArgument)
    else s.passThrough i (.memRead f.address f.length) f.address f.length false

/-- TAG_READ (R44). -/
def execTagRead (tag : Byte) (body : Body TagReadFields) (s : State) : Result :=
  .next (s.request 0x14 tag body serveTagRead).settle

def serveTagWrite (f : TagWriteFields) (s : State) : State × Answer :=
  match slotOf f.slot with
  | none => (s, only .badArgument)
  | some i =>
    if f.data.length = 0 ∨ 16 < f.data.length then (s, only .badArgument)
    else s.passThrough i (.memWrite f.address f.data) f.address f.data.length true

/-- TAG_WRITE (R44). -/
def execTagWrite (tag : Byte) (body : Body TagWriteFields) (s : State) : Result :=
  .next (s.request 0x15 tag body serveTagWrite).settle

/-! ## COMMIT_NOW (R115) -/

/-- One named slot. -/
def State.commitNamed (s : State) (i : SlotId) : State × Answer :=
  if (s.slot i).state.isAdmitted = false then (s, only .wrongState)
  else if (s.slot i).uncommitted = 0 then (s, only .ok)
  else
    let s := s.forcedTrigger i
    (s, ⟨.queued, .commitOne (s.commit i).phase (s.commit i).advance⟩)

/-- Every slot the trigger acts on, in slot order (log entry 39). -/
def State.commitEvery (s : State) : State × Answer :=
  let acted := (List.finRange 16).filter fun i => s.triggerActs i
  let s := acted.foldl (fun s i => s.forcedTrigger i) s
  (s, ⟨if acted.isEmpty then .ok else .queued, .commitAll (acted.map fun i => ⟨i, (s.commit i).phase⟩)⟩)

def serveCommitNow (named : Option Nat) (s : State) : State × Answer :=
  match named with
  | none => s.commitEvery
  | some n =>
    match slotOf n with
    | none => (s, only .badArgument)
    | some i => s.commitNamed i

/-- COMMIT_NOW (R115). -/
def execCommitNow (tag : Byte) (body : Body (Option Nat)) (s : State) : Result :=
  .next (s.request 0x0D tag body serveCommitNow).settle

end Sys2Proof.Machine
end

