-- ==== Sys2Proof/Machine/Charging.lean ====
section
/-! DEFINITION. The Volume Unit: the entry computation (R82 to R86) and the charge in the order of R89. -/

namespace Sys2Proof.Machine

/-! ## The entry computation -/

/-- R82: the drop sum, in femtolitres. -/
def dropSum (e : TallyEntry) (c : ChannelSettings) : Nat :=
  e.small * c.weightSmall + e.medium * c.weightMedium + e.large * c.weightLarge

/-- The temperature factor before its clamp (R83). -/
def rawFactor (e : TallyEntry) (c : ChannelSettings) : Int :=
  (Config.corrOne : Int) + c.beta * ((e.temperature : Int) - c.referenceCode)

/-- R83: the temperature factor, as a fraction of 32768. -/
def temperatureFactor (e : TallyEntry) (c : ChannelSettings) : Nat :=
  if e.temperature = 255 then Config.corrOne
  else (clampInt Config.corrMin Config.corrMax (rawFactor e c)).toNat

/-- R83: one of the bounds was applied. -/
def factorClamped (e : TallyEntry) (c : ChannelSettings) : Bool :=
  e.temperature ≠ 255 && (rawFactor e c < Config.corrMin || Config.corrMax < rawFactor e c)

/-- R84: the scaled volume with the carried residue. -/
def scaledVolume (e : TallyEntry) (c : ChannelSettings) (residue : Nat) : Nat :=
  dropSum e c * temperatureFactor e c + residue

/-- R85: what the accumulator and the entry's volume come to, in femtolitres. -/
def carried (e : TallyEntry) (c : ChannelSettings) (v : Volume) : Nat :=
  v.accumulator + scaledVolume e c v.residue / Config.corrOne

/-- The charge of an entry, in nanolitres (R85). -/
def entryCharge (e : TallyEntry) (c : ChannelSettings) (v : Volume) : Nat :=
  carried e c v / Config.flPerNl

/-- R83 to R85: what an entry does to the channel's arithmetic state. -/
def Volume.afterEntry (v : Volume) (e : TallyEntry) (c : ChannelSettings) : Volume :=
  { v with
    residue := scaledVolume e c v.residue % Config.corrOne
    accumulator := carried e c v % Config.flPerNl
    uncorrected := if e.temperature = 255 then satAdd Config.maxU32 v.uncorrected 1 else v.uncorrected
    clamped := if factorClamped e c then satAdd Config.maxU32 v.clamped 1 else v.clamped }

/-! ## The charge rule -/

/-- How a charge is split: the slot's part, the overdraw and the unattributed part (R88). -/
structure Booking where
  toSlot : Nat
  overdraw : Nat
  unattributed : Nat
  deriving DecidableEq, Repr

/-- R88: with a serving slot (SUPPLIED, SWITCHING) it takes the smaller of the charge and its remaining estimate;
otherwise the charge is unattributed. -/
def State.booking (s : State) (c : ChannelId) (amount : Nat) : Booking :=
  match (s.channel c).serving with
  | some i => ⟨min amount (s.slot i).remaining, amount - (s.slot i).remaining, 0⟩
  | none => ⟨0, 0, amount⟩

/-- The counters of a channel after a charge (R87, R88) and its window sum (R95). -/
def Volume.charged (v : Volume) (amount : Nat) (b : Booking) : Volume :=
  { v with
    totalCharged := satAdd Config.max48 v.totalCharged amount
    chargedToSlots := satAdd Config.max48 v.chargedToSlots b.toSlot
    overdraw := satAdd Config.max48 v.overdraw b.overdraw
    unattributed := satAdd Config.max48 v.unattributed b.unattributed
    windowSum := v.windowSum + amount }

/-- Steps 1 and 2 of R89. -/
def State.book (s : State) (c : ChannelId) (amount : Nat) (b : Booking) : State :=
  let s := s.updVolume c fun v => v.charged amount b
  match (s.channel c).serving with
  | some i => s.updSlot i fun r => { r with uncommitted := r.uncommitted + b.toSlot }
  | none => s

/-- Step 6 of R89: a serving slot whose remaining estimate is 0 goes SPENT (R90). -/
def State.spentTest (s : State) (i : SlotId) : State :=
  if (s.slot i).state = .serving ∧ (s.slot i).remaining = 0 then s.slotSpent i else s

/-- Steps 4 to 6 of R89, for the slot that took a part. -/
def State.slotCharged (s : State) (i : SlotId) : State :=
  ((s.formBand i).stepTrigger i).spentTest i

/-- Step 7 of R89: the Channel Controller is told. -/
def State.channelCharged (s : State) (c : ChannelId) : State :=
  match (s.channel c).state with
  | .switching => s.completionTest c
  | .supplied => s.plannedSwitch c
  | _ => s

/-- R88, R89: a charge above 0 on a channel, in the seven steps. -/
def State.charge (s : State) (c : ChannelId) (amount : Nat) : State :=
  let b := s.booking c amount
  let slot := (s.channel c).serving
  let s := (s.book c amount b).draw c amount
  let s := match slot with
    | some i => if 0 < b.toSlot then s.slotCharged i else s
    | none => s
  s.channelCharged c

/-- R86: an entry that reaches the Volume Unit. -/
def State.takeEntryVolume (s : State) (e : TallyEntry) : State :=
  let ch := s.channel e.channel
  let amount := entryCharge e ch.settings ch.volume
  let s := s.updVolume e.channel fun v => v.afterEntry e ch.settings
  if amount = 0 then s else s.charge e.channel amount

end Sys2Proof.Machine
end

