-- ==== Sys2Proof/Machine/ChannelRequests.lean ====
section
/-! DEFINITION. The requests of the Channel Controller, the Volume Unit and the Reservation Unit: CHANNEL_SET,
CHANNEL_ENABLE, CHANNEL_DISABLE, SUPPLY_MAP_SET, SERVICE_DRAW, RESERVE and RELEASE. -/

namespace Sys2Proof.Machine

/-! ## CHANNEL_SET (R120, R121) -/

/-- Step 1 of R121, in R131's order: the rejections of the pair's slots (in pair order, log entry 43), the failover of a
rejected serving slot, and then the cancel test on what they leave. -/
def State.inkCodeChanged (s : State) (c : ChannelId) : State :=
  let rejected := (s.channel c).pairSlots.filter fun i => s.inkDiffers i
  let s := rejected.foldl (fun s i => s.inkTest i) s
  let s := match (s.channel c).serving with
    | some i => if i ∈ rejected then s.failover c i .rejected else s
    | none => s
  s.targetTest c

/-- The admitted slots that name a channel, in slot order (log entry 43). -/
def State.admittedOf (s : State) (c : ChannelId) : List SlotId :=
  (List.finRange 16).filter fun i => (s.slot i).state.isAdmitted && (s.slot i).channel = some c

/-- Step 2 of R121: the bands, in slot order (log entry 43). -/
def State.levelsChanged (s : State) (c : ChannelId) : State :=
  (s.admittedOf c).foldl (fun s i => s.formBand i) s

/-- Step 3 of R121: the step triggers, in slot order (log entry 43). -/
def State.commitStepChanged (s : State) (c : ChannelId) : State :=
  (s.admittedOf c).foldl (fun s i => s.stepTrigger i) s

/-- Step 4 of R121. -/
def State.switchLevelChanged (s : State) (c : ChannelId) : State :=
  match (s.channel c).state with
  | .supplied => s.plannedSwitch c
  | .switching => s.levelCancelTest c
  | _ => s

/-- Step 5 of R121 (R150). -/
def State.thresholdsChanged (s : State) (c : ChannelId) : State := (s.clearTest c).headTest c

/-- R121: the changed settings act, in its order. -/
def State.settingsAct (s : State) (c : ChannelId) (old new : ChannelSettings) : State :=
  let s := if old.inkCode ≠ new.inkCode then s.inkCodeChanged c else s
  let s := if old.lowLevel ≠ new.lowLevel ∨ old.veryLowLevel ≠ new.veryLowLevel then s.levelsChanged c else s
  let s := if old.commitStep ≠ new.commitStep then s.commitStepChanged c else s
  let s := if old.switchLevel ≠ new.switchLevel then s.switchLevelChanged c else s
  if old.upperThreshold ≠ new.upperThreshold ∨ old.lowerThreshold ≠ new.lowerThreshold then
    s.thresholdsChanged c
  else s

/-- An accepted CHANNEL_SET: every setting is taken, and the changed ones act. -/
def State.takeSettings (s : State) (c : ChannelId) (new : ChannelSettings) : State :=
  (s.updChannel c fun ch => { ch with settings := new }).settingsAct c (s.channel c).settings new

/-- R64, R120: under the lock a policy that differs from the channel's present one, or is no policy at all. -/
def State.lockRefuses (s : State) (c : ChannelId) (policy : Nat) : Bool :=
  s.keys.policyLock && policyOf policy ≠ some (s.channel c).settings.refillPolicy

def serveChannelSet (f : ChannelSetFields) (s : State) : State × Answer :=
  match channelOf f.channel with
  | none => (s, only .badArgument)
  | some c =>
    if s.lockRefuses c f.settings.refillPolicy then (s.violation (.locked 0x06), only .locked)
    else match policyOf f.settings.refillPolicy with
      | none => (s, only .badArgument)
      | some policy =>
        let new := takenSettings f.settings policy
        (s.takeSettings c new,
          if new.given = f.settings then only .ok else ⟨.clamped, .settingsTaken new⟩)

/-- CHANNEL_SET (R120, R121). -/
def execChannelSet (tag : Byte) (body : Body ChannelSetFields) (s : State) : Result :=
  .next (s.request 0x06 tag body serveChannelSet).settle

/-! ## CHANNEL_ENABLE (R125) and CHANNEL_DISABLE (R126) -/

/-- R125: an IDLE channel enters UNSUPPLIED: its flow window opens, the selection test and the head test are made, and
ENABLE is raised (log entry 18). -/
def State.enableChannel (s : State) (c : ChannelId) : State :=
  let before := s.channel c
  let s := s.updChannel c fun ch =>
    { ch with
      state := .unsupplied
      volume := { ch.volume with windowSum := 0, windowLength := ch.settings.flowWindow } }
  let move := channelMove .enable before (s.channel c) none
  ((s.select c).headTest c).raise (.channelChanged c move)

/-- CHANNEL_ENABLE (R125). -/
def execChannelEnable (tag : Byte) (body : Body Nat) (s : State) : Result :=
  .next (s.request 0x07 tag body fun n s =>
    match channelOf n with
    | none => (s, only .badArgument)
    | some c =>
      let s := if (s.channel c).state = .idle then s.enableChannel c else s
      (s, ⟨.ok, .channelState (s.channel c).state⟩)).settle

/-- What a disabled channel keeps and loses (R95, R126, R142). -/
def Channel.disabled (ch : Channel) : Channel :=
  { ch with
    state := .idle
    serving := none
    target := none
    permit := false
    splitLast := false
    flowExcess := false
    stall := false
    volume := { ch.volume with windowSum := 0, lastWindowFlow := 0, peakArmed := false } }

/-- R126: the serving slot goes from SERVING to READY, the channel enters IDLE, and DISABLE is raised. -/
def State.disableChannel (s : State) (c : ChannelId) : State :=
  let before := s.channel c
  let s := match before.serving with
    | some i => s.toReady i
    | none => s
  let s := (s.updChannel c Channel.disabled).headTest c
  s.raise (.channelChanged c (channelMove .disable before (s.channel c) none))

/-- CHANNEL_DISABLE (R126). -/
def execChannelDisable (tag : Byte) (body : Body Nat) (s : State) : Result :=
  .next (s.request 0x08 tag body fun n s =>
    match channelOf n with
    | none => (s, only .badArgument)
    | some c =>
      if (s.channel c).state = .idle then (s, only .ok)
      else if (s.channel c).reservations.isEmpty = false then (s, only .wrongState)
      else (s.disableChannel c, only .ok)).settle

/-! ## SUPPLY_MAP_SET (R123, R124, R11 to R13) -/

/-- R11, R12: a slot leaves every pair. -/
def State.leavePair (s : State) (i : SlotId) : State :=
  let admitting := (s.slot i).state.inAdmission
  let s := s.updSlot i fun r => { r with channel := none }
  if admitting then
    (s.abandonAdmission i).moveSlot i fun r =>
      { r with
        state := .seating
        description := none
        quality := none
        committed := 0
        uncommitted := 0
        reconciled := false }
  else s

/-- R11 to R13, R124: a slot is named for a channel. -/
def State.namePair (s : State) (c : ChannelId) (i : SlotId) : State :=
  let s := s.updSlot i fun r => { r with channel := some c }
  match (s.slot i).state with
  | .seating => s.enterReading i
  | .ready | .spent =>
    let s' := s.inkTest i
    if (s'.slot i).state = (s.slot i).state then (s'.formBand i).stepTrigger i else s'
  | _ => s

/-- The pair a request names. -/
def pairNamed (primary alternate : Option SlotId) : Option SupplyPair :=
  primary.map fun p => ⟨p, alternate⟩

/-- A slot is in the pair of a channel other than `c`. -/
def State.inOtherPair (s : State) (c : ChannelId) (i : SlotId) : Bool :=
  (List.finRange 8).any fun d => d ≠ c && (s.channel d).pairSlots.contains i

/-- R123, third check: a malformed pair, or a slot of another channel's pair. -/
def State.pairRefused (s : State) (c : ChannelId) (primary alternate : Option SlotId) : Bool :=
  (primary.isNone && alternate.isSome) || (primary.isSome && primary = alternate) ||
    (primary.toList ++ alternate.toList).any fun i => s.inOtherPair c i

/-- R124: the slots that leave are dealt with before the ones that are named; of two that leave, or of two that are
named, the primary comes first (log entry 43). -/
def State.setPair (s : State) (c : ChannelId) (pair : Option SupplyPair) : State :=
  let old := (s.channel c).pairSlots
  let s := s.updChannel c fun ch => { ch with pair := pair }
  let new := (s.channel c).pairSlots
  let s := (old.filter fun i => !new.contains i).foldl (fun s i => s.leavePair i) s
  (new.filter fun i => !old.contains i).foldl (fun s i => s.namePair c i) s

def serveSupplyMapSet (f : SupplyMapFields) (s : State) : State × Answer :=
  match channelOf f.channel, optionalSlotOf f.primary, optionalSlotOf f.alternate with
  | some c, some primary, some alternate =>
    if (s.channel c).state ≠ .idle then (s, only .wrongState)
    else if s.pairRefused c primary alternate then (s, only .badArgument)
    else (s.setPair c (pairNamed primary alternate), only .ok)
  | _, _, _ => (s, only .badArgument)

/-- SUPPLY_MAP_SET (R123, R124). -/
def execSupplyMapSet (tag : Byte) (body : Body SupplyMapFields) (s : State) : Result :=
  .next (s.request 0x09 tag body serveSupplyMapSet).settle

/-! ## RESERVE (R140) and RELEASE (R146) -/

/-- A granted request joins the end of the granted part in OPEN (R140); the waiting list is empty. -/
def State.grantNew (s : State) (c : ChannelId) (size : Nat) : State :=
  s.updChannel c fun ch =>
    { ch with
      reservations := ch.reservations ++ [⟨ch.nextId, size, 0, false, none⟩]
      lastId := ch.nextId
      unreservedDraw := false }

/-- A queued request joins the end of the waiting list, its wait timer started (R140, R145). -/
def State.queueNew (s : State) (c : ChannelId) (size : Nat) : State :=
  s.updChannel c fun ch =>
    { ch with
      reservations := ch.reservations ++ [⟨ch.nextId, size, 0, false, some ⟨ch.settings.waitLimit, s.clockMs⟩⟩]
      lastId := ch.nextId }

/-- Orders 4 to 6 of Table 8-3. -/
def State.reserveTested (s : State) (c : ChannelId) (size : Nat) : State × Answer :=
  let ch := s.channel c
  if ch.waiting.isEmpty ∧ s.grantPasses c size = true then
    let s := s.grantNew c size
    (s, ⟨.granted, .reservationGranted ch.nextId (s.channel c).outstanding⟩)
  else if ch.waiting.length < Config.waitingCapacity then
    let s := if ch.waiting.isEmpty then s.grantTested c size else s
    let s := s.queueNew c size
    (s, ⟨.queued, .reservationQueued ch.nextId (ch.waiting.length + 1) (s.channel c).stall⟩)
  else (s, only .full)

def serveReserve (f : ReserveFields) (s : State) : State × Answer :=
  match channelOf f.channel with
  | none => (s, only .badArgument)
  | some c =>
    if f.size = 0 then (s, only .badArgument)
    else if (s.channel c).state = .idle ∨ (s.channel c).settings.upperThreshold = 0 then (s, only .wrongState)
    else if (s.channel c).settings.upperThreshold < f.size then (s, only .tooLarge)
    else s.reserveTested c f.size

/-- RESERVE (R140). -/
def execReserve (tag : Byte) (body : Body ReserveFields) (s : State) : Result :=
  .next (s.request 0x0A tag body serveReserve).settle

/-- A reservation has left the list: the completion test (R130), the clear test and the head test (R146). -/
def State.afterLeaving (s : State) (c : ChannelId) : State :=
  ((s.completionTest c).clearTest c).headTest c

def serveRelease (f : ReleaseFields) (s : State) : State × Answer :=
  match channelOf f.channel with
  | none => (s, only .badArgument)
  | some c =>
    match (s.channel c).findReservation f.id with
    | none => (s, only .unknownId)
    | some r => ((s.leaveList c f.id).afterLeaving c, ⟨.ok, .released r.state r.size r.drawn r.split⟩)

/-- RELEASE (R146). -/
def execRelease (tag : Byte) (body : Body ReleaseFields) (s : State) : Result :=
  .next (s.request 0x0B tag body serveRelease).settle

/-! ## SERVICE_DRAW (R92) -/

def serveServiceDraw (f : ServiceDrawFields) (s : State) : State × Answer :=
  match channelOf f.channel with
  | none => (s, only .badArgument)
  | some c =>
    if (s.channel c).state = .idle then (s, only .wrongState)
    else
      let amount := drawTaken f.amount
      let b := s.booking c amount
      let status : Status := if amount = f.amount then .ok else .clamped
      (if amount = 0 then s else s.charge c amount,
        ⟨status, .drawn amount (s.channel c).serving b.toSlot b.overdraw b.unattributed⟩)

/-- SERVICE_DRAW (R92). -/
def execServiceDraw (tag : Byte) (body : Body ServiceDrawFields) (s : State) : Result :=
  .next (s.request 0x0C tag body serveServiceDraw).settle

end Sys2Proof.Machine
end

