-- ==== Sys2Proof/Machine/HostEvents.lean ====
section
/-! DEFINITION. The host link's own commands: frames that are not requests (R193 to R196) and the end of a transmission. -/

namespace Sys2Proof.Machine

/-- BAD_FRAME: a complete frame fails its CRC-16 (R194). -/
def execBadFrame (s : State) : Result := .next (s.updHost HostLink.badFrame)

/-- OVERSIZED_LENGTH: a length field above 2,048 is complete (R194). -/
def execOversizedLength (s : State) : Result := .next (s.updHost HostLink.badFrame)

/-- PARTIAL_FRAME_GAP_EXPIRY: 2 ms after a byte of an incomplete frame (R193). -/
def execPartialFrameGapExpiry (s : State) : Result := .next (s.updHost HostLink.discardPartial)

/-- A partial frame stands in the receiver. -/
def Receiver.isCollecting : Receiver → Bool
  | .collecting _ => true
  | .hunting => false

/-- MISSING_STOP_BIT: any partial frame is discarded and counted; the receiver is HUNTING (R193). -/
def execMissingStopBit (midFrame : Bool) (s : State) : Result :=
  .next (s.updHost fun h =>
    if midFrame || h.receiver.isCollecting then h.discardPartial else { h with receiver := .hunting })

/-- BUSY_ANSWER: a good frame completes while the link is WORKING (R195); in READY it cannot arise (log entry 3). -/
def execBusyAnswer (kind tag : Byte) (s : State) : Result :=
  .next (if s.host.working then s.updHost fun h => h.answerBusy kind tag else s)

/-- A kind of Table 11-3. -/
def knownKind (kind : Byte) : Bool := 0x01 ≤ kind.toNat && kind.toNat ≤ 0x1C

/-- UNKNOWN_KIND: a good frame whose kind names no request (R196). A kind of Table 11-3 is another command (log
entry 3). -/
def execUnknownKind (kind tag : Byte) (s : State) : Result :=
  .next (if knownKind kind then s
    else s.request kind tag (.fields ()) fun _ s => (s, only .unknownKind))

/-- HOST_FRAME_TRANSMITTED: the last byte of a frame has been sent (R195). -/
def execHostFrameTransmitted (s : State) : Result := .next s.frameSent

end Sys2Proof.Machine
end

