-- ==== Sys2Proof/Machine/Wire.lean ====
section
/-! DEFINITION. The three wire formats, bytes to fields and fields to bytes (R206, Tables 11-7 to 11-9): numbers high byte
first, the two CRCs, the tag command and reply frames, and the tally frame. The host frames are in HostWire.lean. -/

namespace Sys2Proof.Machine

/-! ## Numbers -/

/-- Unsigned, high byte first. -/
def natOf (bytes : List Byte) : Nat := bytes.foldl (fun n b => n * 256 + b.toNat) 0

/-- `n` in `k` bytes, high byte first (the low 8k bits). -/
def bytesOf : Nat → Nat → List Byte
  | 0, _ => []
  | k + 1, n => BitVec.ofNat 8 (n / 256 ^ k) :: bytesOf k n

/-- Two's complement of `8 * bytes.length` bits. -/
def intOf (bytes : List Byte) : Int :=
  let n := natOf bytes
  if n * 2 < 256 ^ bytes.length then n else (n : Int) - 256 ^ bytes.length

def bytesOfInt (k : Nat) (n : Int) : List Byte := bytesOf k (n % (256 ^ k : Nat)).toNat

/-! ## The CRCs (R206) -/

/-- One bit of a CRC of width `w`, most significant first: shift, and take the polynomial when the bit that leaves
differs from 0. -/
def crcShift {w : Nat} (poly : BitVec w) : Nat → BitVec w → BitVec w
  | 0, crc => crc
  | n + 1, crc => crcShift poly n (if crc.msb then (crc <<< 1) ^^^ poly else crc <<< 1)

/-- CRC-16: polynomial 0x1021, initial value 0xFFFF, no final inversion. -/
def crc16 (bytes : List Byte) : BitVec 16 :=
  bytes.foldl (fun crc b => crcShift 0x1021#16 8 (crc ^^^ BitVec.shiftLeft (b.setWidth 16) 8)) 0xFFFF#16

/-- CRC-8: polynomial 0x07, initial value 0x00. -/
def crc8 (bytes : List Byte) : BitVec 8 :=
  bytes.foldl (fun crc b => crcShift 0x07#8 8 (crc ^^^ b)) 0x00#8

def crc16Bytes (bytes : List Byte) : List Byte := bytesOf 2 (crc16 bytes).toNat

/-! ## Tag frames (Table 11-9) -/

def TagCommand.code : TagCommand → Byte
  | .describe => 0x01
  | .challenge _ => 0x02
  | .odoAdvance .. => 0x03
  | .mark _ => 0x04
  | .memRead .. => 0x05
  | .memWrite .. => 0x06

def TagCommand.operands : TagCommand → List Byte
  | .describe => []
  | .challenge nonce => bytesOf 8 nonce.toNat
  | .odoAdvance value generation nonce => bytesOf 4 value ++ bytesOf 1 generation ++ bytesOf 8 nonce.toNat
  | .mark .spent => [0x00]
  | .mark .refill => [0x01]
  | .memRead address length => bytesOf 1 address ++ bytesOf 1 length
  | .memWrite address data => bytesOf 1 address ++ data

/-- The command frame a lane sends for an entry. -/
def LaneEntry.frame (e : LaneEntry) : List Byte :=
  let operands := e.command.operands
  let body := bytesOf 1 (laneAddress e.slot) ++ [e.command.code] ++ bytesOf 1 operands.length ++ operands
  body ++ [crc8 body]

/-- What the lanes send: the command frame of a lane in reply wait (R26). -/
def State.commandFrame (s : State) (l : LaneId) : Option (List Byte) :=
  match (s.lane l).state with
  | .onWire t => if t.phase = .replyWait then some t.entry.frame else none
  | _ => none

/-- The fields of a reply frame. -/
structure TagFrame where
  address : Nat
  command : Byte
  kind : Byte
  data : List Byte
  deriving DecidableEq, Repr

/-- A reply frame whose lengths and CRC-8 are right. -/
def readTagFrame : List Byte → Option TagFrame
  | address :: command :: kind :: d :: rest =>
    if rest.length = d.toNat + 1 then
      let data := rest.take d.toNat
      if rest.drop d.toNat = [crc8 (address :: command :: kind :: d :: data)] then
        some ⟨address.toNat, command, kind, data⟩
      else none
    else none
  | _ => none

/-- A description of 22 bytes; none with a tag state above 2. -/
def readDescription (b : List Byte) : Option Description :=
  if b.length = 22 then
    let field (start length : Nat) : Nat := natOf ((b.drop start).take length)
    let state : Option TagState := match field 14 1 with
      | 0 => some .fresh
      | 1 => some .inUse
      | 2 => some .spent
      | _ => none
    state.map fun tagState =>
      { serial := BitVec.ofNat 64 (field 0 8)
        inkCode := field 8 1
        nominalFill := field 9 4
        fillGeneration := field 13 1
        tagState := tagState
        refillMark := field 15 1 ≠ 0
        odometerAtRead := field 16 4
        makerLot := BitVec.ofNat 16 (field 20 2) }
  else none

/-- What a reply frame is to a transaction. -/
inductive ReplyReading where
  | failedAttempt
  | busy
  | error (code : Byte)
  | usable (r : UsableReply)
  deriving DecidableEq, Repr

/-- A DATA reply to a command (Table 2-2, section 11.7). -/
def readData (c : TagCommand) (data : List Byte) : ReplyReading :=
  match c with
  | .describe => match readDescription data with
    | some d => .usable (.description d)
    | none => .failedAttempt
  | .challenge _ | .odoAdvance .. =>
    if data.length = 8 then .usable (.answer (BitVec.ofNat 64 (natOf data))) else .failedAttempt
  | .memRead _ length => if data.length = length then .usable (.data data) else .failedAttempt
  | .mark _ | .memWrite .. => .failedAttempt

/-- An ACK is admitted by MARK and MEM_WRITE. -/
def readAck : TagCommand → ReplyReading
  | .mark _ | .memWrite .. => .usable .ack
  | _ => .failedAttempt

/-- REFUSED_DECREASE is admitted by ODO_ADVANCE. -/
def readRefused : TagCommand → ReplyReading
  | .odoAdvance .. => .usable .refusedDecrease
  | _ => .failedAttempt

/-- A reply frame against the entry it answers (R26, Table 2-2): a wrong CRC, address or command, a kind the command
does not allow, or data of another length is a failed attempt (log entry 28). -/
def readReply (e : LaneEntry) (frame : List Byte) : ReplyReading :=
  match readTagFrame frame with
  | none => .failedAttempt
  | some f =>
    if f.address ≠ laneAddress e.slot ∨ f.command ≠ e.command.code then .failedAttempt
    else match f.kind.toNat, f.data with
      | 0, data => readData e.command data
      | 1, [] => readAck e.command
      | 2, [] => .busy
      | 3, [code] => .error code
      | 4, [] => readRefused e.command
      | _, _ => .failedAttempt

/-! ## Tally frames (Table 11-8) -/

structure TallyFrame where
  head : Fin 4
  restart : Bool
  sequence : Nat
  entries : List TallyEntry
  deriving DecidableEq, Repr

/-- One entry of 8 bytes; none when it names no channel. -/
def readTallyEntry (b : List Byte) : Option TallyEntry :=
  let field (start length : Nat) : Nat := natOf ((b.drop start).take length)
  match (if h : field 0 1 < 8 then some (⟨field 0 1, h⟩ : ChannelId) else none) with
  | some c => some ⟨c, field 1 2, field 3 2, field 5 2, field 7 1⟩
  | none => none

/-- `n` entries; none when one of them names no channel. -/
def readTallyEntries : Nat → List Byte → Option (List TallyEntry)
  | 0, _ => some []
  | n + 1, b =>
    match readTallyEntry (b.take 8), readTallyEntries n (b.drop 8) with
    | some e, some rest => some (e :: rest)
    | _, _ => none

/-- The largest frame: eight entries. -/
def tallyFrameMax : Nat := 70

/-- Eight bits as a byte, first bit most significant (R68). -/
def byteOfBits (bits : List Bool) : Byte := BitVec.ofNat 8 (bits.foldl (fun n b => 2 * n + b.toNat) 0)

/-- R68: the bits taken, gathered into bytes; at most `most` bytes are kept, and bits that fill no byte are not. -/
def gatherBytes : Nat → List Bool → List Byte
  | 0, _ => []
  | most + 1, bits => if bits.length < 8 then [] else byteOfBits (bits.take 8) :: gatherBytes most (bits.drop 8)

/-- R69: the frame accepted, or none. `bits` is the count of bits taken; the bytes are those kept. -/
def readTallyFrame (bits : Nat) (b : List Byte) : Option TallyFrame :=
  match b with
  | head :: flags :: sequence :: count :: rest =>
    let n := count.toNat
    if 1 ≤ n ∧ n ≤ 8 ∧ b.length = 6 + 8 * n ∧ bits = 8 * b.length ∧
        rest.drop (8 * n) = crc16Bytes (b.take (4 + 8 * n)) then
      match (if h : head.toNat < 4 then some (⟨head.toNat, h⟩ : Fin 4) else none), readTallyEntries n rest with
      | some h, some entries => some ⟨h, flags.msb, sequence.toNat, entries⟩
      | _, _ => none
    else none
  | _ => none

end Sys2Proof.Machine
end

