-- ==== Sys2Proof/Machine/LinkEvents.lean ====
section
/-! DEFINITION. The tally link (R68 to R76) and the cartridge lanes (R26, R27) as commands, and the completion of a
Digest Engine job (R50). -/

namespace Sys2Proof.Machine

/-! ## The sequence check -/

/-- Table 4-3. -/
inductive SequenceOutcome where
  | restart
  | inSequence
  | repeated
  | gap (size : Nat)
  deriving DecidableEq, Repr

/-- R70 to R73: a frame against its head's state. -/
def sequenceCheck (expected : Option Nat) (restart : Bool) (n : Nat) : SequenceOutcome :=
  match expected with
  | none => .restart
  | some e =>
    if restart then .restart
    else if n = e then .inSequence
    else if n = (e + 255) % 256 then .repeated
    else .gap ((n + 256 - e) % 256)

/-- The head's state and counts after a frame numbered `n` (Table 4-3, Table 4-4). -/
def Head.after (h : Head) (n : Nat) : SequenceOutcome → Head
  | .restart => { h with expected := some ((n + 1) % 256), restarts := satAdd Config.maxU32 h.restarts 1 }
  | .inSequence => { h with expected := some ((n + 1) % 256), taken := satAdd Config.maxU32 h.taken 1 }
  | .repeated => { h with repeats := satAdd Config.maxU32 h.repeats 1 }
  | .gap size =>
    { h with
      expected := some ((n + 1) % 256)
      taken := satAdd Config.maxU32 h.taken 1
      gaps := satAdd Config.maxU32 h.gaps 1
      missed := satAdd Config.maxU32 h.missed size }

/-- R74: a gap marks every channel in use and raises TALLY_FAULT once. -/
def State.markGap (s : State) (head : Fin 4) (size n : Nat) : State :=
  s.markUncertain.raise (.tallyFault head size n s.channelsInUse)

/-- R76: an entry is discarded for an IDLE channel, or handed to the Volume Unit. -/
def State.routeEntry (s : State) (e : TallyEntry) : State :=
  if (s.channel e.channel).state = .idle then
    s.updTally fun t => { t with idleEntries := satAdd Config.maxU32 t.idleEntries 1 }
  else
    (s.updTally fun t => { t with handedOn := satAdd Config.maxU32 t.handedOn 1 }).takeEntryVolume e

/-- The first `n` of the waiting entries are handed on, one at a time, in the order they stand in the frame (R76). -/
def State.handOn : Nat → State → State
  | 0, s => s
  | n + 1, s =>
    match s.tally.waiting with
    | [] => s
    | e :: rest => State.handOn n ((s.updTally fun t => { t with waiting := rest }).routeEntry e)

/-- R68: the handing on of a frame's entries is finished. -/
def State.finishEntries (s : State) : State := State.handOn s.tally.waiting.length s

/-- The entries of a processed frame wait to be handed on (R76). -/
def State.entriesWait (s : State) (entries : List TallyEntry) : State :=
  s.updTally fun t => { t with waiting := entries }

/-- An accepted frame: its count, its head's state and the marking of its gap are one event (R70 to R74, R78). -/
def State.acceptFrame (s : State) (f : TallyFrame) : State :=
  let outcome := sequenceCheck s.tally.heads[f.head.val].expected f.restart f.sequence
  let s := s.updTally fun t => { t with heads := modifyAt t.heads f.head fun h => h.after f.sequence outcome }
  match outcome with
  | .restart | .inSequence => s.entriesWait f.entries
  | .repeated => s
  | .gap size => (s.markGap f.head size f.sequence).entriesWait f.entries

/-- R69: a received frame is accepted, or discarded whole and counted. -/
def State.checkFrame (s : State) (levels : List Bool) : State :=
  match readTallyFrame levels.length (gatherBytes tallyFrameMax levels) with
  | some f => s.acceptFrame f
  | none => s.updTally fun t => { t with badFrames := satAdd Config.maxU32 t.badFrames 1 }

/-- R68: TSTROBE is deasserted. The partial frame of a reset is not received, a strobe period without a bit is ignored,
and the entries of an earlier frame are all handed on before a received frame is dealt with (log entry 34). -/
def State.receiveFrame (s : State) (levels : List Bool) (now : Nat) : State :=
  if s.tally.skippingPartial then s.updTally fun t => { t with skippingPartial := false }
  else if levels.isEmpty then s
  else State.handOn now (s.finishEntries.checkFrame levels)

/-- TALLY_FRAME (R69): a strobe period ends, or waiting entries are handed on (R76). -/
def execTallyFrame (levels : Option (List Bool)) (now : Nat) (s : State) : Result :=
  .next (match levels with
    | some levels => (s.receiveFrame levels now).settle
    | none => (State.handOn now s).settle)

/-- TSTROBE_DEASSERTED_AFTER_RESET (R68): the receiver begins with the next assertion. -/
def execTstrobeDeassertedAfterReset (s : State) : Result :=
  .next (s.updTally fun t => { t with skippingPartial := false })

/-! ## The lanes -/

/-- The transaction of a lane that stands in a given phase. -/
def State.transactionIn (s : State) (l : LaneId) (phase : WirePhase) : Option Transaction :=
  match (s.lane l).state with
  | .onWire t => if t.phase = phase then some t else none
  | _ => none

/-- R26 to R28: what a reply frame does to the transaction. -/
def State.actReply (s : State) (l : LaneId) (t : Transaction) : ReplyReading → State
  | .failedAttempt => s.attemptFailed l t
  | .busy => s.busyReply l t
  | .error code => s.transactionFailed l t (.tagError code)
  | .usable r => s.transactionDone l t r

/-- LANE_REPLY (R26): a frame that meets a lane in no reply wait is discarded. -/
def execLaneReply (l : LaneId) (frame : List Byte) (s : State) : Result :=
  .next (match s.transactionIn l .replyWait with
    | some t => (s.actReply l t (readReply t.entry frame)).settle
    | none => s)

/-- REPLY_TIMEOUT (R26). -/
def execReplyTimeout (l : LaneId) (s : State) : Result :=
  .next (match s.transactionIn l .replyWait with
    | some t => (s.attemptFailed l t).settle
    | none => s)

/-- BUSY_HOLD_OFF_EXPIRY (R27): the command frame is resent unchanged. -/
def execBusyHoldOffExpiry (l : LaneId) (s : State) : Result :=
  .next (match s.transactionIn l .busyHoldOff with
    | some t => s.setTransaction l { t with phase := .replyWait }
    | none => s)

/-! ## The Digest Engine -/

/-- DIGEST_JOB_COMPLETE (R50). -/
def execDigestJobComplete (place : Option (Fin 64)) (s : State) : Result :=
  .next (match s.engine.running with
    | some r => (s.jobDone r place).settle
    | none => s)

end Sys2Proof.Machine
end

