-- ==== Sys2Proof/Machine/Reports.lean ====
section
/-! DEFINITION. What the reading requests report (R23, R47, R99, R100, R136, R152, R170, R187, R197). -/

namespace Sys2Proof.Machine

/-! ## STATUS_GET -/

def KeyStore.report (k : KeyStore) : KeyReport :=
  match k.state with
  | .unprovisioned => .unprovisioned
  | .provisioned _ => .provisioned
  | .damaged => .damaged

def Lane.report (l : Lane) : LaneStatus :=
  ⟨match l.state with
    | .idle => .idle
    | .onWire _ => .onWire
    | .held _ => .held, l.inUse⟩

def SlotSense.report (u : SlotSense) : SenseStatus where
  offset := u.offset
  gain := u.gain
  levels := u.ring.length
  sensed := sensedLevel u.ring
  rise := u.rise
  deficit := u.deficit
  goodRun := u.goodRun
  hostSenses := u.hostSenses

/-- R170. The scan position is the entry taken next, counted from 0, and 0 while no pass is in progress (log entry
49). -/
def LevelSense.report (u : LevelSense) : LevelStatus where
  scan := u.scan
  position := u.position
  list := u.list
  pause := u.pause
  pendingScan := u.pendingScan
  injected := u.injected.map fun q => ⟨q.slot, q.reasons⟩
  runSlot := u.run.map fun r => r.request.slot
  reference := u.reference
  lastReference := u.lastReference
  deferred := u.deferred
  passes := u.passes
  slots := u.slots.map fun x => x.report

/-- R187's part of STATUS_GET. -/
def History.report (h : History) : HistoryStatus where
  entries := h.count
  urgentLength := h.urgent.length
  ordinaryLength := h.ordinary.length
  writing := h.writing.isSome
  forfeited := h.forfeited
  recency := h.recency
  roundRunning := h.round.isSome

/-- R197. -/
def State.statusReport (s : State) : StatusReport where
  cause := s.cause
  key := s.keys.report
  policyLock := s.keys.policyLock
  powerWarn := s.pins.powerWarn
  requested := s.bus.requested
  lanes := s.bus.lanes.map fun l => l.report
  heads := s.tally.heads
  tallyBadFrames := s.tally.badFrames
  idleEntries := s.tally.idleEntries
  handedOn := s.tally.handedOn
  level := s.sense.report
  history := s.history.report
  channels := s.channels.map fun ch => ⟨ch.state, ch.serving⟩
  slots := s.slots.map fun r => r.state
  notices := s.notices.queue.length
  dropped := s.notices.dropped
  nextSerial := s.notices.nextSerial
  badFrames := s.host.badFrames
  discardedPartials := s.host.discardedPartials
  busy := s.host.busy
  overruns := s.host.overruns

/-! ## SLOT_GET (R23) -/

def State.slotReport (s : State) (i : SlotId) : SlotReport :=
  let r := s.slot i
  { state := r.state
    channel := r.channel
    description := r.description
    quality := r.quality
    rejectReason := r.rejectReason
    faultReason := r.faultReason
    committed := r.committed
    uncommitted := r.uncommitted
    remaining := r.remaining
    band := r.band
    senseUnchecked := r.senseUnchecked
    levelDisagree := r.levelDisagree
    sensorFault := r.sensorFault
    tallyUncertain := s.slotTallyUncertain i }

/-! ## CHANNEL_GET (R136) -/

/-- R99, in seconds. -/
def State.timeToEmpty (s : State) (c : ChannelId) : Nat :=
  let v := (s.channel c).volume
  match (s.channel c).serving with
  | none => 0
  | some i =>
    if v.lastWindowFlow = 0 then 65535
    else min 65535 ((s.slot i).remaining * v.lastWindowLength.getD 0 / (v.lastWindowFlow * 1000))

/-- R100. -/
def State.volumeReport (s : State) (c : ChannelId) : VolumeReport :=
  let v := (s.channel c).volume
  { totalCharged := v.totalCharged
    chargedToSlots := v.chargedToSlots
    unattributed := v.unattributed
    overdraw := v.overdraw
    unreservedDraw := v.unreservedDraw
    uncorrected := v.uncorrected
    clamped := v.clamped
    lastWindowFlow := v.lastWindowFlow
    windowLength := v.windowLength
    peakFlow := v.peakFlow
    peakArmed := v.peakArmed
    flowExcess := (s.channel c).flowExcess
    timeToEmpty := s.timeToEmpty c }

/-- One reservation of the summary (R152), with the time left on the model's clock (log entry 1). -/
def Reservation.report (r : Reservation) (now : Nat) : ReservationReport where
  id := r.id
  state := r.state
  size := r.size
  drawn := r.drawn
  split := r.split
  timeLeft := r.wait.map fun w => w.startedAt + w.limit - now

/-- R152. -/
def State.reservationSummary (s : State) (c : ChannelId) : ReservationSummary :=
  let ch := s.channel c
  { list := ch.reservations.map fun r => r.report s.clockMs
    granted := ch.granted.length
    waiting := ch.waiting.length
    outstanding := ch.outstanding
    available := s.available c
    stall := ch.stall
    lastId := ch.lastId }

/-- R136: the reply shows the channel as it stands when the request is taken. -/
def State.channelReport (s : State) (c : ChannelId) : ChannelReport :=
  let ch := s.channel c
  { state := ch.state
    settings := ch.settings
    pair := ch.pair
    serving := ch.serving
    target := ch.target
    tallyUncertain := ch.tallyUncertain
    flowExcess := ch.flowExcess
    unreservedDraw := ch.unreservedDraw
    splitLast := ch.splitLast
    servingReport := ch.serving.map fun i => ⟨(s.slot i).remaining, (s.slot i).perMille, s.bandNow i⟩
    volume := s.volumeReport c
    reservations := s.reservationSummary c }

/-! ## HISTORY_GET (R187) -/

/-- The place a request names: an index or a serial. -/
def State.namedPlace (s : State) : HistoryName → Option PlaceId
  | .index n => placeOf n
  | .serial serial => s.findEntry serial
  | .badSelector => none

/-- The index check of R187 and R188: an index above 63. -/
def indexOutOfRange : HistoryName → Bool
  | .index n => 63 < n
  | .serial _ | .badSelector => false

/-- A name answered BAD_ARGUMENT: an index above 63, or a selector that is neither INDEX nor SERIAL, a malformed field
(Table 11-2; log entry 45). -/
def malformedName (name : HistoryName) : Bool :=
  indexOutOfRange name || name = .badSelector

/-- Where a place stands with the store queue (R187; log entry 42). -/
def History.standing (h : History) (p : PlaceId) : StoreStanding :=
  if p ∈ h.urgent then .urgent
  else if p ∈ h.ordinary then .ordinary
  else match h.writing with
    | some w => if w.place = p then .writing else .none
    | none => .none

/-- R187: the reply for the entry of a place. -/
def State.historyReport (s : State) (p : PlaceId) (e : HistoryEntry) : HistoryReport where
  place := p
  entry := e
  seatedIn := s.seatedIn e.serial
  standing := s.history.standing p
  entries := s.history.count
  forfeited := s.history.forfeited

end Sys2Proof.Machine
end

