-- ==== Sys2Proof/Machine/Queries.lean ====
section
/-! DEFINITION. The reading requests: STATUS_GET, SLOT_GET, CHANNEL_GET, HISTORY_GET and PROTECTION_GET. -/

namespace Sys2Proof.Machine

/-- STATUS_GET (R197). -/
def execStatusGet (tag : Byte) (body : Body Unit) (s : State) : Result :=
  .next (s.request 0x01 tag body fun _ s => (s, ⟨.ok, .status s.statusReport⟩))

/-- SLOT_GET (R23). -/
def execSlotGet (tag : Byte) (body : Body Nat) (s : State) : Result :=
  .next (s.request 0x02 tag body fun n s =>
    match slotOf n with
    | none => (s, only .badArgument)
    | some i => (s, ⟨.ok, .slot (s.slotReport i)⟩))

/-- What taking a CHANNEL_GET changes: TALLY_UNCERTAIN is cleared (R75) and the peak re-armed (R97). -/
def State.channelRead (s : State) (c : ChannelId) : State :=
  s.updChannel c fun ch =>
    { ch with tallyUncertain := false, volume := { ch.volume with peakFlow := 0, peakArmed := true } }

/-- CHANNEL_GET (R136). -/
def execChannelGet (tag : Byte) (body : Body Nat) (s : State) : Result :=
  .next (s.request 0x03 tag body fun n s =>
    match channelOf n with
    | none => (s, only .badArgument)
    | some c => (s.channelRead c, ⟨.ok, .channel (s.channelReport c)⟩))

/-- R187: what HISTORY_GET answers. -/
def State.historyAnswer (s : State) (name : HistoryName) : Answer :=
  if malformedName name then only .badArgument
  else match s.namedPlace name with
    | none => only .unknownId
    | some p =>
      match s.place p with
      | none => only .unknownId
      | some e => ⟨.ok, .history (s.historyReport p e)⟩

/-- HISTORY_GET (R187). -/
def execHistoryGet (tag : Byte) (body : Body HistoryName) (s : State) : Result :=
  .next (s.request 0x04 tag body fun name s => (s, s.historyAnswer name))

/-- PROTECTION_GET (R47): the reply carries the record, which is emptied. -/
def execProtectionGet (tag : Byte) (body : Body Unit) (s : State) : Result :=
  .next (s.request 0x05 tag body fun _ s =>
    ({ s with bus := { s.bus with protection := ⟨0, none⟩ } },
      ⟨.ok, .protection s.bus.protection.count s.bus.protection.first⟩))

end Sys2Proof.Machine
end

