-- ==== Sys2Proof/Machine/StoreRequests.lean ====
section
/-! DEFINITION. HISTORY_CLEAR, KEY_PROVISION, POLICY_LOCK, NOTICE_GET, NOTICE_MASK_SET, SETTINGS_SAVE and RESET, and the
ends of the nonvolatile writes. -/

namespace Sys2Proof.Machine

/-! ## HISTORY_CLEAR (R188) -/

/-- An accepted clear: the pending charge is forfeited and the place becomes empty. -/
def State.clearPlace (s : State) (p : PlaceId) (e : HistoryEntry) : State :=
  (s.forfeit e.pendingCharge).writePlace p none false

/-- Checks 3 and 4 of R188, and the clear. -/
def State.clearNamed (s : State) (name : HistoryName) : State × Answer :=
  match s.namedPlace name with
  | none => (s, only .unknownId)
  | some p =>
    match s.place p with
    | none => (s, only .unknownId)
    | some e =>
      if (s.seatedIn e.serial).isSome then (s, only .wrongState)
      else (s.clearPlace p e, ⟨.ok, .cleared e.serial (e.pendingCharge.getD 0)⟩)

/-- R188, in its order. The lock comes before every other refusal but that of an index above 63 (R64), that of a
selector which names neither an index nor a serial among them (log entry 45). -/
def serveHistoryClear (name : HistoryName) (s : State) : State × Answer :=
  if indexOutOfRange name then (s, only .badArgument)
  else if s.keys.policyLock then (s.violation (.locked 0x16), only .locked)
  else if malformedName name then (s, only .badArgument)
  else s.clearNamed name

/-- HISTORY_CLEAR (R188). -/
def execHistoryClear (tag : Byte) (body : Body HistoryName) (s : State) : Result :=
  .next (s.request 0x16 tag body serveHistoryClear).settle

/-! ## KEY_PROVISION (R61, R62) and POLICY_LOCK (R63) -/

/-- R17: a slot rejected AUTH_UNAVAILABLE restarts. -/
def State.restartSlot (s : State) (i : SlotId) : State :=
  s.seat i fun r => { r with description := none, rejectReason := none }

/-- The slots the restart concerns, in slot order: R17 and R61 give no order among them (log entry 43). -/
def State.awaitingKey (s : State) : List SlotId :=
  (List.finRange 16).filter fun i =>
    (s.slot i).state = .rejected && (s.slot i).rejectReason = some .authUnavailable

/-- R61: the key is loaded, the cell write starts, and the slots are restarted. -/
def State.provision (s : State) (key : Word128) : State :=
  let s := { s with keys := { s.keys with state := .provisioned key, writing := some key } }
  s.awaitingKey.foldl (fun s i => s.restartSlot i) s

/-- R61. A key of all 0 or all 1 in PROVISIONED or DAMAGED meets two refusals, whose order R61 does not state:
BAD_ARGUMENT comes first (log entry 44). -/
def serveKeyProvision (key : Word128) (s : State) : State × Answer :=
  if key = 0 ∨ key = BitVec.allOnes 128 then (s, only .badArgument)
  else match s.keys.state with
    | .unprovisioned => (s.provision key, only .ok)
    | _ => (s, only .locked)

/-- KEY_PROVISION (R61). -/
def execKeyProvision (tag : Byte) (body : Body Word128) (s : State) : Result :=
  .next (s.request 0x17 tag body serveKeyProvision).settle

/-- KEY_CELL_WRITE_DONE (R62): the cell holds the key. -/
def execKeyCellWriteDone (s : State) : Result :=
  .next (match s.keys.writing with
    | some key => { s with keys := { s.keys with cell := .written key, writing := none } }
    | none => s)

/-- POLICY_LOCK (R63). -/
def execPolicyLock (tag : Byte) (body : Body Unit) (s : State) : Result :=
  .next (s.request 0x18 tag body fun _ s =>
    ({ s with keys := { s.keys with policyLock := true } }, only .ok))

/-! ## NOTICE_GET (R200) and NOTICE_MASK_SET (R201) -/

/-- R200: the oldest notices are removed, the dropped count set to 0; ATTN follows the queue (R199). -/
def NoticeUnit.collected (u : NoticeUnit) (n : Nat) : NoticeUnit :=
  { u with queue := u.queue.drop n, dropped := 0, attn := !(u.queue.drop n).isEmpty }

def serveNoticeGet (maximum : Nat) (s : State) : State × Answer :=
  let n := noticesTaken maximum
  let fields : ReplyFields :=
    .notices (if n = maximum then none else some n) (s.notices.queue.take n) (s.notices.queue.drop n).length
      s.notices.dropped
  ({ s with notices := s.notices.collected n }, ⟨if n = maximum then .ok else .clamped, fields⟩)

/-- NOTICE_GET (R200). -/
def execNoticeGet (tag : Byte) (body : Body Nat) (s : State) : Result :=
  .next (s.request 0x19 tag body serveNoticeGet)

/-- NOTICE_MASK_SET (R201). -/
def execNoticeMaskSet (tag : Byte) (body : Body (BitVec 32)) (s : State) : Result :=
  .next (s.request 0x1A tag body fun mask s =>
    ({ s with notices := { s.notices with mask := mask.setWidth 18 } }, ⟨.ok, .mask (mask.setWidth 18)⟩))

/-! ## SETTINGS_SAVE (R202) -/

/-- Every setting of section 11.4, as it stands (log entry 41). -/
def State.settingsImage (s : State) : SettingsImage where
  channels := s.channels.map fun ch => ⟨ch.settings, ch.pair, ch.state ≠ .idle⟩
  scanList := s.sense.list
  pause := s.sense.pause
  debounceTime := s.debounceTime
  calibrations := s.sense.slots.map fun u => ⟨u.offset, u.gain⟩
  windows := s.bus.windows
  tableA := s.bus.tableA
  tableB := s.bus.tableB
  requested := s.bus.requested
  noticeMask := s.notices.mask

/-- The copy not in force; copy 0 when neither is (log entry 25). -/
def SettingsStore.target (st : SettingsStore) : Fin 2 :=
  match st.inForce with
  | some k => 1 - k
  | none => 0

/-- The save count of the copy written: one above the count of the copy in force, with 0 following 4,294,967,295, or 0
when no copy is in force. -/
def SettingsStore.nextCount (st : SettingsStore) : Nat :=
  match st.inForce with
  | some k => match st.copies[k.val] with
    | some c => (c.saveCount + 1) % (Config.maxU32 + 1)
    | none => 0
  | none => 0

/-- R202: the write starts. The reply comes at its end. -/
def State.startSave (s : State) (tag : Byte) : State :=
  { s with store := { s.store with
      saving := some ⟨s.store.target, ⟨s.store.nextCount, s.settingsImage⟩, tag⟩ } }

/-- SETTINGS_SAVE (R202). -/
def execSettingsSave (tag : Byte) (body : Body Unit) (s : State) : Result :=
  .next (if s.host.working then s.updHost fun h => h.answerBusy 0x1B tag
    else match body with
      | .wrongLength => s.beginRequest.sendReply 0x1B tag (only .badArgument)
      | .fields _ => s.beginRequest.startSave tag)

/-- SETTINGS_SAVE_WRITE_DONE (R202): the new copy is whole and in force, and the reply is sent. -/
def execSettingsSaveWriteDone (s : State) : Result :=
  .next (match s.store.saving with
    | some w =>
      { s with store :=
          { copies := s.store.copies.set w.target.val (some w.copy) w.target.isLt
            inForce := some w.target
            saving := none } }.sendReply 0x1B w.tag (only .ok)
    | none => s)

/-! ## RESET (R204) -/

/-- R191: the preservation writes are placed urgent, and the reset waits for the write in progress and for every index
that then stands in the queue. A preservation round that is running goes on until the reset takes effect (R190; log
entry 52). -/
def State.prepareReset (s : State) : State :=
  let s := s.preserveAll
  { s with
    preparation := some ⟨false, s.history.urgent ++ s.history.ordinary⟩
    history := { s.history with writing := s.history.writing.map fun w => { w with forReset := true } } }

/-- RESET (R204). -/
def execReset (tag : Byte) (body : Body Unit) (s : State) : Result :=
  .next (s.request 0x1C tag body fun _ s => (s.prepareReset, only .ok)).settle

/-! ## HISTORY_WRITE_DONE (R186, R190) -/

/-- R190: the round's index is written; the last one completes the round, with POWER_PRESERVED. -/
def State.roundWritten (s : State) (p : PlaceId) : State :=
  match s.history.round with
  | none => s
  | some r =>
    let remaining := r.remaining.erase p
    if remaining.isEmpty then
      (s.updHistory fun h => { h with round := none }).raise (.powerPreserved r.size)
    else s.updHistory fun h => { h with round := some { r with remaining := remaining } }

/-- A write completes: the image takes the content copied at its start. -/
def State.historyWritten (s : State) : State :=
  match s.history.writing with
  | none => s
  | some w =>
    let s := s.updHistory fun h =>
      { h with image := modifyAt h.image w.place fun _ => w.content, writing := none }
    if w.forRound then s.roundWritten w.place else s

/-- HISTORY_WRITE_DONE (R186, R190). -/
def execHistoryWriteDone (s : State) : Result := .next s.historyWritten.settle

end Sys2Proof.Machine
end

