-- ==== Sys2Proof/Machine/Resets.lean ====
section
/-! DEFINITION. POWER_WARN (R41, R116, R161, R189) and the three resets (R24, R48, R67, R79, R101, R118, R137, R153, R171,
R186, R192, R203 to R205). -/

namespace Sys2Proof.Machine

/-! ## POWER_WARN -/

/-- R189: the preservation round starts; an empty one completes at once (R190). -/
def State.startRound (s : State) : State :=
  let set := s.preservedPlaces
  let s := (s.updHistory fun h =>
    { h with
      round := some ⟨set, set.length⟩
      writing := h.writing.map fun w => { w with forRound := false } }).preserveAll
  if set.isEmpty then (s.updHistory fun h => { h with round := none }).raise (.powerPreserved 0) else s

/-- R116: the forced trigger of every slot, in slot order. -/
def State.triggerEvery (s : State) : State :=
  (List.finRange 16).foldl (fun s i => s.forcedTrigger i) s

def State.setPowerWarn (s : State) (level : Bool) : State :=
  { s with pins := { s.pins with powerWarn := level } }

/-- POWER_WARN_ASSERT (R189, R116, R41, R161; log entry 15). -/
def execPowerWarnAssert (s : State) : Result :=
  .next (if s.pins.powerWarn then s
    else (((s.setPowerWarn true).startRound).triggerEvery).haltScan.settle)

/-- POWER_WARN_DEASSERT (R41, R161). -/
def execPowerWarnDeassert (s : State) : Result :=
  .next (if s.pins.powerWarn then (s.setPowerWarn false).resumeScan.settle else s)

/-! ## What a reset loads -/

/-- The rate the straps select (R193). -/
def rateOf (baud1 baud0 : Bool) : Nat :=
  match baud1, baud0 with
  | false, false => 115200
  | false, true => 921600
  | true, false => 2000000
  | true, true => 3000000

/-- The copies that pass their check: a copy that fails, or whose write the reset cuts off, is none (R202, R203). -/
def SettingsStore.sound (st : SettingsStore) (check : Vector Bool 2) : Vector (Option SettingsCopy) 2 :=
  Vector.ofFn fun k =>
    let interrupted := match st.saving with
      | some w => w.target = k
      | none => false
    if check[k.val] && !interrupted then st.copies[k.val] else none

/-- One save count is one above another, with 0 following 4,294,967,295 (R203). -/
def oneAbove (a b : Nat) : Bool := a = (b + 1) % (Config.maxU32 + 1)

/-- R203: the copy in force among the sound ones; two that are not one above the other give none (log entry 25). -/
def copyInForce (copies : Vector (Option SettingsCopy) 2) : Option (Fin 2) :=
  match copies[0], copies[1] with
  | some a, some b =>
    if oneAbove a.saveCount b.saveCount then some 0
    else if oneAbove b.saveCount a.saveCount then some 1
    else none
  | some _, none => some 0
  | none, some _ => some 1
  | none, none => none

/-- The settings the blocks take: the copy in force, or the defaults (R203). -/
def loadedImage (copies : Vector (Option SettingsCopy) 2) : SettingsImage :=
  match copyInForce copies with
  | some k => match copies[k.val] with
    | some c => c.image
    | none => defaultImage
  | none => defaultImage

/-- R65: a host reset under the policy lock keeps the refill policies and the windows. -/
def State.frozen (s : State) (image : SettingsImage) : SettingsImage :=
  { image with
    windows := s.bus.windows
    channels := Vector.ofFn fun c =>
      let saved := image.channels[c.val]
      { saved with settings := { saved.settings with refillPolicy := (s.channel c).settings.refillPolicy } } }

/-- The Key Store state that its cell gives (R59; log entry 37). -/
def KeyCell.read : KeyCell → KeyState
  | .blank => .unprovisioned
  | .written root => .provisioned root
  | .damaged => .damaged

/-- R59, R63, R65: a host reset keeps the Key Store and the lock; a power-on or pin reset reads the cell, cuts off a
write in progress and clears the lock. -/
def KeyStore.afterReset (k : KeyStore) (kind : ResetKind) : KeyStore :=
  match kind with
  | .host => k
  | _ => ⟨k.cell.read, k.cell, none, false⟩

/-- The highest stamp of a table, 0 when it is empty (R173). -/
def topStamp (places : Vector (Option HistoryEntry) 64) : Nat :=
  places.toList.foldl (fun n e => max n ((e.map fun x => x.stamp).getD 0)) 0

/-- R186, R192; a write in progress is cut off (log entry 26). -/
def History.afterReset (h : History) (check : Bool) : History :=
  let image := if check then h.image else Vector.replicate 64 none
  { places := image
    recency := topStamp image
    forfeited := 0
    urgent := []
    ordinary := []
    writing := none
    round := none
    image := image }

/-- R48. -/
def busAfterReset (image : SettingsImage) : Bus where
  lanes := Vector.replicate 4 (resetLane image.requested)
  tableA := image.tableA
  tableB := image.tableB
  requested := image.requested
  windows := image.windows
  wanted := Vector.replicate 16 noMarks
  lastTicket := 0
  protection := ⟨0, none⟩

/-- R171. -/
def senseAfterReset (image : SettingsImage) (powerWarn : Bool) : LevelSense where
  list := image.scanList
  pause := image.pause
  pendingScan := none
  scan := if powerWarn then .halted else if image.scanList.isEmpty then .pausing else .running
  pauseTimer := none
  position := 0
  passConverted := false
  conversion := none
  run := none
  injected := []
  heldAdmissions := []
  reference := .unread
  lastReference := none
  deferred := 0
  passes := 0
  slots := image.calibrations.map resetSlotSense

/-- The image a reset of a kind takes its settings from (R65, R203). -/
def State.imageTaken (s : State) (kind : ResetKind) (inputs : ResetInputs) : SettingsImage :=
  let image := loadedImage (s.store.sound inputs.copyCheck)
  if kind = .host ∧ s.keys.policyLock = true then s.frozen image else image

/-- Every block at its values for a reset of the kind, with what the inputs and the nonvolatile images give. The
model's own fields (the queue, the clock, the counts of free values) go on. -/
def State.afterReset (s : State) (kind : ResetKind) (inputs : ResetInputs) : State :=
  let copies := s.store.sound inputs.copyCheck
  let inForce := copyInForce copies
  let image := s.imageTaken kind inputs
  let s' : State :=
    { s with
      pins := ⟨inputs.presence, inputs.powerWarn⟩
      host := resetHost (rateOf inputs.baud1 inputs.baud0)
      notices := ⟨image.noticeMask, [], 0, 0, false⟩
      cause := ⟨kind, !inputs.historyCheck, inForce.isNone⟩
      preparation := none
      store := ⟨copies, inForce, none⟩
      slots := Vector.ofFn fun i => vacantSlot (namingChannel (fun c => image.channels[c.val].pair) i)
      debounce := inputs.presence.map fun level => if level then some image.debounceTime else none
      debounceTime := image.debounceTime
      bus := busAfterReset image
      engine := ⟨none, [], []⟩
      keys := s.keys.afterReset kind
      tally := ⟨Vector.replicate 4 resetHead, 0, 0, 0, inputs.tstrobe, []⟩
      channels := image.channels.map resetChannel
      commits := Vector.replicate 16 initialCommit
      sense := senseAfterReset image inputs.powerWarn
      history := s.history.afterReset inputs.historyCheck }
  (if inForce.isNone then s'.raise .settingsDefaulted else s').settle

/-- POWER_ON_RESET (R24). -/
def execPowerOnReset (inputs : ResetInputs) (s : State) : Result := .next (s.afterReset .powerOn inputs)

/-- PIN_RESET (R24). -/
def execPinReset (inputs : ResetInputs) (s : State) : Result := .next (s.afterReset .pin inputs)

/-- R204: the reply has been sent, and the writes the reset waits for have been made, the key write among them. -/
def State.resetPrepared (s : State) : Bool :=
  match s.preparation with
  | some p =>
    p.replySent && p.waits.isEmpty && s.keys.writing.isNone &&
      !(match s.history.writing with
        | some w => w.forReset
        | none => false)
  | none => false

/-- HOST_RESET (R204); before its preparation has ended it cannot take effect (log entry 31). -/
def execHostReset (inputs : ResetInputs) (s : State) : Result :=
  .next (if s.resetPrepared then s.afterReset .host inputs else s)

end Sys2Proof.Machine
end

