-- ==== Sys2Proof/Machine/SenseRequests.lean ====
section
/-! DEFINITION. The requests of the Level Sense Unit: SENSE, SCAN_SET and SENSOR_CAL. -/

namespace Sys2Proof.Machine

/-! ## SENSE (R158) -/

def serveSense (n : Nat) (s : State) : State × Answer :=
  match slotOf n with
  | none => (s, only .badArgument)
  | some i =>
    if (s.slot i).state = .vacant then (s, only .wrongState)
    else match s.placeRequest i ⟨false, true⟩ with
      | some s => (s, ⟨.queued, .position (s.requestPosition i)⟩)
      | none => (s, only .full)

/-- SENSE (R158). -/
def execSense (tag : Byte) (body : Body Nat) (s : State) : Result :=
  .next (s.request 0x0E tag body serveSense).settle

/-! ## SCAN_SET (R155, R9) -/

/-- R155: the new list and pause: in force at once with the scan HALTED or with an empty list in force (R156),
otherwise pending (log entry 32). -/
def State.setScan (s : State) (list : List Source) (pause : Nat) : State :=
  match s.sense.scan with
  | .halted =>
    s.updSense fun u =>
      { u with list := list, pause := pause, pendingScan := none, position := 0, passConverted := false }
  | _ =>
    if s.sense.list.isEmpty then
      (s.updSense fun u => { u with list := list, pause := pause, pendingScan := none }).beginPass
    else s.updSense fun u => { u with pendingScan := some ⟨list, pause⟩ }

/-- The list, the pause and the debounce time (R155, R9); a CLAMPED reply carries the last two (log entry 54). -/
def serveScanSet (f : ScanSetFields) (s : State) : State × Answer :=
  match scanListOf f.sources with
  | none => (s, only .badArgument)
  | some list =>
    let pause := pauseTaken f.pause
    let debounce := debounceTaken f.debounce
    ({ s with debounceTime := debounce }.setScan list pause,
      if pause = f.pause ∧ debounce = f.debounce then only .ok else ⟨.clamped, .scanTaken pause debounce⟩)

/-- SCAN_SET (R155, R9). -/
def execScanSet (tag : Byte) (body : Body ScanSetFields) (s : State) : Result :=
  .next (s.request 0x0F tag body serveScanSet).settle

/-! ## SENSOR_CAL (R163) -/

/-- A run of the slot in progress is abandoned (R159, R163; log entry 22). -/
def State.abandonRunOf (s : State) (i : SlotId) : State :=
  match s.sense.run with
  | some r => if r.request.slot = i then s.abandonRun else s
  | none => s

/-- R163: the new values; when either changes, the ring is emptied and the rise and deficit counts become 0. -/
def SlotSense.calibrated (u : SlotSense) (offset : Int) (gain : Nat) : SlotSense :=
  if u.offset = offset ∧ u.gain = gain then u
  else { u with offset := offset, gain := gain, ring := [], rise := 0, deficit := 0 }

def serveSensorCal (f : SensorCalFields) (s : State) : State × Answer :=
  match slotOf f.slot with
  | none => (s, only .badArgument)
  | some i =>
    let offset := offsetTaken f.offset
    let gain := gainTaken f.gain
    ((s.updSlotSense i fun u => u.calibrated offset gain).abandonRunOf i,
      if offset = f.offset ∧ gain = f.gain then only .ok else ⟨.clamped, .calibrationTaken offset gain⟩)

/-- SENSOR_CAL (R163). -/
def execSensorCal (tag : Byte) (body : Body SensorCalFields) (s : State) : Result :=
  .next (s.request 0x10 tag body serveSensorCal).settle

end Sys2Proof.Machine
end

