-- ==== Sys2Proof/Machine/SlotEvents.lean ====
section
/-! DEFINITION. The presence inputs and the debounce timers: PRESENCE_GAIN, PRESENCE_LOSS_DURING_DEBOUNCE,
SEAT_DEBOUNCE_EXPIRY (R8, R10) and REMOVAL (R21, R117). -/

namespace Sys2Proof.Machine

def State.setPresence (s : State) (i : SlotId) (level : Bool) : State :=
  { s with pins := { s.pins with presence := modifyAt s.pins.presence i fun _ => level } }

def State.setDebounce (s : State) (i : SlotId) (timer : Option Nat) : State :=
  { s with debounce := modifyAt s.debounce i fun _ => timer }

/-- The slot's debounce timer. -/
def State.debounceOf (s : State) (i : SlotId) : Option Nat := s.debounce[i.val]

/-- R8: a gain on a VACANT slot starts the timer, or restarts it, from the full time. -/
def State.presenceGained (s : State) (i : SlotId) : State :=
  let s := s.setPresence i true
  if (s.slot i).state = .vacant then s.setDebounce i (some s.debounceTime) else s

/-- PRESENCE_GAIN (R8). -/
def execPresenceGain (i : SlotId) (s : State) : Result := .next (s.presenceGained i)

/-- R8: a loss before the timer expires cancels it; the slot stays VACANT. -/
def State.debounceCancelled (s : State) (i : SlotId) : State := (s.setPresence i false).setDebounce i none

/-! ## Removal -/

/-- The Level Sense Unit's part (R21, R162, R165, R168, R169). -/
def State.removeSamples (s : State) (i : SlotId) : State :=
  (s.removeSensing i).updSlotSense i fun u => { u with ring := [], goodRun := 0, rise := 0, deficit := 0 }

/-- The Commit Unit's and the History Unit's part, for a slot that has passed reconciliation (R21, R109, R173). -/
def State.removeAccounts (s : State) (i : SlotId) : State :=
  if (s.slot i).reconciled then
    match s.entryOf i with
    | some p =>
      let s := (s.preserve i false).roomForStamp.stampTaken
      s.editEntry p (fun e => { e with lastSlot := i, stamp := s.history.recency }) false
    | none => s
  else s

/-- The Slot Record takes its VACANT values, the channel field kept (R21). -/
def SlotRecord.removed (r : SlotRecord) : SlotRecord := vacantSlot r.channel

/-- The Channel Controller's part and the entry into VACANT with SLOT_CHANGED (R21, R131, R132; log entry 19): a slot
that was serving fails over first. -/
def State.vacate (s : State) (i : SlotId) : State :=
  let previous := (s.slot i).state
  let s := (s.updSlot i SlotRecord.removed).updCommit i fun _ => initialCommit
  let gone := slotChangedNotice i previous (s.slot i)
  match (s.slot i).channel with
  | some c =>
    if (s.channel c).serving = some i then (s.failover c i .removed).raise gone
    else (s.raise gone).targetTest c
  | none => s.raise gone

/-- R21: the removal of a cartridge. -/
def State.removal (s : State) (i : SlotId) : State :=
  ((((s.setPresence i false).removeWork i).removeSamples i).removeAccounts i).vacate i

/-- A loss of presence: in VACANT it cancels the timer (R8), in any other state it is a removal (R21). -/
def State.presenceLost (s : State) (i : SlotId) : State :=
  if (s.slot i).state = .vacant then s.debounceCancelled i else s.removal i

/-- REMOVAL (R21). On a VACANT slot it is a loss during debounce (log entry 4). -/
def execRemoval (i : SlotId) (s : State) : Result := .next (s.presenceLost i).settle

/-- PRESENCE_LOSS_DURING_DEBOUNCE (R8). On a slot that is not VACANT it is a removal (log entry 4). -/
def execPresenceLossDuringDebounce (i : SlotId) (s : State) : Result := .next (s.presenceLost i).settle

/-! ## Debounce expiry -/

/-- R10: the timer expires with presence held: SEATING, and READING when a pair names the slot. -/
def State.debounceExpired (s : State) (i : SlotId) : State :=
  if (s.debounceOf i).isSome ∧ (s.slot i).state = .vacant then (s.setDebounce i none).seat i id else s

/-- SEAT_DEBOUNCE_EXPIRY (R10). -/
def execSeatDebounceExpiry (i : SlotId) (s : State) : Result := .next (s.debounceExpired i).settle

end Sys2Proof.Machine
end

