-- ==== Sys2Proof/Machine/TimerEvents.lean ====
section
/-! DEFINITION. Ends of times (log entry 2): CONVERSION_COMPLETE (R154), SCAN_PAUSE_EXPIRY (R156), FLOW_WINDOW_EXPIRY (R96) and
WAIT_TIMER_EXPIRY (R145). -/

namespace Sys2Proof.Machine

/-- CONVERSION_COMPLETE (R154). -/
def execConversionComplete (raw : Nat) (s : State) : Result :=
  .next (match s.sense.conversion with
    | some c => (s.conversionDone c raw).settle
    | none => s)

/-- SCAN_PAUSE_EXPIRY (R155, R156): a pending SCAN_SET is taken up, and a pass begins. -/
def execScanPauseExpiry (s : State) : Result :=
  .next (if s.sense.scan = .pausing ∧ s.sense.pauseTimer.isSome = true then s.takeUpScan.beginPass.settle else s)

/-- R98: the flow ceiling is tested on a window just completed. -/
def State.ceilingTest (s : State) (c : ChannelId) (length : Nat) : State :=
  let ch := s.channel c
  let exceeds := flowExceeds ch.volume.lastWindowFlow ch.settings.flowCeiling
  let s := s.updChannel c fun ch => { ch with flowExcess := exceeds }
  if exceeds ∧ ch.flowExcess = false then
    s.raise (.flowExcess c ch.volume.lastWindowFlow ch.settings.flowCeiling length)
  else s

/-- R96: a channel's flow window expires, and the next one opens. -/
def State.windowExpired (s : State) (c : ChannelId) : State :=
  let length := (s.channel c).volume.windowLength
  (s.updVolume c fun v => v.closeWindow (s.channel c).settings.flowWindow).ceilingTest c length

/-- FLOW_WINDOW_EXPIRY (R96); an IDLE channel has no window running (R95). -/
def execFlowWindowExpiry (c : ChannelId) (s : State) : Result :=
  .next (if (s.channel c).state = .idle then s else s.windowExpired c)

/-- R145: a waiting reservation's time runs out. -/
def State.waitExpired (s : State) (c : ChannelId) (r : Reservation) : State :=
  let ch := s.channel c
  let wasHead := decide ((ch.waiting.head?.map fun h => h.id) = some r.id)
  ((s.leaveList c r.id).raise (.reservationExpired c r.id r.size wasHead ch.stall)).afterLeaving c

/-- WAIT_TIMER_EXPIRY (R145); a reservation that does not wait has no timer. -/
def execWaitTimerExpiry (c : ChannelId) (id : Nat) (s : State) : Result :=
  .next (match (s.channel c).findReservation id with
    | some r => if r.isGranted then s else (s.waitExpired c r).settle
    | none => s)

end Sys2Proof.Machine
end

