-- ==== Sys2Proof/Machine/Dispatch.lean ====
section
/-! DEFINITION. Each command to its meaning: one arm per row of spec/opcode_table.json, in the table's order. -/

namespace Sys2Proof.Machine

def exec (i : Instr) (s : State) : Host.Outcome State Fault Refusal :=
  match i with
  | .powerOnReset inputs => Sys2Proof.Machine.execPowerOnReset inputs s
  | .pinReset inputs => Sys2Proof.Machine.execPinReset inputs s
  | .hostReset inputs => Sys2Proof.Machine.execHostReset inputs s
  | .powerWarnAssert => Sys2Proof.Machine.execPowerWarnAssert s
  | .powerWarnDeassert => Sys2Proof.Machine.execPowerWarnDeassert s
  | .presenceGain slot => Sys2Proof.Machine.execPresenceGain slot s
  | .removal slot => Sys2Proof.Machine.execRemoval slot s
  | .seatDebounceExpiry slot => Sys2Proof.Machine.execSeatDebounceExpiry slot s
  | .badFrame => Sys2Proof.Machine.execBadFrame s
  | .oversizedLength => Sys2Proof.Machine.execOversizedLength s
  | .partialFrameGapExpiry => Sys2Proof.Machine.execPartialFrameGapExpiry s
  | .missingStopBit midFrame => Sys2Proof.Machine.execMissingStopBit midFrame s
  | .busyAnswer kind tag => Sys2Proof.Machine.execBusyAnswer kind tag s
  | .unknownKind kind tag => Sys2Proof.Machine.execUnknownKind kind tag s
  | .hostFrameTransmitted => Sys2Proof.Machine.execHostFrameTransmitted s
  | .statusGet tag body => Sys2Proof.Machine.execStatusGet tag body s
  | .slotGet tag body => Sys2Proof.Machine.execSlotGet tag body s
  | .channelGet tag body => Sys2Proof.Machine.execChannelGet tag body s
  | .historyGet tag body => Sys2Proof.Machine.execHistoryGet tag body s
  | .protectionGet tag body => Sys2Proof.Machine.execProtectionGet tag body s
  | .channelSet tag body => Sys2Proof.Machine.execChannelSet tag body s
  | .channelEnable tag body => Sys2Proof.Machine.execChannelEnable tag body s
  | .channelDisable tag body => Sys2Proof.Machine.execChannelDisable tag body s
  | .supplyMapSet tag body => Sys2Proof.Machine.execSupplyMapSet tag body s
  | .reserve tag body => Sys2Proof.Machine.execReserve tag body s
  | .release tag body => Sys2Proof.Machine.execRelease tag body s
  | .serviceDraw tag body => Sys2Proof.Machine.execServiceDraw tag body s
  | .commitNow tag body => Sys2Proof.Machine.execCommitNow tag body s
  | .sense tag body => Sys2Proof.Machine.execSense tag body s
  | .scanSet tag body => Sys2Proof.Machine.execScanSet tag body s
  | .sensorCal tag body => Sys2Proof.Machine.execSensorCal tag body s
  | .scheduleLoad tag body => Sys2Proof.Machine.execScheduleLoad tag body s
  | .scheduleSelect tag body => Sys2Proof.Machine.execScheduleSelect tag body s
  | .windowSet tag body => Sys2Proof.Machine.execWindowSet tag body s
  | .tagRead tag body => Sys2Proof.Machine.execTagRead tag body s
  | .tagWrite tag body => Sys2Proof.Machine.execTagWrite tag body s
  | .historyClear tag body => Sys2Proof.Machine.execHistoryClear tag body s
  | .keyProvision tag body => Sys2Proof.Machine.execKeyProvision tag body s
  | .policyLock tag body => Sys2Proof.Machine.execPolicyLock tag body s
  | .noticeGet tag body => Sys2Proof.Machine.execNoticeGet tag body s
  | .noticeMaskSet tag body => Sys2Proof.Machine.execNoticeMaskSet tag body s
  | .settingsSave tag body => Sys2Proof.Machine.execSettingsSave tag body s
  | .reset tag body => Sys2Proof.Machine.execReset tag body s
  | .settingsSaveWriteDone => Sys2Proof.Machine.execSettingsSaveWriteDone s
  | .tallyFrame levels now => Sys2Proof.Machine.execTallyFrame levels now s
  | .laneReply lane frame => Sys2Proof.Machine.execLaneReply lane frame s
  | .replyTimeout lane => Sys2Proof.Machine.execReplyTimeout lane s
  | .busyHoldOffExpiry lane => Sys2Proof.Machine.execBusyHoldOffExpiry lane s
  | .digestJobComplete place => Sys2Proof.Machine.execDigestJobComplete place s
  | .keyCellWriteDone => Sys2Proof.Machine.execKeyCellWriteDone s
  | .conversionComplete raw => Sys2Proof.Machine.execConversionComplete raw s
  | .scanPauseExpiry => Sys2Proof.Machine.execScanPauseExpiry s
  | .flowWindowExpiry channel => Sys2Proof.Machine.execFlowWindowExpiry channel s
  | .waitTimerExpiry channel id => Sys2Proof.Machine.execWaitTimerExpiry channel id s
  | .historyWriteDone => Sys2Proof.Machine.execHistoryWriteDone s
  | .presenceLossDuringDebounce slot => Sys2Proof.Machine.execPresenceLossDuringDebounce slot s
  | .tstrobeDeassertedAfterReset => Sys2Proof.Machine.execTstrobeDeassertedAfterReset s

end Sys2Proof.Machine
end

