-- ==== Sys2Proof/Machine/HostWire.lean ====
section
/-! DEFINITION. The host link's bytes (Tables 11-3, 11-7, R206): from a received byte to the command it completes, and from
an answer to the bytes of its frame. The widths and numberings R206 leaves open are those of log entry 30. -/

namespace Sys2Proof.Machine

/-! ## Request bodies: bytes to fields

Fields stand in the order in which the owning rule names them. -/

def readNone : List Byte → Body Unit
  | [] => .fields ()
  | _ => .wrongLength

def readU8 : List Byte → Body Nat
  | [b] => .fields b.toNat
  | _ => .wrongLength

/-- An optional one-byte number: a presence byte, 0 or 1 (log entry 6), and the number when present. -/
def readOptional : List Byte → Option (Option Nat × List Byte)
  | p :: rest =>
    match p.toNat, rest with
    | 0, rest => some (none, rest)
    | 1, b :: rest => some (some b.toNat, rest)
    | _, _ => none
  | [] => none

/-- HISTORY_GET and HISTORY_CLEAR: the selector, INDEX or SERIAL, with its place index or serial (R187);
another value is a malformed field, whatever follows it (log entry 45). -/
def readHistoryName : List Byte → Body HistoryName
  | selector :: rest =>
    match selector.toNat with
    | 0 => match rest with
      | [n] => .fields (.index n.toNat)
      | _ => .wrongLength
    | 1 => if rest.length = 8 then .fields (.serial (BitVec.ofNat 64 (natOf rest))) else .wrongLength
    | _ => .fields .badSelector
  | [] => .wrongLength

/-- The number in `length` bytes at `start`. -/
def fieldAt (b : List Byte) (start length : Nat) : Nat := natOf ((b.drop start).take length)

def signedAt (b : List Byte) (start length : Nat) : Int := intOf ((b.drop start).take length)

/-- CHANNEL_SET: the channel, then Table 7-2's settings in its order (R120). -/
def readChannelSet (b : List Byte) : Body ChannelSetFields :=
  if b.length = 42 then
    .fields
      { channel := fieldAt b 0 1
        settings :=
          { inkCode := fieldAt b 1 1
            weightSmall := fieldAt b 2 2
            weightMedium := fieldAt b 4 2
            weightLarge := fieldAt b 6 2
            beta := signedAt b 8 1
            referenceCode := fieldAt b 9 1
            lowLevel := fieldAt b 10 2
            veryLowLevel := fieldAt b 12 2
            switchLevel := fieldAt b 14 2
            commitStep := fieldAt b 16 4
            flowWindow := fieldAt b 20 2
            flowCeiling := fieldAt b 22 4
            upperThreshold := fieldAt b 26 4
            lowerThreshold := fieldAt b 30 4
            waitLimit := fieldAt b 34 2
            refillTolerance := fieldAt b 36 2
            deficitTolerance := fieldAt b 38 2
            persistence := fieldAt b 40 1
            refillPolicy := fieldAt b 41 1 } }
  else .wrongLength

def readSupplyMap : List Byte → Body SupplyMapFields
  | c :: rest =>
    match readOptional rest with
    | some (primary, rest) =>
      match readOptional rest with
      | some (alternate, []) => .fields ⟨c.toNat, primary, alternate⟩
      | _ => .wrongLength
    | none => .wrongLength
  | [] => .wrongLength

def readReserve (b : List Byte) : Body ReserveFields :=
  if b.length = 5 then .fields ⟨fieldAt b 0 1, fieldAt b 1 4⟩ else .wrongLength

def readRelease (b : List Byte) : Body ReleaseFields :=
  if b.length = 2 then .fields ⟨fieldAt b 0 1, fieldAt b 1 1⟩ else .wrongLength

def readServiceDraw (b : List Byte) : Body ServiceDrawFields :=
  if b.length = 5 then .fields ⟨fieldAt b 0 1, fieldAt b 1 4⟩ else .wrongLength

def readCommitNow (b : List Byte) : Body (Option Nat) :=
  match readOptional b with
  | some (slot, []) => .fields slot
  | _ => .wrongLength

def readScanSet : List Byte → Body ScanSetFields
  | n :: rest =>
    if rest.length = n.toNat + 3 then
      .fields ⟨(rest.take n.toNat).map BitVec.toNat, fieldAt rest n.toNat 2, fieldAt rest (n.toNat + 2) 1⟩
    else .wrongLength
  | [] => .wrongLength

def readSensorCal (b : List Byte) : Body SensorCalFields :=
  if b.length = 5 then .fields ⟨fieldAt b 0 1, signedAt b 1 2, fieldAt b 3 2⟩ else .wrongLength

def readScheduleLoad (b : List Byte) : Body ScheduleLoadFields :=
  if b.length = 17 then .fields ⟨fieldAt b 0 1, Vector.ofFn fun k => fieldAt b (k.val + 1) 1⟩ else .wrongLength

def readWindowSet (b : List Byte) : Body WindowSetFields :=
  if b.length = 5 then
    .fields ⟨fieldAt b 0 1, fieldAt b 1 1, fieldAt b 2 1, fieldAt b 3 1 ≠ 0, fieldAt b 4 1 ≠ 0⟩
  else .wrongLength

def readTagRead (b : List Byte) : Body TagReadFields :=
  if b.length = 3 then .fields ⟨fieldAt b 0 1, fieldAt b 1 1, fieldAt b 2 1⟩ else .wrongLength

def readTagWrite : List Byte → Body TagWriteFields
  | slot :: address :: n :: rest =>
    if rest.length = n.toNat then .fields ⟨slot.toNat, address.toNat, rest⟩ else .wrongLength
  | _ => .wrongLength

def readKey (b : List Byte) : Body Word128 :=
  if b.length = 16 then .fields (BitVec.ofNat 128 (natOf b)) else .wrongLength

def readMask (b : List Byte) : Body (BitVec 32) :=
  if b.length = 4 then .fields (BitVec.ofNat 32 (natOf b)) else .wrongLength

/-- The command a good frame is, by its kind (Table 11-3). -/
def readRequest (kind tag : Byte) (b : List Byte) : Instr :=
  match kind.toNat with
  | 0x01 => .statusGet tag (readNone b)
  | 0x02 => .slotGet tag (readU8 b)
  | 0x03 => .channelGet tag (readU8 b)
  | 0x04 => .historyGet tag (readHistoryName b)
  | 0x05 => .protectionGet tag (readNone b)
  | 0x06 => .channelSet tag (readChannelSet b)
  | 0x07 => .channelEnable tag (readU8 b)
  | 0x08 => .channelDisable tag (readU8 b)
  | 0x09 => .supplyMapSet tag (readSupplyMap b)
  | 0x0A => .reserve tag (readReserve b)
  | 0x0B => .release tag (readRelease b)
  | 0x0C => .serviceDraw tag (readServiceDraw b)
  | 0x0D => .commitNow tag (readCommitNow b)
  | 0x0E => .sense tag (readU8 b)
  | 0x0F => .scanSet tag (readScanSet b)
  | 0x10 => .sensorCal tag (readSensorCal b)
  | 0x11 => .scheduleLoad tag (readScheduleLoad b)
  | 0x12 => .scheduleSelect tag (readU8 b)
  | 0x13 => .windowSet tag (readWindowSet b)
  | 0x14 => .tagRead tag (readTagRead b)
  | 0x15 => .tagWrite tag (readTagWrite b)
  | 0x16 => .historyClear tag (readHistoryName b)
  | 0x17 => .keyProvision tag (readKey b)
  | 0x18 => .policyLock tag (readNone b)
  | 0x19 => .noticeGet tag (readU8 b)
  | 0x1A => .noticeMaskSet tag (readMask b)
  | 0x1B => .settingsSave tag (readNone b)
  | 0x1C => .reset tag (readNone b)
  | _ => .unknownKind kind tag

/-! ## The receiver (R193, R194) -/

/-- The largest body (R194). -/
def bodyMax : Nat := 2048

/-- What the bytes gathered after the start byte are. -/
inductive Gathered where
  | partialFrame
  | oversized
  | complete (c : Instr)
  deriving DecidableEq, Repr

/-- R193, R194: length, kind, tag, body and CRC in the order of Table 11-7. -/
def readGathered (b : List Byte) : Gathered :=
  if b.length < 2 then .partialFrame
  else
    let length := fieldAt b 0 2
    if bodyMax < length then .oversized
    else if b.length < length + 6 then .partialFrame
    else if b.drop (length + 4) = crc16Bytes (b.take (length + 4)) then
      match b.drop 2 with
      | kind :: tag :: rest => .complete (readRequest kind tag (rest.take length))
      | _ => .partialFrame
    else .complete .badFrame

/-- A byte reaches the receiver; the command it completes, if any. -/
def Receiver.feed (r : Receiver) (b : Byte) : Receiver × Option Instr :=
  match r with
  | .hunting => if b = 0xA5 then (.collecting [], none) else (.hunting, none)
  | .collecting bytes =>
    match readGathered (bytes ++ [b]) with
    | .partialFrame => (.collecting (bytes ++ [b]), none)
    | .oversized => (.hunting, some .oversizedLength)
    | .complete c => (.hunting, some c)

/-- A byte arrives on HOST_RXD: the command it completes joins the end of the queue (log entry 33). -/
def State.receiveByte (s : State) (b : Byte) : State :=
  let (receiver, c) := s.host.receiver.feed b
  { s.updHost fun h => { h with receiver := receiver } with pending := s.pending ++ c.toList }

/-! ## Answers: fields to bytes -/

/-- One, two, four, six and eight bytes. -/
def w1 (n : Nat) : List Byte := bytesOf 1 n
def w2 (n : Nat) : List Byte := bytesOf 2 n
def w4 (n : Nat) : List Byte := bytesOf 4 n
def w6 (n : Nat) : List Byte := bytesOf 6 n
def w8 (n : Nat) : List Byte := bytesOf 8 n
def wFlag (b : Bool) : List Byte := if b then [1] else [0]

/-- An optional field: its presence byte, and its bytes when present. The value 'none' of a field, and a field that its
rule gives in some cases only, are sent so too (log entry 30). -/
def wOpt {α : Type} (f : α → List Byte) : Option α → List Byte
  | none => [0]
  | some x => 1 :: f x

/-- A list: its count and its elements. -/
def wList {α : Type} (f : α → List Byte) (l : List α) : List Byte := w1 l.length ++ l.flatMap f

def wSlot (i : SlotId) : List Byte := w1 i.val

def Source.number : Source → Nat
  | .slot i => i.val
  | .reference => 17

def wSource (x : Source) : List Byte := w1 x.number

def Description.bytes (d : Description) : List Byte :=
  w8 d.serial.toNat ++ w1 d.inkCode ++ w4 d.nominalFill ++ w1 d.fillGeneration ++ w1 d.tagState.ctorIdx ++
    wFlag d.refillMark ++ w4 d.odometerAtRead ++ w2 d.makerLot.toNat

def ChannelSettings.bytes (c : ChannelSettings) : List Byte :=
  w1 c.inkCode ++ w2 c.weightSmall ++ w2 c.weightMedium ++ w2 c.weightLarge ++ bytesOfInt 1 c.beta ++
    w1 c.referenceCode ++ w2 c.lowLevel ++ w2 c.veryLowLevel ++ w2 c.switchLevel ++ w4 c.commitStep ++
    w2 c.flowWindow ++ w4 c.flowCeiling ++ w4 c.upperThreshold ++ w4 c.lowerThreshold ++ w2 c.waitLimit ++
    w2 c.refillTolerance ++ w2 c.deficitTolerance ++ w1 c.persistence ++ w1 c.refillPolicy.ctorIdx

def SupplyPair.bytes (p : SupplyPair) : List Byte := wSlot p.primary ++ wOpt wSlot p.alternate

/-- A head's state and its five counts, in the order of Table 4-4; the heads go one by one (R78; log entry 53). -/
def Head.bytes (h : Head) : List Byte :=
  wOpt w1 h.expected ++ w4 h.taken ++ w4 h.restarts ++ w4 h.repeats ++ w4 h.gaps ++ w4 h.missed

/-- The reasons of a request as a named value, in the order of Table 9-2: ADMISSION 0, HOST 1, both 2. -/
def Reasons.bytes (r : Reasons) : List Byte := w1 (if r.host then if r.admission then 2 else 1 else 0)

def SenseStatus.bytes (u : SenseStatus) : List Byte :=
  bytesOfInt 2 u.offset ++ w2 u.gain ++ w1 u.levels ++ wOpt w2 u.sensed ++ w1 u.rise ++ w1 u.deficit ++
    w1 u.goodRun ++ w2 u.hostSenses

def PendingScan.bytes (p : PendingScan) : List Byte := wList wSource p.list ++ w2 p.pause

def LevelStatus.bytes (u : LevelStatus) : List Byte :=
  w1 u.scan.ctorIdx ++ w1 u.position ++ wList wSource u.list ++ w2 u.pause ++ wOpt PendingScan.bytes u.pendingScan ++
    wList (fun q => wSlot q.slot ++ Reasons.bytes q.reasons) u.injected ++ wOpt wSlot u.runSlot ++
    w1 u.reference.ctorIdx ++ wOpt w2 u.lastReference ++ w4 u.deferred ++ w4 u.passes ++
    u.slots.toList.flatMap SenseStatus.bytes

def HistoryStatus.bytes (h : HistoryStatus) : List Byte :=
  w1 h.entries ++ w1 h.urgentLength ++ w1 h.ordinaryLength ++ wFlag h.writing ++ w6 h.forfeited ++ w4 h.recency ++
    wFlag h.roundRunning

/-- The fields of R197 in its order. Lanes, heads and channels go one by one, the port's tally counts after the heads
(log entry 53). -/
def StatusReport.bytes (r : StatusReport) : List Byte :=
  w1 r.cause.kind.ctorIdx ++ wFlag r.cause.historyDefaulted ++ wFlag r.cause.settingsDefaulted ++
    w1 r.key.ctorIdx ++ wFlag r.policyLock ++ wFlag r.powerWarn ++ w1 r.requested.ctorIdx ++
    r.lanes.toList.flatMap (fun l => w1 l.state.ctorIdx ++ w1 l.inUse.ctorIdx) ++
    r.heads.toList.flatMap Head.bytes ++ w4 r.tallyBadFrames ++ w4 r.idleEntries ++ w4 r.handedOn ++
    LevelStatus.bytes r.level ++ HistoryStatus.bytes r.history ++
    r.channels.toList.flatMap (fun ch => w1 ch.state.ctorIdx ++ wOpt wSlot ch.serving) ++
    r.slots.toList.flatMap (fun st => w1 st.ctorIdx) ++
    w1 r.notices ++ w2 r.dropped ++ w2 r.nextSerial.toNat ++
    w2 r.badFrames ++ w2 r.discardedPartials ++ w2 r.busy ++ w2 r.overruns

/-- The fields of R23; the channel, where it is none, is absent (log entry 30). -/
def SlotReport.bytes (r : SlotReport) : List Byte :=
  w1 r.state.ctorIdx ++ wOpt (fun c => w1 c.val) r.channel ++ wOpt Description.bytes r.description ++
    wOpt (fun q => w1 q.ctorIdx) r.quality ++ wOpt (fun q => w1 q.ctorIdx) r.rejectReason ++
    wOpt (fun q => w1 q.ctorIdx) r.faultReason ++ w4 r.committed ++ w4 r.uncommitted ++ w4 r.remaining ++
    w1 r.band.ctorIdx ++ wFlag r.senseUnchecked ++ wFlag r.levelDisagree ++ wFlag r.sensorFault ++
    wFlag r.tallyUncertain

def VolumeReport.bytes (v : VolumeReport) : List Byte :=
  w6 v.totalCharged ++ w6 v.chargedToSlots ++ w6 v.unattributed ++ w6 v.overdraw ++ w6 v.unreservedDraw ++
    w4 v.uncorrected ++ w4 v.clamped ++ w6 v.lastWindowFlow ++ w2 v.windowLength ++ w6 v.peakFlow ++
    wFlag v.peakArmed ++ wFlag v.flowExcess ++ w2 v.timeToEmpty

def ReservationReport.bytes (r : ReservationReport) : List Byte :=
  w1 r.id ++ w1 r.state.ctorIdx ++ w4 r.size ++ w4 r.drawn ++ wFlag r.split ++ wOpt w2 r.timeLeft

def ReservationSummary.bytes (r : ReservationSummary) : List Byte :=
  wList ReservationReport.bytes r.list ++ w1 r.granted ++ w1 r.waiting ++ w4 r.outstanding ++ w4 r.available ++
    wFlag r.stall ++ w1 r.lastId

/-- The fields of R136. The serving slot and the target are absent where none, and the fields of the serving slot are
one optional group (log entry 30). -/
def ChannelReport.bytes (r : ChannelReport) : List Byte :=
  w1 r.state.ctorIdx ++ ChannelSettings.bytes r.settings ++ wOpt SupplyPair.bytes r.pair ++ wOpt wSlot r.serving ++
    wOpt wSlot r.target ++ wFlag r.tallyUncertain ++ wFlag r.flowExcess ++ wFlag r.unreservedDraw ++
    wFlag r.splitLast ++
    wOpt (fun x => w4 x.remaining ++ w2 x.perMille ++ w1 x.band.ctorIdx) r.servingReport ++
    VolumeReport.bytes r.volume ++ ReservationSummary.bytes r.reservations

def HistoryEntry.bytes (e : HistoryEntry) : List Byte :=
  w8 e.serial.toNat ++ w1 e.inkCode ++ w1 e.fillGeneration ++ w4 e.odometer ++ wOpt w4 e.pendingCharge ++
    wOpt w4 e.uncertain ++ wFlag e.barred ++ wFlag e.refillSeen ++ wSlot e.lastSlot ++ w4 e.stamp

def HistoryReport.bytes (r : HistoryReport) : List Byte :=
  w1 r.place.val ++ HistoryEntry.bytes r.entry ++ wOpt wSlot r.seatedIn ++ w1 r.standing.ctorIdx ++ w1 r.entries ++
    w6 r.forfeited

def Violation.bytes : Violation → List Byte
  | .access slot address length isWrite => 0 :: (wSlot slot ++ w1 address ++ w1 length ++ wFlag isWrite)
  | .locked requestKind => [1, requestKind]

def Window.bytes (w : Window) : List Byte := w1 w.low ++ w1 w.high ++ wFlag w.readEnable ++ wFlag w.writeEnable

/-! ## Notices -/

/-- The subject of a notice: its kind (slot 0, channel 1, head 2, none 3) with its number. -/
def Notice.subject : Notice → List Byte
  | .slotChanged i .. | .verdict i .. | .levelBand i .. | .commitFailed i .. | .levelDisagree i ..
  | .passthroughDone i .. | .sensorFault (some i) .. | .protection (.access i ..) => 0 :: wSlot i
  | .channelChanged c .. | .reservationGranted c .. | .reservationExpired c .. | .reservationSplit c ..
  | .unreservedDraw c .. | .flowExcess c .. => 1 :: w1 c.val
  | .tallyFault h .. => 2 :: w1 h.val
  | .sensorFault none _ | .protection (.locked _) | .historyEvicted .. | .powerPreserved _ | .settingsDefaulted => [3]

/-- The tag's code behind a cause or a reason: an optional field, there for TAG_ERROR (section 6.4.1, R45). -/
def wCode (code : Option Byte) : List Byte := wOpt (fun b => [b]) code

def CommitCause.bytes : CommitCause → List Byte
  | .noResponse => 0 :: wCode none
  | .tagError code => 1 :: wCode (some code)
  | .receiptMismatch => 2 :: wCode none
  | .odometerAhead => 3 :: wCode none

/-- The reason of a failure and the tag's code. -/
def PassFailure.bytes : PassFailure → List Byte
  | .noResponse => 0 :: wCode none
  | .tagError code => 1 :: wCode (some code)
  | .wrongState => 2 :: wCode none

/-- The status, then the reason with its code for FAILED and the bytes read for a TAG_READ ending OK, each an optional
field (R45). -/
def PassStatus.bytes : PassStatus → List Byte
  | .ok data => 0 :: (wOpt PassFailure.bytes none ++ wOpt (wList fun b => [b]) data)
  | .failed reason => 1 :: (wOpt PassFailure.bytes (some reason) ++ wOpt (wList fun b => [b]) none)
  | .aborted => 2 :: (wOpt PassFailure.bytes none ++ wOpt (wList fun b => [b]) none)

/-- The fields of section 10.3.1. A group named for some outcomes only is optional, but SENSE_UNCHECKED is one flag in
every VERDICT (log entry 30). -/
def Verdict.bytes (v : Verdict) : List Byte :=
  w8 v.serial.toNat ++ w1 v.occasion.ctorIdx ++ w1 v.outcome.ctorIdx ++
    wOpt (fun t => wFlag t.tagMark ++ wFlag t.history ++ wFlag t.level) v.tests ++
    wOpt (fun l => w2 l.sensed ++ w2 l.expected) v.levels ++ wFlag v.senseUnchecked ++
    wOpt (fun p => w1 p.ctorIdx) v.policy ++
    wOpt (fun r => w1 r.tagGeneration ++ w4 r.tagOdometer ++ w1 r.entryGeneration ++ w4 r.entryOdometer) v.rollback

/-- The fields that the raising rule names, in its order: the slot of PASSTHROUGH_DONE and of a PROTECTION among them,
although it is the subject too (R45, R46). A slot given as 'slot or none', and CHANNEL_CHANGED's reason, are optional
fields (log entry 30). -/
def Notice.details : Notice → List Byte
  | .slotChanged _ previous new reject fault quality =>
    w1 previous.ctorIdx ++ w1 new.ctorIdx ++ wOpt (fun q => w1 q.ctorIdx) reject ++
      wOpt (fun q => w1 q.ctorIdx) fault ++ wOpt (fun q => w1 q.ctorIdx) quality
  | .verdict _ v => Verdict.bytes v
  | .levelBand _ channel previous new perMille remaining =>
    w1 channel.val ++ w1 previous.ctorIdx ++ w1 new.ctorIdx ++ w2 perMille ++ w4 remaining
  | .channelChanged _ m =>
    w1 m.cause.ctorIdx ++ w1 m.previousState.ctorIdx ++ w1 m.newState.ctorIdx ++ wOpt wSlot m.previousServing ++
      wOpt wSlot m.newServing ++ wOpt wSlot m.target ++ wOpt (fun r => w1 r.ctorIdx) m.reason
  | .reservationGranted _ id size waited outstanding => w1 id ++ w4 size ++ w2 waited ++ w4 outstanding
  | .reservationExpired _ id size wasHead stall => w1 id ++ w4 size ++ wFlag wasHead ++ wFlag stall
  | .reservationSplit _ id size drawn drawnFrom drawsFrom =>
    w1 id ++ w4 size ++ w4 drawn ++ wOpt wSlot drawnFrom ++ wOpt wSlot drawsFrom
  | .unreservedDraw _ part counter => w4 part ++ w6 counter
  | .commitFailed _ cause advance failures state =>
    CommitCause.bytes cause ++ w4 advance ++ w1 failures ++ w1 state.ctorIdx
  | .flowExcess _ flow ceiling length => w6 flow ++ w4 ceiling ++ w2 length
  | .tallyFault _ gap received marked => w1 gap ++ w1 received ++ wList (fun c => w1 c.val) marked
  | .sensorFault _ raw => w2 raw
  | .levelDisagree _ c sensed expected tolerance => w1 c.val ++ w2 sensed ++ w2 expected ++ w2 tolerance
  | .historyEvicted serial tier forfeited barLost place =>
    w8 serial.toNat ++ w1 tier ++ w4 forfeited ++ wFlag barLost ++ w1 place.val
  | .passthroughDone i ticket status => w1 ticket ++ wSlot i ++ PassStatus.bytes status
  | .protection v => Violation.bytes v
  | .powerPreserved entries => w1 entries
  | .settingsDefaulted => []

/-- A notice in a NOTICE_GET reply: its mask bit, its subject, its serial and its detail fields (section 11.7). -/
def QueuedNotice.bytes (q : QueuedNotice) : List Byte :=
  w1 (Notice.maskBit q.notice) ++ Notice.subject q.notice ++ w2 q.serial.toNat ++ Notice.details q.notice

/-! ## Frames -/

/-- The fields behind the status (R196). The values taken by SCAN_SET and WINDOW_SET are log entry 54's, the presence
bytes of PROTECTION_GET's violation and SERVICE_DRAW's slot log entry 30's. -/
def ReplyFields.bytes : ReplyFields → List Byte
  | .none => []
  | .status r => StatusReport.bytes r
  | .slot r => SlotReport.bytes r
  | .channel r => ChannelReport.bytes r
  | .history r => HistoryReport.bytes r
  | .protection count first => w2 count ++ wOpt Violation.bytes first
  | .settingsTaken c => ChannelSettings.bytes c
  | .channelState st => w1 st.ctorIdx
  | .reservationGranted id outstanding => w1 id ++ w4 outstanding
  | .reservationQueued id place stall => w1 id ++ w1 place ++ wFlag stall
  | .released state size done split => w1 state.ctorIdx ++ w4 size ++ w4 done ++ wFlag split
  | .drawn amount serving toSlot overdraw unattributed =>
    w4 amount ++ wOpt wSlot serving ++ w4 toSlot ++ w4 overdraw ++ w4 unattributed
  | .commitOne phase advance => w1 phase.ctorIdx ++ w4 advance
  | .commitAll acted => wList (fun x => wSlot x.slot ++ w1 x.phase.ctorIdx) acted
  | .position n => w1 n
  | .scanTaken pause debounce => w2 pause ++ w1 debounce
  | .calibrationTaken offset gain => bytesOfInt 2 offset ++ w2 gain
  | .schedule requested inUse => w1 requested.ctorIdx ++ inUse.toList.flatMap fun t => w1 t.ctorIdx
  | .windowTaken w => Window.bytes w
  | .ticket n => w1 n
  | .cleared serial forfeited => w8 serial.toNat ++ w4 forfeited
  | .notices maximum list left dropped =>
    (maximum.map w1).getD [] ++ wList QueuedNotice.bytes list ++ w1 left ++ w2 dropped
  | .mask m => w4 m.toNat

/-- A host frame of a kind, a tag and a body (Table 11-7). -/
def hostFrame (kind tag : Byte) (body : List Byte) : List Byte :=
  let content := w2 body.length ++ [kind, tag] ++ body
  0xA5 :: (content ++ crc16Bytes content)

/-- The kind field of a reply: the request's kind plus 0x80, or unchanged for a kind of 0x80 or above (R196). -/
def replyKind (kind : Byte) : Byte := if kind.toNat < 0x80 then kind + 0x80 else kind

/-- The frame the transmitter sends (R195, R196, Table 11-7). -/
def OutFrame.bytes : OutFrame → List Byte
  | .reply r => hostFrame (replyKind r.kind) r.tag (w1 r.status.ctorIdx ++ ReplyFields.bytes r.fields)
  | .answer (.busy kind tag) => hostFrame (replyKind kind) tag (w1 Status.busy.ctorIdx)
  | .answer .badFrame => hostFrame 0xFF 0 (w1 Status.badFrame.ctorIdx)

/-- The bytes on HOST_TXD: those of the frame in transmission. -/
def State.transmitted (s : State) : List Byte :=
  match s.host.transmitting with
  | some f => OutFrame.bytes f
  | none => []

end Sys2Proof.Machine
end

