-- ==== Sys2Proof/Safety.lean ====
section
/-! DEFINITION. The terms the claims use: what a host request's reply is, what the blocks' inner work leaves as it is, and
the laws that every step keeps. -/

namespace Sys2Proof.Machine

/-! ## Requests -/

/-- The host link after a request is taken and its reply built: WORKING, the reply owed (R195). -/
def State.hostReplying (s : State) (kind tag : Byte) (status : Status) (fields : ReplyFields) : HostLink :=
  ({ s.host with working := true }).owe (.reply ⟨kind, tag, status, fields⟩)

/-- The state after a request is taken and answered, everything else as it stands. -/
def State.answering (s : State) (kind tag : Byte) (status : Status) (fields : ReplyFields) : State :=
  { s with host := s.hostReplying kind tag status fields }

/-- The host link after a good frame that completes while the link is WORKING (R195): BUSY is owed and counted, or, with
an answer already waiting, the frame is discarded and counted. -/
def State.hostBusy (s : State) (kind tag : Byte) : HostLink :=
  if s.host.placeFull then { s.host with overruns := min 65535 (s.host.overruns + 1) }
  else ({ s.host with busy := min 65535 (s.host.busy + 1) }).owe (.answer (.busy kind tag))

/-- A request frame: its kind (Table 11-3), its tag, and whether its body's length is wrong for its kind. -/
structure RequestFrame where
  kind : Byte
  tag : Byte
  wrongLength : Bool
  deriving DecidableEq, Repr

/-- The frame of requests of a kind. -/
def bodyFrame {α : Type} (b : Body α) (kind tag : Byte) : RequestFrame :=
  match b with
  | .fields _ => ⟨kind, tag, false⟩
  | .wrongLength => ⟨kind, tag, true⟩

/-- The frame a command is, for the requests of Table 11-3. -/
def requestFrameOf : Instr → Option RequestFrame
  | .statusGet tag b => some (bodyFrame b 0x01 tag)
  | .slotGet tag b => some (bodyFrame b 0x02 tag)
  | .channelGet tag b => some (bodyFrame b 0x03 tag)
  | .historyGet tag b => some (bodyFrame b 0x04 tag)
  | .protectionGet tag b => some (bodyFrame b 0x05 tag)
  | .channelSet tag b => some (bodyFrame b 0x06 tag)
  | .channelEnable tag b => some (bodyFrame b 0x07 tag)
  | .channelDisable tag b => some (bodyFrame b 0x08 tag)
  | .supplyMapSet tag b => some (bodyFrame b 0x09 tag)
  | .reserve tag b => some (bodyFrame b 0x0A tag)
  | .release tag b => some (bodyFrame b 0x0B tag)
  | .serviceDraw tag b => some (bodyFrame b 0x0C tag)
  | .commitNow tag b => some (bodyFrame b 0x0D tag)
  | .sense tag b => some (bodyFrame b 0x0E tag)
  | .scanSet tag b => some (bodyFrame b 0x0F tag)
  | .sensorCal tag b => some (bodyFrame b 0x10 tag)
  | .scheduleLoad tag b => some (bodyFrame b 0x11 tag)
  | .scheduleSelect tag b => some (bodyFrame b 0x12 tag)
  | .windowSet tag b => some (bodyFrame b 0x13 tag)
  | .tagRead tag b => some (bodyFrame b 0x14 tag)
  | .tagWrite tag b => some (bodyFrame b 0x15 tag)
  | .historyClear tag b => some (bodyFrame b 0x16 tag)
  | .keyProvision tag b => some (bodyFrame b 0x17 tag)
  | .policyLock tag b => some (bodyFrame b 0x18 tag)
  | .noticeGet tag b => some (bodyFrame b 0x19 tag)
  | .noticeMaskSet tag b => some (bodyFrame b 0x1A tag)
  | .settingsSave tag b => some (bodyFrame b 0x1B tag)
  | .reset tag b => some (bodyFrame b 0x1C tag)
  | .powerOnReset _ | .pinReset _ | .hostReset _ | .powerWarnAssert | .powerWarnDeassert => none
  | .presenceGain _ | .removal _ | .seatDebounceExpiry _ | .presenceLossDuringDebounce _ => none
  | .badFrame | .oversizedLength | .partialFrameGapExpiry | .missingStopBit _ => none
  | .busyAnswer _ _ | .unknownKind _ _ | .hostFrameTransmitted => none
  | .settingsSaveWriteDone | .keyCellWriteDone | .historyWriteDone => none
  | .tallyFrame _ _ | .tstrobeDeassertedAfterReset => none
  | .laneReply _ _ | .replyTimeout _ | .busyHoldOffExpiry _ | .digestJobComplete _ => none
  | .conversionComplete _ | .scanPauseExpiry | .flowWindowExpiry _ | .waitTimerExpiry _ _ => none

/-- A state after an event, at once or with the work that the event's end starts (log entries 12, 13). -/
def Ended (u t : State) : Prop := t = u ∨ t = u.settle

/-- The number of a class in a phase value (section 2.3, R206). -/
def LaneClass.number : LaneClass → Nat
  | .admission => 0
  | .commit => 1
  | .mark => 2
  | .pass => 3

/-- The VACANT values of a Slot Record but for its channel (R21). -/
structure SlotRecord.Vacated (r : SlotRecord) : Prop where
  state : r.state = .vacant
  description : r.description = none
  quality : r.quality = none
  rejectReason : r.rejectReason = none
  faultReason : r.faultReason = none
  committed : r.committed = 0
  uncommitted : r.uncommitted = 0
  band : r.band = .normal
  senseUnchecked : r.senseUnchecked = false
  levelDisagree : r.levelDisagree = false
  sensorFault : r.sensorFault = false

/-! ## Notices raised -/

/-- One notice unit comes from another by raising notices. -/
inductive Raises (u : NoticeUnit) : NoticeUnit → Prop where
  | refl : Raises u u
  | raise {v : NoticeUnit} (n : Notice) : Raises u v → Raises u (v.raise n)

/-- One notice unit comes from another by raising notices, `n` among them. -/
def Announced (u v : NoticeUnit) (n : Notice) : Prop := ∃ w, Raises u w ∧ Raises (w.raise n) v

/-! ## The Channel Controller -/

/-- The two slots of a channel's supply pair are `i` and another one, `j`. -/
def Channel.paired (ch : Channel) (i j : SlotId) : Prop :=
  i ≠ j ∧ (ch.pair = some ⟨i, some j⟩ ∨ ch.pair = some ⟨j, some i⟩)

/-- A slot that can be drawn from: READY with a remaining estimate above 0 (R128, R132). -/
def State.CanServe (s : State) (j : SlotId) : Prop := (s.slot j).state = .ready ∧ 0 < (s.slot j).remaining

/-- R129's condition on the slot `i` a channel draws from and another slot `j` of its pair. -/
structure State.SwitchDue (s : State) (c : ChannelId) (i j : SlotId) : Prop where
  pair : (s.channel c).paired i j
  low : (s.slot i).perMille ≤ (s.channel c).settings.switchLevel
  ready : (s.slot j).state = .ready
  above : (s.channel c).settings.switchLevel < (s.slot j).perMille

/-- A channel in SUPPLIED on slot `j`, which is SERVING, with PERMIT high and no switch under way (R127). -/
structure DrawsFrom (t : State) (c : ChannelId) (j : SlotId) : Prop where
  state : (t.channel c).state = .supplied
  serving : (t.channel c).serving = some j
  target : (t.channel c).target = none
  permit : (t.channel c).permit = true
  slot : (t.slot j).state = .serving

/-- A channel in UNSUPPLIED with PERMIT low (R127). -/
structure Undrawn (t : State) (c : ChannelId) : Prop where
  state : (t.channel c).state = .unsupplied
  serving : (t.channel c).serving = none
  target : (t.channel c).target = none
  permit : (t.channel c).permit = false

/-- A channel in SWITCHING from slot `i`, which still serves, to slot `j` (R129). -/
structure SwitchesTo (t : State) (c : ChannelId) (i j : SlotId) : Prop where
  state : (t.channel c).state = .switching
  serving : (t.channel c).serving = some i
  target : (t.channel c).target = some j

/-- The end of a planned switch from slot `i` to slot `j` (R130): the channel draws from `j`, `i` is READY again, and
SWITCH_DONE is raised. -/
structure SwitchedOver (s t : State) (c : ChannelId) (i j : SlotId) : Prop where
  drawn : DrawsFrom t c j
  back : i ≠ j → (t.slot i).state = .ready
  split : (t.channel c).splitLast = false
  notice : Announced s.notices t.notices
    (.channelChanged c ⟨.switchDone, .switching, .supplied, some i, some j, none, none⟩)

/-- Each reservation in DRAWING of the list `l` has its split flag set, with its notice, and SPLIT_LAST says whether
there was one (R133). -/
structure SplitMarked (s t : State) (c : ChannelId) (l : List Reservation) (drewFrom : Option SlotId) : Prop where
  marked : ∀ r ∈ l, r.isDrawing = true → { r with split := true } ∈ (t.channel c).reservations
  last : (t.channel c).splitLast = l.any (·.isDrawing)
  notice : ∀ r ∈ l, r.isDrawing = true →
    Announced s.notices t.notices (.reservationSplit c r.id r.size r.drawn drewFrom (t.channel c).serving)

/-- The failover of channel `c` of `s`, whose serving slot `i` has left (R132, R133): to the other slot of the pair when
it can be drawn from, otherwise to none. -/
structure FailedOver (s t : State) (c : ChannelId) (i : SlotId) (reason : LeaveReason) (l : List Reservation) : Prop where
  taken : ∀ j, (s.channel c).paired i j → s.CanServe j → DrawsFrom t c j
  lost : (∀ j, (s.channel c).paired i j → ¬s.CanServe j) → Undrawn t c
  split : SplitMarked s t c l (some i)
  notice : Announced s.notices t.notices
    (.channelChanged c
      ⟨.failover, (s.channel c).state, (t.channel c).state, some i, (t.channel c).serving, none, some reason⟩)

/-- R13: a slot of a channel's pair whose cartridge does not carry an ink code, in a state in which that is tested. -/
structure State.WrongInk (s : State) (c : ChannelId) (code : Nat) (i : SlotId) : Prop where
  pair : i ∈ (s.channel c).pairSlots
  channel : (s.slot i).channel = some c
  tested : (s.slot i).state = .verifying ∨ (s.slot i).state = .sensing ∨ (s.slot i).state.isAdmitted = true
  code : ∃ d, (s.slot i).description = some d ∧ d.inkCode ≠ code

/-! ## The Reservation Unit -/

/-- A reservation of a size passes the grant test of a channel (R141). -/
structure State.Grantable (s : State) (c : ChannelId) (size : Nat) : Prop where
  state : (s.channel c).state = .supplied ∨ (s.channel c).state = .switching
  stall : (s.channel c).stall = false
  capacity : (s.channel c).granted.length < 8
  available : size ≤ s.available c
  ceiling : (s.channel c).outstanding + size ≤ (s.channel c).settings.upperThreshold

/-- A channel's record replaced. -/
def State.withChannel (s : State) (c : ChannelId) (ch : Channel) : State :=
  { s with channels := s.channels.set c.val ch c.isLt }

/-- What a head test of a channel does (R141, R143, R144). Nothing with no reservation waiting. The first that waits
stays when it is not grantable, and a ceiling it would pass sets the stall flag. When it is grantable it is granted in
its place, UNRESERVED_DRAW is cleared, RESERVATION_GRANTED is raised, and the next one is tested. -/
inductive HeadTests (c : ChannelId) : State → State → Prop where
  | none {s : State} : (s.channel c).waiting = [] → HeadTests c s s
  | waits {s : State} (r : Reservation) (rest : List Reservation) :
      (s.channel c).waiting = r :: rest → ¬s.Grantable c r.size →
        HeadTests c s (s.withChannel c { s.channel c with
          stall := (s.channel c).stall ||
            decide ((s.channel c).settings.upperThreshold < (s.channel c).outstanding + r.size) })
  | grants {s t : State} (before after : List Reservation) (r : Reservation) (w : WaitTimer) (ch : Channel) :
      (s.channel c).reservations = before ++ r :: after → (∀ x ∈ before, x.wait = .none) → r.wait = some w →
        s.Grantable c r.size →
          ch = { s.channel c with
            reservations := before ++ { r with wait := .none } :: after
            unreservedDraw := false } →
            HeadTests c
              ((s.withChannel c ch).raise
                (.reservationGranted c r.id r.size (s.clockMs - w.startedAt) ch.outstanding)) t →
              HeadTests c s t

/-- The clear test of a channel (R142). -/
def State.cleared (s : State) (c : ChannelId) : State :=
  s.withChannel c { s.channel c with
    stall := (s.channel c).stall &&
      decide ((s.channel c).settings.lowerThreshold < (s.channel c).outstanding) }

/-- What follows when a reservation leaves a channel's list, `l` being what is left of it (R130, R142, R143, R145, R146):
the others stay in their order, the granted ones as they are. A channel in SWITCHING with none left in DRAWING completes its
switch; in any other case the clear test and the head test are all that is done. -/
structure AfterLeaving (s t : State) (c : ChannelId) (l : List Reservation) : Prop where
  others : ((t.channel c).reservations.map fun r => r.id) = l.map fun r => r.id
  granted : ∀ r ∈ l, r.wait = none → r ∈ (t.channel c).reservations
  tested : (s.channel c).state ≠ .switching ∨ (∃ r ∈ l, r.isDrawing = true) →
    HeadTests c ((s.withChannel c { s.channel c with reservations := l }).cleared c) t
  completed : (s.channel c).state = .switching → (∀ r ∈ l, r.isDrawing = false) →
    ∀ i j, (s.channel c).serving = some i → (s.channel c).target = some j → SwitchedOver s t c i j

/-- R148: an amount is drawn from a list of reservations, the granted ones taking in their order what each still lacks;
the list after it, and what is left over. -/
inductive Draws : Nat → List Reservation → List Reservation → Nat → Prop where
  | done {n : Nat} : Draws n [] [] n
  | waits {n left : Nat} {r : Reservation} {l l' : List Reservation} :
      r.wait ≠ none → Draws n l l' left → Draws n (r :: l) (r :: l') left
  | takes {n left : Nat} {r : Reservation} {l l' : List Reservation} :
      r.wait = none → Draws (n - min n (r.size - r.drawn)) l l' left →
        Draws n (r :: l) ({ r with drawn := r.drawn + min n (r.size - r.drawn) } :: l') left

/-! ## The Level Sense Unit -/

/-- A sample of slot `i` has been taken (R154, R162, R163): the converter is free, and only the slot's good run, its
SENSOR_FAULT flag and the notice of the flag's setting can differ. A faulted one gives none; a good one gives its level. -/
structure SampleTaken (s t : State) (i : SlotId) (raw : Nat) (c : Conversion) (sample : Option Nat) : Prop where
  only : t = { s with
    sense := { s.sense with
      conversion := none
      slots := s.sense.slots.set i.val { s.slotSense i with goodRun := (t.slotSense i).goodRun } i.isLt }
    slots := s.slots.set i.val { s.slot i with sensorFault := (t.slot i).sensorFault } i.isLt
    notices := t.notices }
  faulted : raw ≤ 15 ∨ 4080 ≤ raw →
    sample = none ∧ (t.slotSense i).goodRun = 0 ∧ (t.slot i).sensorFault = true ∧
      t.notices = if (s.slot i).sensorFault then s.notices else s.notices.raise (.sensorFault (some i) raw)
  good : 15 < raw → raw < 4080 →
    sample = some (min 1000 (((max 0 (min 4095 ((raw : Int) - c.offset))).toNat * c.gain + 2048) / 4096)) ∧
      t.notices = s.notices ∧
      ((s.slot i).sensorFault = false →
        (t.slotSense i).goodRun = (s.slotSense i).goodRun ∧ (t.slot i).sensorFault = false) ∧
      ((s.slot i).sensorFault = true →
        (t.slotSense i).goodRun = min 4 ((s.slotSense i).goodRun + 1) ∧
          ((t.slot i).sensorFault = false ↔ 3 ≤ (s.slotSense i).goodRun))

/-- The Level Sense Unit's items of a slot replaced. -/
def State.withSlotSense (s : State) (i : SlotId) (u : SlotSense) : State :=
  { s with sense := { s.sense with slots := s.sense.slots.set i.val u i.isLt } }

/-- A Slot Record replaced. -/
def State.withSlot (s : State) (i : SlotId) (r : SlotRecord) : State :=
  { s with slots := s.slots.set i.val r i.isLt }

/-- REFILL_SEEN is set in the entry of slot `i`'s cartridge. -/
def RefillSeen (s t : State) (i : SlotId) : Prop :=
  ∀ p e, s.entryOf i = some p → s.place p = some e → t.place p = some { e with refillSeen := true }

/-- An entry stands in a lane's queue, or its transaction is in flight. -/
def State.underWay (t : State) (l : LaneId) (e : LaneEntry) : Prop :=
  e ∈ (t.lane l).queue ∨ ∃ x, (t.lane l).state = .onWire x ∧ x.entry = e

/-- A MARK(REFILL) that the description does not show, with none of the slot under way, is queued (R32). -/
def RefillMarked (s t : State) (i : SlotId) : Prop :=
  (s.slot i).shows .refill = false → s.markUnderWay i = none →
    t.underWay (laneOf i) ⟨i, .mark .refill, none⟩

/-- A notice is raised, and is the last one raised. -/
def LastRaised (u v : NoticeUnit) (n : Notice) : Prop := ∃ w, Raises u w ∧ v = w.raise n

/-- R156, R157: the scan passes an entry of its list over, a VACANT slot or one held off. -/
def State.passesOver (s : State) (src : Source) : Prop :=
  ∃ i, src = .slot i ∧ ((s.slot i).state = .vacant ∨ s.heldOff i = true)

/-- R157: how many entries passed over count as deferred, those of slots that are not VACANT. -/
def State.deferrals (s : State) (l : List Source) : Nat :=
  l.countP fun src =>
    match src with
    | .slot i => (s.slot i).state ≠ .vacant
    | .reference => false

/-- The deferred count after some more (R197). -/
def State.deferredAfter (s : State) (l : List Source) : Nat :=
  if s.deferrals l = 0 then s.sense.deferred else min 4294967295 (s.sense.deferred + s.deferrals l)

/-- The conversion that starts from a source outside a run (R154, R163). -/
def State.regularOf (s : State) : Source → Conversion
  | .slot i => ⟨.slot i, false, (s.slotSense i).offset, (s.slotSense i).gain, false⟩
  | .reference => ⟨.reference, false, 0, 0, false⟩

/-! ## Laws -/

/-- R198, R199: at most 32 notices, and ATTN asserted exactly while one is queued. -/
def NoticeUnit.lawful (u : NoticeUnit) : Prop :=
  u.queue.length ≤ 32 ∧ u.attn = !u.queue.isEmpty

/-- R85: the residue below 32768 and the accumulator below 1,000,000. -/
def Volume.remaindersLawful (v : Volume) : Prop := v.residue < 32768 ∧ v.accumulator < 1000000

/-- R87: total charged is the sum of its three parts while it has not saturated. -/
def Volume.totalLawful (v : Volume) : Prop :=
  v.totalCharged < 281474976710655 → v.totalCharged = v.chargedToSlots + v.unattributed + v.overdraw

/-- R127, R119: the PERMIT line is high exactly in SUPPLIED and SWITCHING, and exactly with a serving slot. -/
def Channel.permitLawful (ch : Channel) : Prop :=
  (ch.permit = true ↔ ch.state = .supplied ∨ ch.state = .switching) ∧
    (ch.permit = true ↔ ch.serving.isSome = true)

/-- A lane works for its own four slots alone (Table 1-1, section 2.3): its entries, its transaction and its held job.
While its transaction goes on it has at most two failed attempts and eight BUSY replies (R26, R27). -/
structure Lane.Lawful (lane : Lane) (l : LaneId) : Prop where
  queue : ∀ e ∈ lane.queue, laneOf e.slot = l
  wire : ∀ x, lane.state = .onWire x → laneOf x.entry.slot = l ∧ x.failedAttempts ≤ 2 ∧ x.busyReplies ≤ 8
  held : ∀ j, lane.state = .held j → laneOf j.slot = l

/-- The bounds of four counts: a slot's failed commits, at most three (R112); the failed attempts and BUSY replies of a
transaction, at most two and eight while it goes on (R26, R27); the injected queue, at most eight (R158); and the levels
of a ring, at most four (R165). Each lane works for its own slots. -/
structure State.Bounded (s : State) : Prop where
  failures : ∀ i, (s.commit i).failures ≤ 3
  lanes : ∀ l, (s.lane l).Lawful l
  injected : s.sense.injected.length ≤ 8
  rings : ∀ i, (s.slotSense i).ring.length ≤ 4

/-! ## Frames -/

/-- What a channel keeps through the work of the other blocks: its settings, its pair and what charges and reads alone
change; its PERMIT line follows its state. -/
structure ChannelKept (a b : Channel) : Prop where
  settings : b.settings = a.settings
  pair : b.pair = a.pair
  tallyUncertain : b.tallyUncertain = a.tallyUncertain
  flowExcess : b.flowExcess = a.flowExcess
  lastId : b.lastId = a.lastId
  volume : b.volume = { a.volume with unreservedDraw := b.volume.unreservedDraw }
  permit : a.permitLawful → b.permitLawful

/-- What the inner work of the blocks (slot moves, lane work, jobs, commits, failover, sensing, history writes to
working memory) leaves as it is: the pins, the host link, the reset cause, the nonvolatile stores, the timers, the keys,
the tally link, the model's clock and queue, the tables and windows, the settings of channels and sensors. Notices are
only raised, and the bounds are kept. -/
structure Undisturbed (s t : State) : Prop where
  pins : t.pins = s.pins
  host : t.host = s.host
  cause : t.cause = s.cause
  preparation : (t.preparation.map fun p => p.replySent) = s.preparation.map fun p => p.replySent
  store : t.store = s.store
  debounce : t.debounce = s.debounce
  debounceTime : t.debounceTime = s.debounceTime
  keys : t.keys = s.keys
  tally : t.tally = s.tally
  clockMs : t.clockMs = s.clockMs
  pending : t.pending = s.pending
  tableA : t.bus.tableA = s.bus.tableA
  tableB : t.bus.tableB = s.bus.tableB
  requested : t.bus.requested = s.bus.requested
  windows : t.bus.windows = s.bus.windows
  lastTicket : t.bus.lastTicket = s.bus.lastTicket
  protection : t.bus.protection = s.bus.protection
  image : t.history.image = s.history.image
  scanList : t.sense.list = s.sense.list
  pause : t.sense.pause = s.sense.pause
  calibration : ∀ i, (t.slotSense i).offset = (s.slotSense i).offset ∧ (t.slotSense i).gain = (s.slotSense i).gain
  channel : ∀ c, ChannelKept (s.channel c) (t.channel c)
  notices : Raises s.notices t.notices
  bounded : s.Bounded → t.Bounded

/-- What the lane work, the commits' taking, the sensing, the draws and the moves of channels leave as it is: the
History Unit, and of each slot the accounts, the description, the quality and the channel. -/
structure AccountsKept (s t : State) : Prop where
  history : t.history = s.history
  committed : ∀ i, (t.slot i).committed = (s.slot i).committed
  uncommitted : ∀ i, (t.slot i).uncommitted = (s.slot i).uncommitted
  description : ∀ i, (t.slot i).description = (s.slot i).description
  quality : ∀ i, (t.slot i).quality = (s.slot i).quality
  channel : ∀ i, (t.slot i).channel = (s.slot i).channel
  reconciled : ∀ i, (t.slot i).reconciled = (s.slot i).reconciled

/-- What the lane work, the taking of commits, the jobs' joining and the sensing leave as it is: the Slot Records, the
Channel Records and the History Unit. -/
structure RecordsKept (s t : State) : Prop where
  slots : t.slots = s.slots
  channels : t.channels = s.channels
  history : t.history = s.history

/-- R50, R56: a job of slot `i` ends, from `s` to `t`. The oldest queued job starts, and the place it frees goes to the
lane at the head of the held ones: its job joins the end of the queue, the lane leaves the list and is HELD no more, and
a receipt's commit in SENT is then CHECKING (R107), when its lane holds no further COMMIT entry of that slot. -/
structure NextJob (s t : State) (i : SlotId) : Prop where
  running : t.engine.running = s.engine.queue.head?.map fun k => ⟨k, false⟩
  empty : s.engine.queue = [] → t.engine.queue = [] ∧ t.engine.heldLanes = s.engine.heldLanes
  alone : ∀ j rest, s.engine.queue = j :: rest → s.engine.heldLanes = [] →
    t.engine.queue = rest ∧ t.engine.heldLanes = []
  placed : ∀ j rest l lanes k, s.engine.queue = j :: rest → s.engine.heldLanes = l :: lanes →
    (s.lane l).state = .held k →
      t.engine.queue = rest ++ [k] ∧ t.engine.heldLanes = lanes ∧ (∀ x, (t.lane l).state ≠ .held x) ∧
      ∀ v f, k.work = .verifyReceipt v → k.slot ≠ i → (s.commit k.slot).flight = some f → f.phase = .sent →
        (∀ e ∈ (s.lane l).queue, e.slot = k.slot → e.laneClass ≠ .commit) →
          (t.commit k.slot).flight = some { f with phase := .checking }

/-! ## The Volume Unit -/

/-- R88 to R90: a charge of an amount above 0 on channel `c`, from `s` to `u`, in the order of R89. The serving slot takes
`part`, what its remaining estimate holds of it, and `excess` is overdraw; with no serving slot all of it is
unattributed, `rest`. The granted reservations draw in their order and what is left is the unreserved part (R148, R149);
the clear test and the head test are made. The slot's band is formed and its step trigger tested; emptied, it goes SPENT
and its channel fails over. Otherwise the planned switch is tested, or the completion of the one under way. Nothing else
is disturbed, and the slots' other accounts and the History Unit stay as they are. -/
structure Charged (s u : State) (c : ChannelId) (amount part excess rest : Nat) : Prop where
  served : ∀ i, (s.channel c).serving = some i →
    part = min amount (s.slot i).remaining ∧ excess = amount - (s.slot i).remaining ∧ rest = 0
  unserved : (s.channel c).serving = none → part = 0 ∧ excess = 0 ∧ rest = amount
  volume : (u.channel c).volume = { (s.channel c).volume with
    totalCharged := min 281474976710655 ((s.channel c).volume.totalCharged + amount)
    chargedToSlots := min 281474976710655 ((s.channel c).volume.chargedToSlots + part)
    overdraw := min 281474976710655 ((s.channel c).volume.overdraw + excess)
    unattributed := min 281474976710655 ((s.channel c).volume.unattributed + rest)
    unreservedDraw := (u.channel c).volume.unreservedDraw
    windowSum := (s.channel c).volume.windowSum + amount }
  others : ∀ d, d ≠ c → ChannelKept (s.channel d) (u.channel d)
  uncommitted : ∀ i, (u.slot i).uncommitted =
    (s.slot i).uncommitted + if (s.channel c).serving = some i then part else 0
  kept : ∀ i, (u.slot i).committed = (s.slot i).committed ∧ (u.slot i).description = (s.slot i).description
  history : u.history = s.history
  host : u.host = s.host
  keys : u.keys = s.keys
  tally : u.tally = s.tally
  worked : ∃ (v drawn m : State) (list : List Reservation) (left : Nat),
    v = { s with channels := v.channels, slots := v.slots } ∧
    v.channels = s.channels.set c.val { s.channel c with volume := { (s.channel c).volume with
      totalCharged := min 281474976710655 ((s.channel c).volume.totalCharged + amount)
      chargedToSlots := min 281474976710655 ((s.channel c).volume.chargedToSlots + part)
      overdraw := min 281474976710655 ((s.channel c).volume.overdraw + excess)
      unattributed := min 281474976710655 ((s.channel c).volume.unattributed + rest)
      windowSum := (s.channel c).volume.windowSum + amount } } c.isLt ∧
    (∀ i, (s.channel c).serving = some i → v.slots =
      s.slots.set i.val { s.slot i with uncommitted := (s.slot i).uncommitted + part } i.isLt) ∧
    ((s.channel c).serving = none → v.slots = s.slots) ∧
    Undisturbed v u ∧ AccountsKept v u ∧
    Draws amount (s.channel c).reservations list left ∧
    (∀ ch, ch = { v.channel c with
        reservations := list
        unreservedDraw := (s.channel c).unreservedDraw ||
          decide (0 < left ∧ 0 < (s.channel c).settings.upperThreshold)
        volume := { (v.channel c).volume with
          unreservedDraw := min 281474976710655 ((s.channel c).volume.unreservedDraw + left) } } →
      drawn = { v.withChannel c ch with
        notices :=
          if 0 < left ∧ 0 < (s.channel c).settings.upperThreshold ∧ (s.channel c).unreservedDraw = false then
            s.notices.raise (.unreservedDraw c left ch.volume.unreservedDraw)
          else s.notices }) ∧
    HeadTests c (drawn.cleared c) m ∧
    ((s.channel c).serving = none → u = m) ∧
    (∀ i, (s.channel c).serving = some i → i ∈ (s.channel c).pairSlots → (s.slot i).channel = some c →
      (s.slot i).state = .serving → 0 < (s.slot i).remaining →
        (u.slot i).band = bandOf (m.slot i).remaining (m.slot i).perMille (s.channel c).settings ∧
        ((u.slot i).band ≠ (s.slot i).band →
          Announced m.notices u.notices (.levelBand i c (s.slot i).band (u.slot i).band
            (m.slot i).perMille (m.slot i).remaining)) ∧
        ((s.channel c).settings.commitStep ≤ (m.slot i).uncommitted → (u.commit i).flight.isSome = true) ∧
        ((s.slot i).remaining ≤ amount →
          (u.slot i).state = .spent ∧ FailedOver m u c i .spent (m.channel c).reservations) ∧
        (amount < (s.slot i).remaining → (s.channel c).state = .supplied →
          ((∀ j, ¬m.SwitchDue c i j) → u.channel c = m.channel c) ∧
          (∀ j, m.SwitchDue c i j →
            ((∃ r ∈ (m.channel c).reservations, r.isDrawing = true) →
              SwitchesTo u c i j ∧
                Announced m.notices u.notices (.channelChanged c
                  ⟨.switchBegin, .supplied, .switching, some i, some i, some j, none⟩)) ∧
            ((∀ r ∈ (m.channel c).reservations, r.isDrawing = false) → SwitchedOver m u c i j))) ∧
        (∀ j, amount < (s.slot i).remaining → (s.channel c).state = .switching →
          (s.channel c).target = some j →
            ((∃ r ∈ (m.channel c).reservations, r.isDrawing = true) → u.channel c = m.channel c) ∧
            ((∀ r ∈ (m.channel c).reservations, r.isDrawing = false) → SwitchedOver m u c i j)))

/-! ## The choice of a lane's next entry -/

/-- The phase that a lane's search reads after `n` others (R38): its class, in the table in use until the search passes
phase 15, and then in the requested one. -/
def State.phaseAt (s : State) (l : LaneId) (n : Nat) : LaneClass :=
  (s.bus.table (if (s.lane l).wheel.val + n < 16 then (s.lane l).inUse else s.bus.requested))[
    ((s.lane l).wheel.val + n) % 16]'(Nat.mod_lt _ (by decide))

/-- The entry `e` that lane `l` takes, of a queue `before ++ e :: after`, with the wheel position and the table in use it
leaves (R38, R40, R41): the oldest of its class. In urgent mode with a COMMIT entry queued that is the class and the wheel
stays; otherwise it is the class of the first phase read that has an entry, and the wheel stands after that phase, a
wrap taking up the requested table. -/
structure State.Chosen (s : State) (l : LaneId) (before : List LaneEntry) (e : LaneEntry) (after : List LaneEntry)
    (wheel : Fin 16) (inUse : TableId) : Prop where
  queue : (s.lane l).queue = before ++ e :: after
  oldest : ∀ x ∈ before, x.laneClass ≠ e.laneClass
  urgent : s.pins.powerWarn = true → (∃ x ∈ (s.lane l).queue, x.laneClass = .commit) →
    e.laneClass = .commit ∧ wheel = (s.lane l).wheel ∧ inUse = (s.lane l).inUse
  searched : (s.pins.powerWarn = false ∨ ∀ x ∈ (s.lane l).queue, x.laneClass ≠ .commit) →
    ∃ n < 32, s.phaseAt l n = e.laneClass ∧
      (∀ m < n, ∀ x ∈ (s.lane l).queue, x.laneClass ≠ s.phaseAt l m) ∧
      wheel.val = ((s.lane l).wheel.val + n + 1) % 16 ∧
      inUse = if (s.lane l).wheel.val + n + 1 < 16 then (s.lane l).inUse else s.bus.requested

/-! ## Laws of the settings and the stores -/

/-- R43: low and high address in 64..255, low not above high. -/
def Window.lawful (w : Window) : Prop := 64 ≤ w.low ∧ w.low ≤ w.high ∧ w.high ≤ 255

/-- R37: each of the four classes stands in at least one phase. -/
def tableLawful (t : Vector LaneClass 16) : Prop := ∀ k : LaneClass, k ∈ t.toList

/-- The settings of a saved image keep the laws of windows and tables. -/
def SettingsImage.lawful (image : SettingsImage) : Prop :=
  (∀ w ∈ image.windows.toList, w.lawful) ∧ tableLawful image.tableA ∧ tableLawful image.tableB

/-- The windows and tables in force, in every copy held and in a copy being written. -/
def State.tablesLawful (s : State) : Prop :=
  (∀ w ∈ s.bus.windows.toList, w.lawful) ∧ tableLawful s.bus.tableA ∧ tableLawful s.bus.tableB ∧
    (∀ c, some c ∈ s.store.copies.toList → c.image.lawful) ∧ (∀ w, s.store.saving = some w → w.copy.image.lawful)

def State.noticesLawful (s : State) : Prop := s.notices.lawful

def State.remaindersLawful (s : State) : Prop := ∀ c, (s.channel c).volume.remaindersLawful

def State.totalsLawful (s : State) : Prop := ∀ c, (s.channel c).volume.totalLawful

def State.permitsLawful (s : State) : Prop := ∀ c, (s.channel c).permitLawful

end Sys2Proof.Machine
end

