-- ==== Sys2Proof/Certificates/Slice0/Obligations.lean ====
section
/-! DEFINITION. The statements for the provers. `s` is the state before the command. A link that is READY is
`s.host.working = false`. `State.answering` is the state with the request taken and its reply sent or owed and nothing
else changed; `State.settle` is the end of an event (log entries 12, 13), whose whole effect `Event_end` states;
`Undisturbed` says what the inner work of the blocks leaves as it is. -/

open Sys2Proof Sys2Proof.Machine

/-! ## The queue -/

/-- A step takes the command at the front of the queue and carries it out with the queue's rest. The queue is the
model's own (log entry 1). -/
def Obligations.Step_takes_front_command : Prop :=
  ∀ (s : State) (c : Instr) (rest : List Instr), s.pending = c :: rest → step s = exec c { s with pending := rest }

/-- Every command ends in a next state and leaves the waiting commands; so does every step, which on an empty queue lets
one millisecond pass (log entries 1, 40). -/
def Obligations.Every_command_completes : Prop :=
  ∀ s : State,
    (∀ c, ∃ t, exec c s = .next t ∧ t.pending = s.pending) ∧
      (∃ t, step s = .next t ∧ t.pending = s.pending.tail) ∧
      (s.pending = [] → step s = .next { s with clockMs := s.clockMs + 1 })

/-- The end of an event (R154, R156 to R159, R161, R186; log entries 12, 13). Only the Level Sense Unit, the order of
joining, the store queue, the write in progress and the places a host reset waits for can differ; slots' sensing items
do not. A converter at work goes on, and so does a write in progress, each whatever the other does; with no write in
progress and no index queued none starts. With no write in progress the first index of the urgent part, or of the
ordinary part when that is empty, leaves the queue and its write starts, with the content of that moment. A free
converter takes the oldest request of a slot that is not held off, unless POWER_WARN is asserted; its run starts and the
request leaves the queue (R158, R159, R161). With none taken a RUNNING scan goes on from its position (R156, R157):
VACANT slots and slots held off are passed over, the latter counted as deferred, and the first other entry is converted.
When all that are left are passed over, or none are left, whatever requests there are, the pass ends and the scan is
PAUSING, at position 0, which is the model's choice (log entry 49). A scan that is not RUNNING ends no pass, which for
one HALTED at its last entry is the model's reading (log entry 48). -/
def Obligations.Event_end : Prop :=
  ∀ s : State,
    s.settle = { s with
      sense := s.settle.sense
      joinStamps := s.settle.joinStamps
      history := { s.history with
        urgent := s.settle.history.urgent
        ordinary := s.settle.history.ordinary
        writing := s.settle.history.writing }
      preparation := s.settle.preparation } ∧
    s.settle.sense.slots = s.sense.slots ∧
    (s.sense.conversion.isSome = true → s.settle.sense = s.sense ∧ s.settle.joinStamps = s.joinStamps) ∧
    (s.history.writing.isSome = true → s.settle.history = s.history ∧ s.settle.preparation = s.preparation) ∧
    (s.history.writing = none → s.history.urgent = [] → s.history.ordinary = [] →
      s.settle.history = s.history ∧ s.settle.preparation = s.preparation) ∧
    (s.history.writing = none → ∀ p rest, s.history.urgent = p :: rest →
      s.settle.history.urgent = rest ∧ s.settle.history.ordinary = s.history.ordinary ∧
        ∃ w, s.settle.history.writing = some w ∧ w.place = p ∧ w.content = s.place p) ∧
    (s.history.writing = none → s.history.urgent = [] → ∀ p rest, s.history.ordinary = p :: rest →
      s.settle.history.urgent = [] ∧ s.settle.history.ordinary = rest ∧
        ∃ w, s.settle.history.writing = some w ∧ w.place = p ∧ w.content = s.place p) ∧
    (s.sense.conversion = none → s.pins.powerWarn = false → ∀ q,
      (s.sense.injected.find? fun q => !s.heldOff q.slot) = some q →
        s.settle.sense.conversion =
            some ⟨.slot q.slot, true, (s.slotSense q.slot).offset, (s.slotSense q.slot).gain, false⟩ ∧
          s.settle.sense.run = some ⟨q, []⟩ ∧
          (s.sense.heldAdmissions = [] →
            s.settle.sense.injected = s.sense.injected.filter fun x => x.slot ≠ q.slot) ∧
          (s.sense.scan ≠ .running ∨ s.sense.position < s.sense.list.length →
            s.settle.sense.scan = s.sense.scan ∧ s.settle.sense.position = s.sense.position ∧
              s.settle.sense.passes = s.sense.passes ∧ s.settle.sense.deferred = s.sense.deferred)) ∧
    (s.sense.conversion = none → s.sense.scan = .running →
      (s.pins.powerWarn = true ∨ ∀ q ∈ s.sense.injected, s.heldOff q.slot = true) →
        ∀ before src after, s.sense.list.drop s.sense.position = before ++ src :: after →
          (∀ x ∈ before, s.passesOver x) → ¬s.passesOver src →
            s.settle.sense = { s.sense with
              position := s.sense.position + before.length + 1
              passConverted := true
              conversion := some (s.regularOf src)
              deferred := s.deferredAfter before }) ∧
    (s.sense.conversion = none → s.sense.scan = .running →
      (s.sense.list.length ≤ s.sense.position ∨ s.pins.powerWarn = true ∨
        ∀ q ∈ s.sense.injected, s.heldOff q.slot = true) →
        ∀ rest, s.sense.list.drop s.sense.position = rest → (∀ x ∈ rest, s.passesOver x) →
          s.settle.sense.scan = .pausing ∧ s.settle.sense.passes = min 4294967295 (s.sense.passes + 1) ∧
            s.settle.sense.position = 0 ∧ s.settle.sense.deferred = s.deferredAfter rest ∧
            s.settle.sense.pauseTimer =
              some (if s.sense.passConverted then s.sense.pause else max s.sense.pause 1)) ∧
    (s.sense.scan ≠ .running → (s.pins.powerWarn = true ∨ ∀ q ∈ s.sense.injected, s.heldOff q.slot = true) →
      s.settle.sense = s.sense)

/-! ## Resets -/

/-- The reset of a part as delivered is the power-on reset of that part with quiet inputs: `State.reset` is its own
power-on reset (log entry 8), and what it holds (R24, R122, R198, R203): SETTINGS_DEFAULTED queued with serial 0 and
ATTN asserted, every slot VACANT with no channel, every channel IDLE, and every default of the settings (R9, R37, R43,
R122, R155, R163, R201). -/
def Obligations.Delivered_part_resets_to_itself : Prop :=
  exec (.powerOnReset ⟨Vector.replicate 16 false, false, false, false, false, true, Vector.replicate 2 false⟩)
      State.reset = .next State.reset ∧
    State.reset.notices.queue = [⟨0, .settingsDefaulted⟩] ∧ State.reset.notices.attn = true ∧
    State.reset.host.rate = 115200 ∧ State.reset.debounceTime = 50 ∧
    (∀ i, (State.reset.slot i).Vacated ∧ (State.reset.slot i).channel = none) ∧
    (∀ c, (State.reset.channel c).state = .idle ∧ (State.reset.channel c).pair = none ∧
      (State.reset.channel c).settings =
        { inkCode := c.val + 1
          weightSmall := 0
          weightMedium := 0
          weightLarge := 0
          beta := 0
          referenceCode := 80
          lowLevel := 150
          veryLowLevel := 50
          switchLevel := 30
          commitStep := 500000
          flowWindow := 1000
          flowCeiling := 0
          upperThreshold := 0
          lowerThreshold := 0
          waitLimit := 2000
          refillTolerance := 150
          deficitTolerance := 200
          persistence := 4
          refillPolicy := .warn }) ∧
    State.reset.bus.windows = Vector.replicate 4 ⟨64, 255, false, false⟩ ∧
    State.reset.bus.tableA =
      #v[.admission, .commit, .pass, .commit, .admission, .commit, .mark, .commit,
         .admission, .commit, .pass, .commit, .admission, .commit, .mark, .commit] ∧
    State.reset.bus.tableB = State.reset.bus.tableA ∧ State.reset.bus.requested = .a ∧
    State.reset.sense.list = (List.finRange 16).map Source.slot ++ [.reference] ∧ State.reset.sense.pause = 50 ∧
    (∀ i, (State.reset.slotSense i).offset = 0 ∧ (State.reset.slotSense i).gain = 1000) ∧
    State.reset.notices.mask = BitVec.allOnes 18

/-- What the three resets leave in the slots, the commits, the cartridge bus, the Digest Engine, the Tally Receiver and
the Level Sense Unit (R24, R48, R67, R68, R79, R118, R171), whose converter then takes its first work in the same event
(log entry 13). A host reset takes effect when its preparation has ended (R204). -/
def Obligations.Reset_of_slots_and_bus : Prop :=
  ∀ (s : State) (inputs : ResetInputs) (c : Instr),
    (c = .powerOnReset inputs ∨ c = .pinReset inputs ∨ c = .hostReset inputs ∧ s.resetPrepared = true) →
      ∃ t, exec c s = .next t ∧ t.pins = ⟨inputs.presence, inputs.powerWarn⟩ ∧
        (∀ i, (t.slot i).Vacated ∧ (t.slot i).channel = namingChannel (fun d => (t.channel d).pair) i ∧
          t.commit i = ⟨none, .clear, 0, none⟩ ∧ t.bus.wanted[i.val] = ⟨false, false⟩ ∧
          t.debounceOf i = if inputs.presence[i.val] then some t.debounceTime else none) ∧
        (∀ l, t.lane l = ⟨.idle, [], 0, t.bus.requested⟩) ∧
        t.bus.lastTicket = 0 ∧ t.bus.protection = ⟨0, none⟩ ∧ t.engine = ⟨none, [], []⟩ ∧
        t.tally = ⟨Vector.replicate 4 ⟨none, 0, 0, 0, 0, 0⟩, 0, 0, 0, inputs.tstrobe, []⟩ ∧
        ∃ u : State, t = u.settle ∧
          u.sense =
            { list := t.sense.list
              pause := t.sense.pause
              pendingScan := none
              scan := if inputs.powerWarn then .halted else if t.sense.list = [] then .pausing else .running
              pauseTimer := none
              position := 0
              passConverted := false
              conversion := none
              run := none
              injected := []
              heldAdmissions := []
              reference := .unread
              lastReference := none
              deferred := 0
              passes := 0
              slots := t.sense.slots } ∧
          ∀ i, t.slotSense i = ⟨(t.slotSense i).offset, (t.slotSense i).gain, [], 0, 0, 0, 0⟩

/-- What the three resets load, and what they leave in the channels, the History Unit, the host link, the notices and
the reset cause (R37, R43, R65, R101, R122, R137, R153, R155, R163, R173, R192, R193, R198, R199, R201, R203, R205). The
Volume Unit's items are those of R101, with the flow window's length that of the settings also for an IDLE channel (log
entry 20); the recency counter is the highest stamp, 0 with no entry; the next serial is 0, or 1 after
SETTINGS_DEFAULTED. A copy that fails its check or whose write the reset cuts off is not whole; of two whole ones the
one whose save count is one above is in force, and two of which neither is are both refused (log entry 25). With a copy
in force every setting is the copy's, with none it is the default; a host reset under the policy lock keeps the refill
policies and the windows. An image that passes its check is the one held (log entry 7), without a write in progress that
the reset did not wait for (log entry 26). -/
def Obligations.Reset_of_channels_and_link : Prop :=
  ∀ (s : State) (inputs : ResetInputs) (c : Instr) (kind : ResetKind),
    (c = .powerOnReset inputs ∧ kind = .powerOn ∨ c = .pinReset inputs ∧ kind = .pin ∨
      c = .hostReset inputs ∧ kind = .host ∧ s.resetPrepared = true) →
      ∃ t, exec c s = .next t ∧
        (∀ d, ((t.channel d).state = .idle ∨ (t.channel d).state = .unsupplied) ∧ (t.channel d).serving = none ∧
          (t.channel d).target = none ∧ (t.channel d).permit = false ∧ (t.channel d).tallyUncertain = false ∧
          (t.channel d).flowExcess = false ∧ (t.channel d).unreservedDraw = false ∧
          (t.channel d).splitLast = false ∧ (t.channel d).reservations = [] ∧ (t.channel d).stall = false ∧
          (t.channel d).lastId = 0 ∧
          (t.channel d).volume =
            { residue := 0
              accumulator := 0
              totalCharged := 0
              chargedToSlots := 0
              unattributed := 0
              overdraw := 0
              unreservedDraw := 0
              uncorrected := 0
              clamped := 0
              windowSum := 0
              lastWindowFlow := 0
              peakFlow := 0
              peakArmed := true
              windowLength := (t.channel d).settings.flowWindow
              lastWindowLength := none }) ∧
        t.history.image = (if inputs.historyCheck then s.history.image else Vector.replicate 64 none) ∧
        t.history.places = t.history.image ∧ t.history.forfeited = 0 ∧ t.history.urgent = [] ∧
        t.history.ordinary = [] ∧ t.history.writing = none ∧ t.history.round = none ∧
        (∀ p e, t.place p = some e → e.stamp ≤ t.history.recency) ∧
        (t.history.recency = 0 ∨ ∃ p e, t.place p = some e ∧ e.stamp = t.history.recency) ∧
        t.cause = ⟨kind, !inputs.historyCheck, t.store.inForce.isNone⟩ ∧
        t.host = ⟨.hunting, false, none, [], rateOf inputs.baud1 inputs.baud0, 0, 0, 0, 0⟩ ∧
        t.notices.queue = (if t.store.inForce.isNone then [⟨0, .settingsDefaulted⟩] else []) ∧
        t.notices.nextSerial = (if t.store.inForce.isNone then 1 else 0) ∧
        t.notices.dropped = 0 ∧ t.notices.attn = t.store.inForce.isNone ∧ t.preparation = none ∧
        t.store.saving = none ∧
        (∀ k : Fin 2, t.store.copies[k.val] =
          if inputs.copyCheck[k.val] = true ∧ (s.store.saving.map fun w => w.target) ≠ some k then
            s.store.copies[k.val]
          else none) ∧
        (t.store.inForce = match t.store.copies[0], t.store.copies[1] with
          | some a, some b =>
            if a.saveCount = (b.saveCount + 1) % 4294967296 then some 0
            else if b.saveCount = (a.saveCount + 1) % 4294967296 then some 1
            else none
          | some _, none => some 0
          | none, some _ => some 1
          | none, none => none) ∧
        ∀ image : SettingsImage,
          (t.store.inForce = none → image = defaultImage) →
          (∀ k v, t.store.inForce = some k → t.store.copies[k.val] = some v → image = v.image) →
            (∀ d : ChannelId,
              (t.channel d).state = (if image.channels[d.val].enabled then .unsupplied else .idle) ∧
              (t.channel d).pair = image.channels[d.val].pair ∧
              (t.channel d).settings =
                if kind = .host ∧ s.keys.policyLock = true then
                  { image.channels[d.val].settings with refillPolicy := (s.channel d).settings.refillPolicy }
                else image.channels[d.val].settings) ∧
            t.bus.windows =
              (if kind = .host ∧ s.keys.policyLock = true then s.bus.windows else image.windows) ∧
            t.bus.tableA = image.tableA ∧ t.bus.tableB = image.tableB ∧ t.bus.requested = image.requested ∧
            t.sense.list = image.scanList ∧ t.sense.pause = image.pause ∧ t.debounceTime = image.debounceTime ∧
            (∀ i, (t.slotSense i).offset = image.calibrations[i.val].offset ∧
              (t.slotSense i).gain = image.calibrations[i.val].gain) ∧
            t.notices.mask = image.noticeMask

/-- The Key Store, the policy lock and what the lock freezes, at each reset (R59, R63, R65). -/
def Obligations.Reset_of_keys_and_lock : Prop :=
  ∀ (s : State) (inputs : ResetInputs),
    (∀ c, c = .powerOnReset inputs ∨ c = .pinReset inputs →
      ∃ t, exec c s = .next t ∧ t.keys.policyLock = false ∧ t.keys.writing = none ∧ t.keys.cell = s.keys.cell ∧
        (s.keys.cell = .blank → t.keys.state = .unprovisioned) ∧
        (∀ root, s.keys.cell = .written root → t.keys.state = .provisioned root) ∧
        (s.keys.cell = .damaged → t.keys.state = .damaged)) ∧
    (s.resetPrepared = true →
      ∃ t, exec (.hostReset inputs) s = .next t ∧ t.keys = s.keys ∧
        (s.keys.policyLock = true →
          t.bus.windows = s.bus.windows ∧
            ∀ d, (t.channel d).settings.refillPolicy = (s.channel d).settings.refillPolicy))

/-- A host RESET does not take effect before it was asked for, before its reply has been sent, or while a write it waits
for is still to be made, a key write included; the command then changes nothing (R191, R204; log entry 31). -/
def Obligations.Host_reset_waits : Prop :=
  ∀ (s : State) (inputs : ResetInputs),
    (∀ p, s.preparation = some p →
      p.replySent = false ∨ p.waits ≠ [] ∨ s.keys.writing ≠ none ∨
        ∃ w, s.history.writing = some w ∧ w.forReset = true) →
      exec (.hostReset inputs) s = .next s

/-! ## POWER_WARN -/

/-- The two edges of POWER_WARN. The assertion keeps slots, channels and settings, halts the scan, starts a preservation
round of the reconciled slots' entries, which with none of them ends at once with POWER_PRESERVED, and takes a commit
for every admitted slot with uncommitted consumption (R116, R161, R189, R190). The deassertion resumes a halted scan
(R161). An edge to the level already held changes nothing (log entry 15). -/
def Obligations.Power_warn_edges : Prop :=
  ∀ s : State,
    (s.pins.powerWarn = false →
      exec .powerWarnDeassert s = .next s ∧
      ∃ t, exec .powerWarnAssert s = .next t ∧ t.pins = { s.pins with powerWarn := true } ∧ t.slots = s.slots ∧
        t.channels = s.channels ∧ t.host = s.host ∧ t.keys = s.keys ∧ t.tally = s.tally ∧ t.store = s.store ∧
        t.bus.windows = s.bus.windows ∧ t.debounce = s.debounce ∧ t.sense.scan = .halted ∧
        t.history.round =
          (if s.preservedPlaces = [] then none else some ⟨s.preservedPlaces, s.preservedPlaces.length⟩) ∧
        (s.preservedPlaces = [] → Announced s.notices t.notices (.powerPreserved 0)) ∧
        ∀ i, (s.slot i).state.isAdmitted = true → 0 < (s.slot i).uncommitted → (t.commit i).flight.isSome = true) ∧
    (s.pins.powerWarn = true →
      exec .powerWarnAssert s = .next s ∧
      exec .powerWarnDeassert s = .next
        (State.settle { s with
          pins := { s.pins with powerWarn := false }
          sense :=
            if s.sense.scan = .halted then
              { s.sense with
                scan := if s.sense.list.isEmpty then .pausing else .running
                pauseTimer := none }
            else s.sense }))

/-- At the assertion of POWER_WARN the entry of a reconciled slot takes the slot's uncommitted as its pending charge and
the exposed amount as its uncertain part, each absent when 0, and is queued urgent or already being written as it then
stands (R109, R189). The exposed amount is the one before the forced commits of the same event, and a write already in
progress goes on (log entries 15, 12). No other reconciled slot's cartridge has the entry (R172). Of two entries of one
serial the one found is log entry 56's. -/
def Obligations.Power_warn_preserves : Prop :=
  ∀ (s : State) (i : SlotId) (p : PlaceId) (e : HistoryEntry),
    s.pins.powerWarn = false → (s.slot i).isReconciled = true → s.entryOf i = some p → s.place p = some e →
      (∀ j, j ≠ i → (s.slot j).isReconciled = true → s.entryOf j ≠ some p) →
        ∃ t, exec .powerWarnAssert s = .next t ∧
          t.place p = some { e with
            pendingCharge := if (s.slot i).uncommitted = 0 then none else some (s.slot i).uncommitted
            uncertain := if s.exposed i = 0 then none else some (s.exposed i) } ∧
          (p ∈ t.history.urgent ∨
            ∃ w, t.history.writing = some w ∧ w.place = p ∧ w.content = t.place p ∧ w.forRound = true)

/-! ## Presence -/

/-- Presence edges (R8). A gain on a VACANT slot starts the debounce timer, or starts it again, from the full time; on
any other slot it changes only the input's level. A loss on a VACANT slot cancels the timer; either command says so (log
entry 4). -/
def Obligations.Presence_edges : Prop :=
  ∀ (s : State) (i : SlotId),
    ((s.slot i).state = .vacant →
      exec (.presenceGain i) s = .next
        { s with
          pins := { s.pins with presence := s.pins.presence.set i.val true i.isLt }
          debounce := s.debounce.set i.val (some s.debounceTime) i.isLt } ∧
      ∀ c, c = .removal i ∨ c = .presenceLossDuringDebounce i →
        exec c s = .next
          (State.settle { s with
            pins := { s.pins with presence := s.pins.presence.set i.val false i.isLt }
            debounce := s.debounce.set i.val none i.isLt })) ∧
    ((s.slot i).state ≠ .vacant →
      exec (.presenceGain i) s = .next
        { s with pins := { s.pins with presence := s.pins.presence.set i.val true i.isLt } })

/-- A loss of presence in any state but VACANT is a removal (R21, log entry 4): SLOT_CHANGED is raised, the Slot Record
takes its VACANT values and keeps its channel, the commit state its initial values, the slot's marks, lane entries,
transaction and requests are gone, its pass-throughs end ABORTED (R45; log entry 29), its ring and counts are empty. The
slot's queued jobs are withdrawn, a running one is discarded, a held one dropped, and a place that falls free takes the
job of the lane at the head of the held ones (R29, R56, R57). A channel that it served fails over, and one that was
switching to it stays on its slot (R131, R132). The part's other settings, stores, link and counters stay as they are.
-/
def Obligations.Removal_empties_the_slot : Prop :=
  ∀ (s : State) (i : SlotId) (c : Instr),
    (s.slot i).state ≠ .vacant → c = .removal i ∨ c = .presenceLossDuringDebounce i →
      ∃ t, exec c s = .next t ∧
        Undisturbed { s with pins := { s.pins with presence := s.pins.presence.set i.val false i.isLt } } t ∧
        (t.slot i).Vacated ∧ (t.slot i).channel = (s.slot i).channel ∧ t.commit i = ⟨none, .clear, 0, none⟩ ∧
        t.bus.wanted[i.val] = ⟨false, false⟩ ∧ (t.slotSense i).ring = [] ∧ (t.slotSense i).goodRun = 0 ∧
        (t.slotSense i).rise = 0 ∧ (t.slotSense i).deficit = 0 ∧ (∀ q ∈ t.sense.injected, q.slot ≠ i) ∧
        (∀ e ∈ (t.lane (laneOf i)).queue, e.slot ≠ i) ∧
        (∀ x, (t.lane (laneOf i)).state = .onWire x → x.entry.slot ≠ i) ∧
        (∀ r, t.sense.run = some r → r.request.slot ≠ i) ∧
        Announced s.notices t.notices (.slotChanged i (s.slot i).state .vacant none none none) ∧
        (∀ e tk, e.slot = i → e.laneClass = .pass → e.ticket = some tk →
          (e ∈ (s.lane (laneOf i)).queue ∨ ∃ x, (s.lane (laneOf i)).state = .onWire x ∧ x.entry = e) →
            Announced s.notices t.notices (.passthroughDone i tk .aborted)) ∧
        (∀ r, s.engine.running = some r →
          t.engine.running = some { r with discarded := r.discarded || decide (r.job.slot = i) }) ∧
        (∀ j, (s.lane (laneOf i)).state = .held j → j.slot = i →
          laneOf i ∉ t.engine.heldLanes ∧ ∀ k, (t.lane (laneOf i)).state ≠ .held k) ∧
        (∀ held : List LaneId,
          ((∃ j, (s.lane (laneOf i)).state = .held j ∧ j.slot = i) →
            held = s.engine.heldLanes.filter fun l => l ≠ laneOf i) →
          ((∀ j, (s.lane (laneOf i)).state = .held j → j.slot ≠ i) → held = s.engine.heldLanes) →
            ((∀ j ∈ s.engine.queue, j.slot ≠ i) →
              t.engine.queue = s.engine.queue ∧ t.engine.heldLanes = held) ∧
            (∀ j ∈ s.engine.queue, j.slot = i →
              (held = [] → t.engine.queue = (s.engine.queue.filter fun k => k.slot ≠ i) ∧ t.engine.heldLanes = []) ∧
              (∀ l rest k, held = l :: rest → (s.lane l).state = .held k → s.engine.running ≠ none →
                t.engine.queue = (s.engine.queue.filter fun x => x.slot ≠ i) ++ [k] ∧ t.engine.heldLanes = rest ∧
                  ∀ x, (t.lane l).state ≠ .held x))) ∧
        (∀ ch, (s.slot i).channel = some ch → (s.channel ch).serving = some i → i ∈ (s.channel ch).pairSlots →
          FailedOver s t ch i .removed (s.channel ch).reservations) ∧
        (∀ ch k, (s.slot i).channel = some ch → (s.channel ch).serving = some k → k ≠ i →
          (s.channel ch).state = .switching → (s.channel ch).target = some i →
            (t.channel ch).state = .supplied ∧ (t.channel ch).serving = some k ∧ (t.channel ch).target = none ∧
              Announced s.notices t.notices
                (.channelChanged ch ⟨.switchCancelled, .switching, .supplied, some k, some k, none, none⟩))

/-- At the removal of a cartridge from a slot that has passed reconciliation its entry takes the slot's uncommitted as
pending charge, the slot as last slot, and the next stamp, and its uncertain part is the exposed amount (R21, R109,
R117, R173; a loss of presence in any state but VACANT is a removal, log entry 4). With a commit WAITING the last needs
that lanes work for their own slots, as the laws have it (Table 1-1). The next stamp is the recency counter's next
value, or, with the counter at its maximum, the number of entries plus 1 after every entry took its rank by old stamp
(the lower place first where two have one stamp, log entry 55). Of two entries of one serial the one found is log entry
56's. -/
def Obligations.Removal_preserves_the_account : Prop :=
  ∀ (s : State) (i : SlotId) (p : PlaceId) (e : HistoryEntry) (c : Instr) (stamp : Nat),
    (s.slot i).state ≠ .vacant → c = .removal i ∨ c = .presenceLossDuringDebounce i →
      (s.slot i).reconciled = true → s.entryOf i = some p → s.place p = some e → s.history.recency ≤ 4294967295 →
        stamp = (if s.history.recency = 4294967295 then s.history.count else s.history.recency) + 1 →
        ∃ t e', exec c s = .next t ∧ t.place p = some e' ∧ t.history.recency = stamp ∧
          e' = { e with
            pendingCharge := if (s.slot i).uncommitted = 0 then none else some (s.slot i).uncommitted
            uncertain := e'.uncertain
            lastSlot := i
            stamp := stamp } ∧
          (((∀ f, (s.commit i).flight = some f → f.phase ≠ .waiting) ∨ ∀ l, (s.lane l).Lawful l) →
            e'.uncertain = if s.exposed i = 0 then none else some (s.exposed i)) ∧
          (∀ q, q ≠ p → t.place q = (s.place q).map fun x =>
            { x with stamp := if s.history.recency = 4294967295 then s.history.rank q x.stamp else x.stamp })

/-- A slot's debounce timer expires (R10, R14). With no channel the slot enters SEATING and is parked. With a channel it
enters READING and a DESCRIBE joins its lane's queue; an IDLE lane with an empty queue takes it at once (R25; both
tables hold every class, R37). Without a timer, or on a slot that is not VACANT, nothing changes (log entry 3). -/
def Obligations.Debounce_expiry_seats : Prop :=
  ∀ (s : State) (i : SlotId),
    ((s.debounceOf i).isSome = true → (s.slot i).state = .vacant → (s.slot i).channel = none →
      exec (.seatDebounceExpiry i) s = .next
        (State.settle (State.raise
          { s with
            debounce := s.debounce.set i.val none i.isLt
            slots := s.slots.set i.val { s.slot i with state := .seating } i.isLt }
          (.slotChanged i .vacant .seating none none none)))) ∧
    (∀ c, (s.debounceOf i).isSome = true → (s.slot i).state = .vacant → (s.slot i).channel = some c →
      ∃ t, exec (.seatDebounceExpiry i) s = .next t ∧
        Undisturbed { s with debounce := s.debounce.set i.val none i.isLt } t ∧
        t.slots = s.slots.set i.val { s.slot i with state := .reading } i.isLt ∧ t.channels = s.channels ∧
        ((s.lane (laneOf i)).state ≠ .idle →
          t.lane (laneOf i) =
            { s.lane (laneOf i) with queue := (s.lane (laneOf i)).queue ++ [⟨i, .describe, none⟩] }) ∧
        ((s.lane (laneOf i)).state = .idle → (s.lane (laneOf i)).queue = [] → tableLawful s.bus.tableA →
          tableLawful s.bus.tableB →
            (t.lane (laneOf i)).state = .onWire ⟨⟨i, .describe, none⟩, 0, 0, .replyWait, false⟩ ∧
              (t.lane (laneOf i)).queue = [])) ∧
    ((s.debounceOf i).isSome = false ∨ (s.slot i).state ≠ .vacant → exec (.seatDebounceExpiry i) s = .next s.settle)

/-! ## The host link -/

/-- Frames that are not acted on (R193 to R195; log entry 14 for when an answer starts and when its place is full). A
frame with a wrong CRC and a length field above 2,048 are counted and answered BAD_FRAME: sent at once when the
transmitter is free, otherwise owed, and with an answer already waiting the frame is discarded and counted. A partial
frame is discarded and counted (log entry 33). A character without its stop bit discards a partial frame, if there is
one or the command says so, and leaves the receiver HUNTING. -/
def Obligations.Frames_not_acted_on : Prop :=
  ∀ s : State,
    (∀ c, c = .badFrame ∨ c = .oversizedLength →
      exec c s = .next { s with host :=
        if s.host.placeFull then
          { s.host with
            receiver := .hunting
            badFrames := min 65535 (s.host.badFrames + 1)
            overruns := min 65535 (s.host.overruns + 1) }
        else if s.host.transmitting = none then
          { s.host with
            receiver := .hunting
            badFrames := min 65535 (s.host.badFrames + 1)
            transmitting := some (.answer .badFrame) }
        else
          { s.host with
            receiver := .hunting
            badFrames := min 65535 (s.host.badFrames + 1)
            outgoing := s.host.outgoing ++ [.answer .badFrame] } }) ∧
    exec .partialFrameGapExpiry s = .next { s with host :=
      { s.host with receiver := .hunting, discardedPartials := min 65535 (s.host.discardedPartials + 1) } } ∧
    (∀ midFrame, exec (.missingStopBit midFrame) s = .next { s with host :=
      if midFrame = true ∨ s.host.receiver ≠ .hunting then
        { s.host with receiver := .hunting, discardedPartials := min 65535 (s.host.discardedPartials + 1) }
      else { s.host with receiver := .hunting } })

/-- A good frame that completes while the link is WORKING, of any of the 28 kinds or of none, is answered BUSY with its
own kind and tag and counted, or discarded and counted with an answer already waiting, and changes nothing else (R195;
log entry 14 for the place and the count, log entry 5 for a request command while WORKING). The command BUSY_ANSWER says
the same of any frame; on a READY link it changes nothing (log entry 3). -/
def Obligations.Busy_frames : Prop :=
  ∀ (s : State) (kind tag : Byte),
    (s.host.working = true →
      (∀ c wrong, requestFrameOf c = some ⟨kind, tag, wrong⟩ →
        ∃ t, exec c s = .next t ∧ Ended { s with host := s.hostBusy kind tag } t) ∧
      (knownKind kind = false → exec (.unknownKind kind tag) s = .next { s with host := s.hostBusy kind tag }) ∧
      exec (.busyAnswer kind tag) s = .next { s with host := s.hostBusy kind tag }) ∧
    (s.host.working = false → exec (.busyAnswer kind tag) s = .next s)

/-- A request whose body has not the length of its kind's fields is answered BAD_ARGUMENT, and a kind that names no
request UNKNOWN_KIND, with the request's tag and no further fields, and nothing else changes (R196). A kind of Table
11-3 is another command: UNKNOWN_KIND with it changes nothing (log entry 3). -/
def Obligations.Refused_at_the_link : Prop :=
  ∀ (s : State) (kind tag : Byte), s.host.working = false →
    (∀ c, requestFrameOf c = some ⟨kind, tag, true⟩ →
      ∃ t, exec c s = .next t ∧ Ended (s.answering kind tag .badArgument .none) t) ∧
    ((kind.toNat = 0 ∨ 0x1C < kind.toNat) →
      exec (.unknownKind kind tag) s = .next (s.answering kind tag .unknownKind .none)) ∧
    ((1 ≤ kind.toNat ∧ kind.toNat ≤ 0x1C) → exec (.unknownKind kind tag) s = .next s)

/-- The last byte of a frame has been sent (R195): the next owed frame is sent. The end of a reply returns the link to
READY, but for the reply to RESET, whose end is noted for the reset's preparation (R204). With no frame in transmission
nothing changes (log entry 3). -/
def Obligations.Frame_sent : Prop :=
  ∀ s : State,
    (s.host.transmitting = none → exec .hostFrameTransmitted s = .next s) ∧
    (∀ f, s.host.transmitting = some f →
      ∃ t, exec .hostFrameTransmitted s = .next t ∧
        t = { s with host := t.host, preparation := t.preparation } ∧
        t.host.transmitting = s.host.outgoing.head? ∧ t.host.outgoing = s.host.outgoing.tail ∧
        t.host = { s.host with
          transmitting := t.host.transmitting
          outgoing := t.host.outgoing
          working := t.host.working } ∧
        (∀ r, f = .reply r → s.preparation = none → t.host.working = false ∧ t.preparation = none) ∧
        (∀ r p, f = .reply r → s.preparation = some p →
          t.host.working = s.host.working ∧ t.preparation = some { p with replySent := true }) ∧
        (∀ a, f = .answer a → t.host.working = s.host.working ∧ t.preparation = s.preparation))

/-- From a HUNTING receiver the bytes of a host frame of any kind, tag and body of at most 2,048 bytes give no command
before the last, and then the command that the kind, the tag and the body spell, with the receiver HUNTING again (R193,
R194, Tables 11-3 and 11-7). How bytes become commands is log entry 33's, and what a body is read as where R206 leaves
it open log entries 6 and 30's. -/
def Obligations.Host_frames_are_received : Prop :=
  ∀ (kind tag : Byte) (body : List Byte), body.length ≤ 2048 →
    (∀ n, n + 1 < (hostFrame kind tag body).length →
      ∃ bytes, ((hostFrame kind tag body).take (n + 1)).foldl
        (fun (x : Receiver × List Instr) b => ((x.1.feed b).1, x.2 ++ (x.1.feed b).2.toList)) (.hunting, []) =
          (.collecting bytes, [])) ∧
    (hostFrame kind tag body).foldl
      (fun (x : Receiver × List Instr) b => ((x.1.feed b).1, x.2 ++ (x.1.feed b).2.toList)) (.hunting, []) =
        (.hunting, [readRequest kind tag body])

/-! ## Reading requests -/

/-- STATUS_GET is answered OK with the state of the whole part and changes nothing else (R170, R197); HISTORY_GET is
answered with the entry of a place, named by index or by the serial it holds, and where its index stands (a place both
queued and being written shows its queue part, log entry 42), UNKNOWN_ID when there is none, BAD_ARGUMENT for an index
above 63 or a selector that is neither (R187, Table 11-2, log entry 45), and changes nothing else. What the scan
position shows is log entry 49's, and which slot holds a serial that two slots hold log entry 50's. Of two entries of
one serial the one found is log entry 56's. -/
def Obligations.Status_and_history_get : Prop :=
  ∀ (s : State) (tag : Byte), s.host.working = false →
    (∃ r, exec (.statusGet tag (.fields ())) s = .next (s.answering 0x01 tag .ok (.status r)) ∧
      r.cause = s.cause ∧ r.policyLock = s.keys.policyLock ∧ r.powerWarn = s.pins.powerWarn ∧
      r.requested = s.bus.requested ∧ r.heads = s.tally.heads ∧ r.tallyBadFrames = s.tally.badFrames ∧
      r.idleEntries = s.tally.idleEntries ∧ r.handedOn = s.tally.handedOn ∧ r.level.scan = s.sense.scan ∧
      r.level.position = s.sense.position ∧ r.level.reference = s.sense.reference ∧
      r.level.deferred = s.sense.deferred ∧ r.level.passes = s.sense.passes ∧
      r.history.forfeited = s.history.forfeited ∧ r.history.recency = s.history.recency ∧
      r.history.writing = s.history.writing.isSome ∧ r.notices = s.notices.queue.length ∧
      r.dropped = s.notices.dropped ∧ r.nextSerial = s.notices.nextSerial ∧ r.badFrames = s.host.badFrames ∧
      r.discardedPartials = s.host.discardedPartials ∧ r.busy = s.host.busy ∧ r.overruns = s.host.overruns ∧
      (∀ i : SlotId, r.slots[i.val] = (s.slot i).state) ∧
      (∀ c : ChannelId, r.channels[c.val] = ⟨(s.channel c).state, (s.channel c).serving⟩) ∧
      (∀ i : SlotId, r.level.slots[i.val] =
        { offset := (s.slotSense i).offset
          gain := (s.slotSense i).gain
          levels := (s.slotSense i).ring.length
          sensed := if (s.slotSense i).ring.length = 4 then some ((s.slotSense i).ring.sum / 4) else none
          rise := (s.slotSense i).rise
          deficit := (s.slotSense i).deficit
          goodRun := (s.slotSense i).goodRun
          hostSenses := (s.slotSense i).hostSenses }) ∧
      (r.key = .unprovisioned ↔ s.keys.state = .unprovisioned) ∧
      (r.key = .provisioned ↔ ∃ root, s.keys.state = .provisioned root) ∧
      (r.key = .damaged ↔ s.keys.state = .damaged) ∧
      (∀ l : LaneId, r.lanes[l.val].inUse = (s.lane l).inUse ∧
        (r.lanes[l.val].state = .idle ↔ (s.lane l).state = .idle) ∧
        (r.lanes[l.val].state = .onWire ↔ ∃ x, (s.lane l).state = .onWire x) ∧
        (r.lanes[l.val].state = .held ↔ ∃ j, (s.lane l).state = .held j)) ∧
      r.level.list = s.sense.list ∧ r.level.pause = s.sense.pause ∧ r.level.pendingScan = s.sense.pendingScan ∧
      r.level.injected = (s.sense.injected.map fun q => ⟨q.slot, q.reasons⟩) ∧
      r.level.runSlot = (s.sense.run.map fun x => x.request.slot) ∧
      r.level.lastReference = s.sense.lastReference ∧
      r.history.entries = (s.history.places.toList.countP fun e => e.isSome) ∧
      r.history.urgentLength = s.history.urgent.length ∧ r.history.ordinaryLength = s.history.ordinary.length ∧
      r.history.roundRunning = s.history.round.isSome) ∧
    (∀ (p : PlaceId) (e : HistoryEntry), s.place p = some e → ∀ name,
      (name = .index p.val ∨ ∃ n, name = .serial n ∧ s.findEntry n = some p) →
        ∃ r, exec (.historyGet tag (.fields name)) s = .next (s.answering 0x04 tag .ok (.history r)) ∧
          r.place = p ∧ r.entry = e ∧ r.seatedIn = s.seatedIn e.serial ∧ r.forfeited = s.history.forfeited ∧
          r.entries = (s.history.places.toList.countP fun x => x.isSome) ∧
          (r.standing = .urgent ↔ p ∈ s.history.urgent) ∧
          (r.standing = .ordinary ↔ p ∉ s.history.urgent ∧ p ∈ s.history.ordinary) ∧
          (r.standing = .writing ↔ p ∉ s.history.urgent ∧ p ∉ s.history.ordinary ∧
            ∃ w, s.history.writing = some w ∧ w.place = p)) ∧
    (∀ name,
      ((∃ p : PlaceId, name = .index p.val ∧ s.place p = none) ∨ ∃ n, name = .serial n ∧ s.findEntry n = none) →
        exec (.historyGet tag (.fields name)) s = .next (s.answering 0x04 tag .unknownId .none)) ∧
    (∀ name, (name = .badSelector ∨ ∃ n, name = .index n ∧ 63 < n) →
      exec (.historyGet tag (.fields name)) s = .next (s.answering 0x04 tag .badArgument .none))

/-- SLOT_GET (R23): a slot above 15 is refused BAD_ARGUMENT; otherwise the reply is OK and carries the record, the
remaining estimate as formed at that moment, and TALLY_UNCERTAIN as R4 gives it. Nothing else changes. -/
def Obligations.Slot_get : Prop :=
  ∀ (s : State) (tag : Byte) (n : Nat), s.host.working = false →
    (15 < n → exec (.slotGet tag (.fields n)) s = .next (s.answering 0x02 tag .badArgument .none)) ∧
    (∀ i : SlotId, i.val = n →
      ∃ r, exec (.slotGet tag (.fields n)) s = .next (s.answering 0x02 tag .ok (.slot r)) ∧
        r.state = (s.slot i).state ∧ r.channel = (s.slot i).channel ∧ r.description = (s.slot i).description ∧
        r.quality = (s.slot i).quality ∧ r.rejectReason = (s.slot i).rejectReason ∧
        r.faultReason = (s.slot i).faultReason ∧ r.committed = (s.slot i).committed ∧
        r.uncommitted = (s.slot i).uncommitted ∧
        r.remaining = (match (s.slot i).description with
          | some d => d.nominalFill
          | none => 0) - (s.slot i).committed - (s.slot i).uncommitted ∧
        r.band = (s.slot i).band ∧ r.senseUnchecked = (s.slot i).senseUnchecked ∧
        r.levelDisagree = (s.slot i).levelDisagree ∧ r.sensorFault = (s.slot i).sensorFault ∧
        (r.tallyUncertain = true ↔ (s.slot i).state = .serving ∧
          ∃ c, (s.slot i).channel = some c ∧ (s.channel c).tallyUncertain = true))

/-- CHANNEL_GET (R93, R94, R99, R100, R136, R152): a channel above 7 is refused BAD_ARGUMENT; otherwise the reply shows
the channel as it stood, its serving slot's remaining estimate, per mille and band, its counters with the time to empty
in seconds, and its reservations, each with what is left of its wait on the model's clock (log entry 1); and the request
clears TALLY_UNCERTAIN (R75) and re-arms the peak from 0 (R97). Nothing else changes. -/
def Obligations.Channel_get : Prop :=
  ∀ (s : State) (tag : Byte) (n : Nat), s.host.working = false →
    (7 < n → exec (.channelGet tag (.fields n)) s = .next (s.answering 0x03 tag .badArgument .none)) ∧
    (∀ c : ChannelId, c.val = n →
      ∃ r, exec (.channelGet tag (.fields n)) s = .next
          (State.answering
            { s with channels := s.channels.set c.val { s.channel c with
                tallyUncertain := false
                volume := { (s.channel c).volume with peakFlow := 0, peakArmed := true } } c.isLt }
            0x03 tag .ok (.channel r)) ∧
        r.state = (s.channel c).state ∧ r.settings = (s.channel c).settings ∧ r.pair = (s.channel c).pair ∧
        r.serving = (s.channel c).serving ∧ r.target = (s.channel c).target ∧
        r.tallyUncertain = (s.channel c).tallyUncertain ∧ r.flowExcess = (s.channel c).flowExcess ∧
        r.unreservedDraw = (s.channel c).unreservedDraw ∧ r.splitLast = (s.channel c).splitLast ∧
        r.volume.totalCharged = (s.channel c).volume.totalCharged ∧
        r.volume.peakFlow = (s.channel c).volume.peakFlow ∧ r.volume.peakArmed = (s.channel c).volume.peakArmed ∧
        r.volume.lastWindowFlow = (s.channel c).volume.lastWindowFlow ∧
        r.reservations.outstanding = (s.channel c).outstanding ∧ r.reservations.available = s.available c ∧
        r.reservations.stall = (s.channel c).stall ∧ r.reservations.lastId = (s.channel c).lastId ∧
        r.reservations.list.length = (s.channel c).reservations.length ∧
        ((s.channel c).serving = none → r.volume.timeToEmpty = 0 ∧ r.servingReport = none) ∧
        (∀ i, (s.channel c).serving = some i →
          r.servingReport = some ⟨(s.slot i).remaining, (s.slot i).perMille,
            match (s.slot i).channel with
            | some d => bandOf (s.slot i).remaining (s.slot i).perMille (s.channel d).settings
            | none => (s.slot i).band⟩ ∧
          ((s.channel c).volume.lastWindowFlow = 0 → r.volume.timeToEmpty = 65535) ∧
          (∀ ms, (s.channel c).volume.lastWindowLength = some ms → 0 < (s.channel c).volume.lastWindowFlow →
            r.volume.timeToEmpty =
              min 65535 ((s.slot i).remaining * ms / ((s.channel c).volume.lastWindowFlow * 1000)))) ∧
        r.volume.chargedToSlots = (s.channel c).volume.chargedToSlots ∧
        r.volume.unattributed = (s.channel c).volume.unattributed ∧
        r.volume.overdraw = (s.channel c).volume.overdraw ∧
        r.volume.unreservedDraw = (s.channel c).volume.unreservedDraw ∧
        r.volume.uncorrected = (s.channel c).volume.uncorrected ∧
        r.volume.clamped = (s.channel c).volume.clamped ∧
        r.volume.windowLength = (s.channel c).volume.windowLength ∧
        r.volume.flowExcess = (s.channel c).flowExcess ∧
        r.reservations.granted = ((s.channel c).reservations.countP fun x => x.wait = none) ∧
        r.reservations.waiting = ((s.channel c).reservations.countP fun x => x.wait ≠ none) ∧
        (∀ (n : Nat) (x : Reservation), (s.channel c).reservations[n]? = some x →
          r.reservations.list[n]? = some
            { id := x.id
              state :=
                if x.wait ≠ none then .waiting
                else if x.size ≤ x.drawn then .filled
                else if x.drawn = 0 then .opened
                else .drawing
              size := x.size
              drawn := x.drawn
              split := x.split
              timeLeft := x.wait.map fun w => w.startedAt + w.limit - s.clockMs }))

/-- PROTECTION_GET (R47): the reply carries the record, which is emptied; the next violation is then a first violation
and raises PROTECTION again. Nothing else changes. -/
def Obligations.Protection_get : Prop :=
  ∀ (s : State) (tag : Byte), s.host.working = false →
    ∃ t, exec (.protectionGet tag (.fields ())) s = .next t ∧
      t = State.answering { s with bus := { s.bus with protection := ⟨0, none⟩ } } 0x05 tag .ok
        (.protection s.bus.protection.count s.bus.protection.first) ∧
      ∀ v, t.violation v = State.raise { t with bus := { t.bus with protection := ⟨1, some v⟩ } } (.protection v)

/-! ## Channels, supply pairs, reservations and draws -/

/-- CHANNEL_SET (R13, R64, R93, R94, R104, R120, R121, R129 to R133, R142, R150). A channel above 7 is refused
BAD_ARGUMENT; under the policy lock a refill policy that is not the channel's present one is refused LOCKED and is a
violation; a value that is no policy is refused BAD_ARGUMENT. Otherwise every setting is taken, clamped into its range,
and acts in the same event, which leaves the rest as `Undisturbed` says; the reply is OK, or CLAMPED with the settings
taken when one differs from what was given. What the settings that act do, each when no other of them changes: a new ink
code rejects the pair's slots that do not carry it, fails over a channel whose serving slot is rejected, and cancels a
switch to one; new levels form the bands anew; a new commit step tests the step trigger; a new switch level begins a
planned switch or cancels one; new thresholds make the clear test and the head test. With none of them changed nothing
else happens. The head test's RESERVATION_GRANTED carries a time on the model's clock (log entry 1). -/
def Obligations.Channel_set : Prop :=
  ∀ (s : State) (tag : Byte) (f : ChannelSetFields), s.host.working = false →
    (7 < f.channel →
      exec (.channelSet tag (.fields f)) s = .next (s.answering 0x06 tag .badArgument .none).settle) ∧
    (∀ c : ChannelId, c.val = f.channel →
      (s.keys.policyLock = true → policyOf f.settings.refillPolicy ≠ some (s.channel c).settings.refillPolicy →
        exec (.channelSet tag (.fields f)) s = .next
          ((s.violation (.locked 0x06)).answering 0x06 tag .locked .none).settle) ∧
      (s.keys.policyLock = false → 1 < f.settings.refillPolicy →
        exec (.channelSet tag (.fields f)) s = .next (s.answering 0x06 tag .badArgument .none).settle) ∧
      (∀ policy, (f.settings.refillPolicy = 0 ∧ policy = .warn ∨ f.settings.refillPolicy = 1 ∧ policy = .reject) →
        (s.keys.policyLock = true → policy = (s.channel c).settings.refillPolicy) →
          ∃ new u, exec (.channelSet tag (.fields f)) s = .next
              (State.answering u 0x06 tag (if new.given = f.settings then .ok else .clamped)
                (if new.given = f.settings then .none else .settingsTaken new)).settle ∧
            Undisturbed
              { s.beginRequest with
                channels := s.channels.set c.val { s.channel c with settings := new } c.isLt } u ∧
            new = { inkCode := max 1 (min 254 f.settings.inkCode)
                    weightSmall := min 65535 f.settings.weightSmall
                    weightMedium := min 65535 f.settings.weightMedium
                    weightLarge := min 65535 f.settings.weightLarge
                    beta := max (-128) (min 127 f.settings.beta)
                    referenceCode := min 254 f.settings.referenceCode
                    lowLevel := min 1000 f.settings.lowLevel
                    veryLowLevel := min (min 1000 f.settings.lowLevel) f.settings.veryLowLevel
                    switchLevel := min (min 1000 f.settings.lowLevel) f.settings.switchLevel
                    commitStep := max 1000 (min 10000000 f.settings.commitStep)
                    flowWindow := max 100 (min 60000 f.settings.flowWindow)
                    flowCeiling := min 4294967295 f.settings.flowCeiling
                    upperThreshold := min 4000000000 f.settings.upperThreshold
                    lowerThreshold := min (min 4000000000 f.settings.upperThreshold) f.settings.lowerThreshold
                    waitLimit := max 10 (min 60000 f.settings.waitLimit)
                    refillTolerance := max 20 (min 500 f.settings.refillTolerance)
                    deficitTolerance := max 20 (min 500 f.settings.deficitTolerance)
                    persistence := max 1 (min 15 f.settings.persistence)
                    refillPolicy := policy } ∧
            ∀ (v : State) (old : ChannelSettings), old = (s.channel c).settings →
              v = { s.beginRequest with
                channels := s.channels.set c.val { s.channel c with settings := new } c.isLt } →
              (new.inkCode = old.inkCode → new.lowLevel = old.lowLevel → new.veryLowLevel = old.veryLowLevel →
                new.commitStep = old.commitStep → new.switchLevel = old.switchLevel →
                new.upperThreshold = old.upperThreshold → new.lowerThreshold = old.lowerThreshold → u = v) ∧
              (new = { old with inkCode := new.inkCode } → new ≠ old →
                (∀ i, s.WrongInk c new.inkCode i →
                  (u.slot i).state = .rejected ∧ (u.slot i).rejectReason = some .wrongInk) ∧
                (∀ i, (s.channel c).serving = some i → s.WrongInk c new.inkCode i →
                  (∀ j, (s.channel c).paired i j → (s.slot j).channel = some c → s.CanServe j →
                    ¬s.WrongInk c new.inkCode j → DrawsFrom u c j) ∧
                  ((∀ j, (s.channel c).paired i j → ¬s.CanServe j ∨ s.WrongInk c new.inkCode j) → Undrawn u c) ∧
                  SplitMarked s u c (s.channel c).reservations (some i) ∧
                  Announced s.notices u.notices
                    (.channelChanged c ⟨.failover, (s.channel c).state, (u.channel c).state, some i,
                      (u.channel c).serving, none, some .rejected⟩)) ∧
                (∀ i j, (s.channel c).state = .switching → (s.channel c).serving = some i →
                  (s.channel c).target = some j → (s.slot i).channel = some c → ¬s.WrongInk c new.inkCode i →
                  s.WrongInk c new.inkCode j →
                    (u.channel c).state = .supplied ∧ (u.channel c).serving = some i ∧
                      (u.channel c).target = none ∧
                      Announced s.notices u.notices
                        (.channelChanged c ⟨.switchCancelled, .switching, .supplied, some i, some i, none, none⟩))) ∧
              (new = { old with lowLevel := new.lowLevel, veryLowLevel := new.veryLowLevel } → new ≠ old →
                u.channels = v.channels ∧
                ∀ i, ((s.slot i).state.isAdmitted = true → (s.slot i).channel = some c →
                    u.slot i = { s.slot i with band := bandOf (s.slot i).remaining (s.slot i).perMille new } ∧
                    ((u.slot i).band ≠ (s.slot i).band →
                      Announced s.notices u.notices (.levelBand i c (s.slot i).band (u.slot i).band
                        (s.slot i).perMille (s.slot i).remaining))) ∧
                  ((s.slot i).state.isAdmitted = false ∨ (s.slot i).channel ≠ some c → u.slot i = s.slot i)) ∧
              (new = { old with commitStep := new.commitStep } → new ≠ old →
                u.channels = v.channels ∧ u.slots = s.slots ∧
                ∀ i, (s.slot i).state.isAdmitted = true → (s.slot i).channel = some c → 0 < (s.slot i).uncommitted →
                  new.commitStep ≤ (s.slot i).uncommitted → (u.commit i).flight.isSome = true) ∧
              (new = { old with switchLevel := new.switchLevel } → new ≠ old →
                ((s.channel c).state = .idle ∨ (s.channel c).state = .unsupplied → u = v) ∧
                (∀ i, (s.channel c).state = .supplied → (s.channel c).serving = some i →
                  i ∈ (s.channel c).pairSlots →
                    ((∀ j, ¬v.SwitchDue c i j) → u = v) ∧
                    (∀ j, v.SwitchDue c i j →
                      ((∃ r ∈ (s.channel c).reservations, r.isDrawing = true) →
                        u = (v.withChannel c { v.channel c with state := .switching, target := some j }).raise
                          (.channelChanged c
                            ⟨.switchBegin, .supplied, .switching, some i, some i, some j, none⟩)) ∧
                      ((∀ r ∈ (s.channel c).reservations, r.isDrawing = false) → SwitchedOver v u c i j))) ∧
                (∀ i j, (s.channel c).state = .switching → (s.channel c).serving = some i →
                  (s.channel c).target = some j →
                    ((s.slot i).perMille ≤ new.switchLevel ∧ new.switchLevel < (s.slot j).perMille → u = v) ∧
                    (new.switchLevel < (s.slot i).perMille ∨ (s.slot j).perMille ≤ new.switchLevel →
                      HeadTests c
                        ((v.withChannel c { v.channel c with state := .supplied, target := none }).raise
                          (.channelChanged c
                            ⟨.switchCancelled, .switching, .supplied, some i, some i, none, none⟩)) u))) ∧
              (new = { old with upperThreshold := new.upperThreshold, lowerThreshold := new.lowerThreshold } →
                new ≠ old → HeadTests c (v.cleared c) u)))

/-- CHANNEL_ENABLE (R125, R127 to R129, R133). A channel above 7 is refused BAD_ARGUMENT; a channel that is not IDLE is
left as it is and its state is reported. An IDLE channel enters UNSUPPLIED with its flow window opened, and the
selection test is made: with no slot of its pair READY with ink it stays UNSUPPLIED; otherwise the first that is, the
primary before the alternate, is SERVING with PERMIT high, its DRAWING reservations are marked split, and the
planned-switch condition is tested: when it holds the channel is SWITCHING while a reservation is DRAWING, and otherwise
draws from the other slot. CHANNEL_CHANGED with cause ENABLE is the last notice (R135; log entry 18). -/
def Obligations.Channel_enable : Prop :=
  ∀ (s : State) (tag : Byte) (n : Nat), s.host.working = false →
    (7 < n → exec (.channelEnable tag (.fields n)) s = .next (s.answering 0x07 tag .badArgument .none).settle) ∧
    (∀ c : ChannelId, c.val = n → (s.channel c).state ≠ .idle →
      exec (.channelEnable tag (.fields n)) s = .next
        (s.answering 0x07 tag .ok (.channelState (s.channel c).state)).settle) ∧
    (∀ c : ChannelId, c.val = n → (s.channel c).state = .idle →
      ∃ u, exec (.channelEnable tag (.fields n)) s = .next
          (State.answering u 0x07 tag .ok (.channelState (u.channel c).state)).settle ∧
        Undisturbed
          { s.beginRequest with channels := s.channels.set c.val { s.channel c with
              state := .unsupplied
              volume := { (s.channel c).volume with
                windowSum := 0
                windowLength := (s.channel c).settings.flowWindow } } c.isLt } u ∧
        LastRaised s.notices u.notices
          (.channelChanged c ⟨.enable, .idle, .unsupplied, (s.channel c).serving, (s.channel c).serving,
            (s.channel c).target, none⟩) ∧
        ((∀ i ∈ (s.channel c).pairSlots, ¬s.CanServe i) → (u.channel c).state = .unsupplied ∧ u.slots = s.slots) ∧
        (∀ before j after, (s.channel c).pairSlots = before ++ j :: after → s.CanServe j →
          (∀ i ∈ before, ¬s.CanServe i) →
            ((∀ k, ¬s.SwitchDue c j k) →
              DrawsFrom u c j ∧ SplitMarked s u c (s.channel c).reservations none ∧
                Announced s.notices u.notices
                  (.channelChanged c ⟨.select, .unsupplied, .supplied, (s.channel c).serving, some j, none, none⟩)) ∧
            (∀ k, s.SwitchDue c j k →
              ((∃ r ∈ (s.channel c).reservations, r.isDrawing = true) → SwitchesTo u c j k) ∧
              ((∀ r ∈ (s.channel c).reservations, r.drawn = 0 ∨ r.size ≤ r.drawn) →
                DrawsFrom u c k ∧ (u.slot j).state = .ready))))

/-- CHANNEL_DISABLE (R95 to R98, R126, R142). A channel above 7 is refused BAD_ARGUMENT, an IDLE one is left as it is
with the reply OK, one that holds a reservation is refused WRONG_STATE. Otherwise it enters IDLE with no serving slot or
target and PERMIT low, its flags of R126 clear, its flow window closed and its peak unarmed, its settings and pair kept
(the length of its last window too, log entry 20), and CHANNEL_CHANGED with cause DISABLE is the last notice (R135); the
slot it was drawing from returns to READY, which is a forced commit trigger (R103), and no other slot or channel
changes. -/
def Obligations.Channel_disable : Prop :=
  ∀ (s : State) (tag : Byte) (n : Nat), s.host.working = false →
    (7 < n → exec (.channelDisable tag (.fields n)) s = .next (s.answering 0x08 tag .badArgument .none).settle) ∧
    (∀ c : ChannelId, c.val = n →
      ((s.channel c).state = .idle →
        exec (.channelDisable tag (.fields n)) s = .next (s.answering 0x08 tag .ok .none).settle) ∧
      ((s.channel c).state ≠ .idle → (s.channel c).reservations ≠ [] →
        exec (.channelDisable tag (.fields n)) s = .next (s.answering 0x08 tag .wrongState .none).settle) ∧
      ((s.channel c).state ≠ .idle → (s.channel c).reservations = [] →
        ∃ u, exec (.channelDisable tag (.fields n)) s = .next (State.answering u 0x08 tag .ok .none).settle ∧
          u.channels = s.channels.set c.val { s.channel c with
            state := .idle
            serving := none
            target := none
            permit := false
            splitLast := false
            flowExcess := false
            stall := false
            volume := { (s.channel c).volume with windowSum := 0, lastWindowFlow := 0, peakArmed := false } } c.isLt ∧
          (∀ i, (s.channel c).serving = some i → u.slots = s.slots.set i.val { s.slot i with state := .ready } i.isLt) ∧
          ((s.channel c).serving = none → u.slots = s.slots) ∧
          (∀ i, (s.channel c).serving = some i → 0 < (s.slot i).uncommitted → (u.commit i).flight.isSome = true) ∧
          LastRaised s.notices u.notices
            (.channelChanged c ⟨.disable, (s.channel c).state, .idle, (s.channel c).serving, none, none, none⟩) ∧
          u.host = s.beginRequest.host ∧ u.pins = s.pins ∧ u.keys = s.keys ∧ u.tally = s.tally ∧ u.store = s.store ∧
          u.debounce = s.debounce ∧ u.history = s.history ∧ u.bus.windows = s.bus.windows))

/-- SUPPLY_MAP_SET (R5, R11 to R13, R94, R104, R123, R124). Its checks in order; then the pair is taken. Every slot that
leaves has no channel and, in the middle of admission, is back in SEATING with no description, quality or consumption.
Every slot that is named has the channel: from SEATING it enters READING; in READY or SPENT it is rejected WRONG_INK
when its cartridge does not carry the channel's ink, and otherwise its band is formed, with LEVEL_BAND when it changes,
and its step trigger tested; in any other state nothing else changes. No other slot and no other channel changes. -/
def Obligations.Supply_map_set : Prop :=
  ∀ (s : State) (tag : Byte) (f : SupplyMapFields), s.host.working = false →
    ((7 < f.channel ∨ (∃ n, f.primary = some n ∧ 15 < n) ∨ (∃ n, f.alternate = some n ∧ 15 < n)) →
      exec (.supplyMapSet tag (.fields f)) s = .next (s.answering 0x09 tag .badArgument .none).settle) ∧
    (∀ (c : ChannelId) (p a : Option SlotId), c.val = f.channel → f.primary = p.map (fun i => i.val) →
      f.alternate = a.map (fun i => i.val) →
        ((s.channel c).state ≠ .idle →
          exec (.supplyMapSet tag (.fields f)) s = .next (s.answering 0x09 tag .wrongState .none).settle) ∧
        ((s.channel c).state = .idle →
          (p = none ∧ a ≠ none ∨ p ≠ none ∧ p = a ∨
            ∃ i d, (p = some i ∨ a = some i) ∧ d ≠ c ∧ i ∈ (s.channel d).pairSlots) →
          exec (.supplyMapSet tag (.fields f)) s = .next (s.answering 0x09 tag .badArgument .none).settle) ∧
        ((s.channel c).state = .idle →
          ¬(p = none ∧ a ≠ none ∨ p ≠ none ∧ p = a ∨
            ∃ i d, (p = some i ∨ a = some i) ∧ d ≠ c ∧ i ∈ (s.channel d).pairSlots) →
          ∃ u, exec (.supplyMapSet tag (.fields f)) s = .next (State.answering u 0x09 tag .ok .none).settle ∧
            u.channels = s.channels.set c.val { s.channel c with pair := p.map fun i => ⟨i, a⟩ } c.isLt ∧
            (∀ i, (p = some i ∨ a = some i) → i ∉ (s.channel c).pairSlots →
              ((s.slot i).state = .seating →
                u.slot i = { s.slot i with channel := some c, state := .reading }) ∧
              ((s.slot i).state = .ready ∨ (s.slot i).state = .spent →
                ((∃ d, (s.slot i).description = some d ∧ d.inkCode ≠ (s.channel c).settings.inkCode) →
                  u.slot i = { s.slot i with
                    channel := some c
                    state := .rejected
                    rejectReason := some .wrongInk }) ∧
                ((∀ d, (s.slot i).description = some d → d.inkCode = (s.channel c).settings.inkCode) →
                  u.slot i = { s.slot i with
                    channel := some c
                    band := bandOf (s.slot i).remaining (s.slot i).perMille (s.channel c).settings } ∧
                  ((u.slot i).band ≠ (s.slot i).band →
                    Announced s.notices u.notices (.levelBand i c (s.slot i).band (u.slot i).band
                      (s.slot i).perMille (s.slot i).remaining)) ∧
                  (0 < (s.slot i).uncommitted → (s.channel c).settings.commitStep ≤ (s.slot i).uncommitted →
                    (u.commit i).flight.isSome = true))) ∧
              ((s.slot i).state ≠ .seating → (s.slot i).state ≠ .ready → (s.slot i).state ≠ .spent →
                u.slot i = { s.slot i with channel := some c })) ∧
            (∀ i ∈ (s.channel c).pairSlots, ¬(p = some i ∨ a = some i) →
                ((s.slot i).state.inAdmission = true →
                  u.slot i = { s.slot i with
                    channel := none
                    state := .seating
                    description := none
                    quality := none
                    committed := 0
                    uncommitted := 0
                    reconciled := false }) ∧
                ((s.slot i).state.inAdmission = false → u.slot i = { s.slot i with channel := none })) ∧
            (∀ i, (i ∈ (s.channel c).pairSlots ↔ (p = some i ∨ a = some i)) → u.slot i = s.slot i) ∧
            u.host = s.beginRequest.host ∧ u.pins = s.pins ∧ u.keys = s.keys ∧ u.history = s.history ∧
            u.debounce = s.debounce))

/-- A ticket and a reservation id are the first number after the last one issued, in the order 1 to 255 and then 1
again, that nothing still holds (R44, R139): a ticket that no entry queued on a lane or in flight has, an id that no
reservation in the channel's list has. The last number issued is 0 before any is. -/
def Obligations.Numbers_issued_are_free : Prop :=
  (∀ (taken : List Nat) (last : Nat), taken.length < 255 → last ≤ 255 →
    ∃ k, 1 ≤ k ∧ k ≤ 255 ∧ nextNumber 255 taken last = (last + k - 1) % 255 + 1 ∧
      nextNumber 255 taken last ∉ taken ∧ ∀ m, 1 ≤ m → m < k → (last + m - 1) % 255 + 1 ∈ taken) ∧
  (∀ s : State, s.nextTicket = nextNumber 255 s.ticketsHeld s.bus.lastTicket ∧
    ∀ n, n ∈ s.ticketsHeld ↔
      ∃ l e, e.ticket = some n ∧ (e ∈ (s.lane l).queue ∨ ∃ x, (s.lane l).state = .onWire x ∧ x.entry = e)) ∧
  ∀ ch : Channel, ch.nextId = nextNumber 255 (ch.reservations.map fun r => r.id) ch.lastId

/-- RESERVE (R139 to R141): the first answer of Table 8-3 that applies. A granted reservation joins the list in OPEN and
clears UNRESERVED_DRAW; a queued one joins its end with its wait timer started at the channel's wait limit (R145; the
model's clock of log entry 1), and a ceiling test that failed for an empty waiting list sets the stall flag. Nothing
else changes. -/
def Obligations.Reserve : Prop :=
  ∀ (s : State) (tag : Byte) (f : ReserveFields), s.host.working = false →
    ((7 < f.channel ∨ f.size = 0) →
      exec (.reserve tag (.fields f)) s = .next (s.answering 0x0A tag .badArgument .none).settle) ∧
    (∀ c : ChannelId, c.val = f.channel → 0 < f.size →
      (((s.channel c).state = .idle ∨ (s.channel c).settings.upperThreshold = 0) →
        exec (.reserve tag (.fields f)) s = .next (s.answering 0x0A tag .wrongState .none).settle) ∧
      ((s.channel c).state ≠ .idle → (s.channel c).settings.upperThreshold ≠ 0 →
        ((s.channel c).settings.upperThreshold < f.size →
          exec (.reserve tag (.fields f)) s = .next (s.answering 0x0A tag .tooLarge .none).settle) ∧
        (f.size ≤ (s.channel c).settings.upperThreshold →
          ((s.channel c).waiting = [] → (s.channel c).state ≠ .unsupplied → (s.channel c).stall = false →
            (s.channel c).granted.length < 8 → f.size ≤ s.available c →
            (s.channel c).outstanding + f.size ≤ (s.channel c).settings.upperThreshold →
              exec (.reserve tag (.fields f)) s = .next
                (State.answering
                  { s with channels := s.channels.set c.val { s.channel c with
                      reservations :=
                        (s.channel c).reservations ++ [⟨(s.channel c).nextId, f.size, 0, false, none⟩]
                      lastId := (s.channel c).nextId
                      unreservedDraw := false } c.isLt }
                  0x0A tag .granted
                  (.reservationGranted (s.channel c).nextId ((s.channel c).outstanding + f.size))).settle) ∧
          ((s.channel c).waiting.length < 4 →
            ((s.channel c).waiting ≠ [] ∨ (s.channel c).state = .unsupplied ∨ (s.channel c).stall = true ∨
              8 ≤ (s.channel c).granted.length ∨ s.available c < f.size ∨
              (s.channel c).settings.upperThreshold < (s.channel c).outstanding + f.size) →
              ∃ stall, exec (.reserve tag (.fields f)) s = .next
                  (State.answering
                    { s with channels := s.channels.set c.val { s.channel c with
                        reservations :=
                          (s.channel c).reservations ++
                            [⟨(s.channel c).nextId, f.size, 0, false,
                              some ⟨(s.channel c).settings.waitLimit, s.clockMs⟩⟩]
                        lastId := (s.channel c).nextId
                        stall := stall } c.isLt }
                    0x0A tag .queued
                    (.reservationQueued (s.channel c).nextId ((s.channel c).waiting.length + 1) stall)).settle ∧
                (stall = true ↔ (s.channel c).stall = true ∨
                  (s.channel c).waiting = [] ∧
                    (s.channel c).settings.upperThreshold < (s.channel c).outstanding + f.size)) ∧
          (4 ≤ (s.channel c).waiting.length →
            exec (.reserve tag (.fields f)) s = .next (s.answering 0x0A tag .full .none).settle))))

/-- RELEASE (R130, R142, R143, R146). A channel above 7 is refused BAD_ARGUMENT; an id that names no reservation in the
channel's list is answered UNKNOWN_ID and nothing changes; otherwise the reservation leaves the list, whatever its
state, the reply carries its state, size, drawn amount and split flag as they stood, and what follows a leaving is done
(`AfterLeaving`; the time waited in RESERVATION_GRANTED is on the model's clock, log entry 1). The rest is left as
`Undisturbed` says. -/
def Obligations.Release : Prop :=
  ∀ (s : State) (tag : Byte) (f : ReleaseFields), s.host.working = false →
    (7 < f.channel → exec (.release tag (.fields f)) s = .next (s.answering 0x0B tag .badArgument .none).settle) ∧
    (∀ c : ChannelId, c.val = f.channel →
      ((∀ r ∈ (s.channel c).reservations, r.id ≠ f.id) →
        exec (.release tag (.fields f)) s = .next (s.answering 0x0B tag .unknownId .none).settle) ∧
      (∀ r, ((s.channel c).reservations.find? fun x => x.id = f.id) = some r →
        ∃ u, exec (.release tag (.fields f)) s = .next
            (State.answering u 0x0B tag .ok (.released r.state r.size r.drawn r.split)).settle ∧
          Undisturbed s.beginRequest u ∧
            AfterLeaving s.beginRequest u c ((s.channel c).reservations.filter fun x => x.id ≠ f.id)))

/-- SERVICE_DRAW (R87 to R90, R92 to R95, R104, R129, R130, R132, R133, R142, R143, R148, R149). A channel above 7 is
refused BAD_ARGUMENT, an IDLE one WRONG_STATE; the amount is lowered to 100,000,000 nl. An amount above 0 is charged:
the serving slot takes what its remaining estimate holds and the rest is overdraw, or with no serving slot all is
unattributed. The granted reservations draw in their order and what is left is the unreserved part; the clear test and
the head test are made. The slot's band is formed and its step trigger tested; when it is emptied it goes SPENT and its
channel fails over. Otherwise the planned switch is tested, or the completion of the one under way. The reply carries
the amounts. Nothing else is disturbed, and the slots' other accounts and the History Unit stay as they are (`Charged`;
the time waited in RESERVATION_GRANTED is on the model's clock, log entry 1). -/
def Obligations.Service_draw : Prop :=
  ∀ (s : State) (tag : Byte) (f : ServiceDrawFields), s.host.working = false →
    (7 < f.channel → exec (.serviceDraw tag (.fields f)) s = .next (s.answering 0x0C tag .badArgument .none).settle) ∧
    (∀ c : ChannelId, c.val = f.channel →
      ((s.channel c).state = .idle →
        exec (.serviceDraw tag (.fields f)) s = .next (s.answering 0x0C tag .wrongState .none).settle) ∧
      ((s.channel c).state ≠ .idle →
        (f.amount = 0 →
          exec (.serviceDraw tag (.fields f)) s = .next
            (s.answering 0x0C tag .ok (.drawn 0 (s.channel c).serving 0 0 0)).settle) ∧
        (0 < f.amount →
          ∃ u amount part excess rest, amount = min 100000000 f.amount ∧
            Charged s.beginRequest u c amount part excess rest ∧
            exec (.serviceDraw tag (.fields f)) s = .next
              (State.answering u 0x0C tag (if amount = f.amount then .ok else .clamped)
                (.drawn amount (s.channel c).serving part excess rest)).settle)))

/-! ## Commits and the cartridge bus -/

/-- COMMIT_NOW (R103, R105, R106, R115). For one slot: above 15 BAD_ARGUMENT; not admitted WRONG_STATE; nothing
uncommitted OK. Otherwise, with no commit in flight, one is taken: the snapshot is the uncommitted amount, the advance
value adds the committed one, the nonce is fresh (log entry 9), and the phase is WAITING, or SENT when the lane takes it
at once; a WAITING one is enlarged where it stands, its entry with it, and keeps its nonce; one in SENT or CHECKING
whose snapshot is not the uncommitted amount has its again flag set to FORCED. The reply gives the phase and the advance
value then in flight. For all slots the reply lists those the trigger acts on. Records and accounts stay as they are. -/
def Obligations.Commit_now : Prop :=
  ∀ (s : State) (tag : Byte), s.host.working = false →
    (∀ n, 15 < n → exec (.commitNow tag (.fields (some n))) s = .next (s.answering 0x0D tag .badArgument .none).settle) ∧
    (∀ i : SlotId,
      ((s.slot i).state.isAdmitted = false →
        exec (.commitNow tag (.fields (some i.val))) s = .next (s.answering 0x0D tag .wrongState .none).settle) ∧
      ((s.slot i).state.isAdmitted = true → (s.slot i).uncommitted = 0 →
        exec (.commitNow tag (.fields (some i.val))) s = .next (s.answering 0x0D tag .ok .none).settle) ∧
      ((s.slot i).state.isAdmitted = true → 0 < (s.slot i).uncommitted →
        ∃ u sent, (u.commit i).flight = some sent ∧
          exec (.commitNow tag (.fields (some i.val))) s = .next
            (State.answering u 0x0D tag .queued (.commitOne (u.commit i).phase sent.advance)).settle ∧
          Undisturbed s.beginRequest u ∧ RecordsKept s u ∧
          ((s.commit i).flight = none → ∃ phase,
            (u.commit i).flight = some ⟨phase, (s.slot i).uncommitted,
              (s.slot i).committed + (s.slot i).uncommitted, Config.nonceValue s.nonceDraws⟩ ∧
            (phase = .waiting ∨ phase = .sent) ∧ u.nonceDraws = s.nonceDraws + 1) ∧
          (∀ f, (s.commit i).flight = some f → f.phase = .waiting →
            u.commit i = { s.commit i with
              flight := some { f with
                snapshot := (s.slot i).uncommitted
                advance := (s.slot i).committed + (s.slot i).uncommitted } } ∧
            u.lane (laneOf i) = { s.lane (laneOf i) with
              queue := (s.lane (laneOf i)).queue.map fun e =>
                match e.command with
                | .odoAdvance _ g nonce =>
                  if e.slot = i then
                    { e with command := .odoAdvance ((s.slot i).committed + (s.slot i).uncommitted) g nonce }
                  else e
                | _ => e } ∧ u.nonceDraws = s.nonceDraws) ∧
          (∀ f, (s.commit i).flight = some f → f.phase ≠ .waiting →
            u.commit i = { s.commit i with
              again := if (s.slot i).uncommitted = f.snapshot then (s.commit i).again else .forced }))) ∧
    (∃ u acted, exec (.commitNow tag (.fields none)) s = .next
        (State.answering u 0x0D tag (if acted = [] then .ok else .queued)
          (.commitAll (acted.map fun i => ⟨i, (u.commit i).phase⟩))).settle ∧
      Undisturbed s.beginRequest u ∧ RecordsKept s u ∧
      (∀ i, i ∈ acted ↔ (s.slot i).state.isAdmitted = true ∧ 0 < (s.slot i).uncommitted) ∧
      ∀ i ∈ acted, (u.commit i).flight.isSome = true)

/-- SCHEDULE_LOAD and SCHEDULE_SELECT (R37, R39, R40), and the entry a lane takes. A load names table A or B by 0 or 1
and gives sixteen phases, 0 to 3 for ADMIT, COMMIT, MARK and PASS, each class at least once, or is refused BAD_ARGUMENT;
a table that is requested or in use by a lane is refused WRONG_STATE; otherwise the table takes the phases. A select
makes the table the requested one; a lane that is IDLE with an empty queue and runs the other takes it up at position 0.
Nothing else changes. A lane that takes an entry (R25, R38, R41, R45): with none queued it takes up the requested table;
otherwise it takes the entry that `Chosen` says, of which, in a lane whose tables name every class, there is one. A PASS
entry of a slot that is no longer admitted makes no transaction and ends FAILED, WRONG_STATE, and the next entry is
taken; any other starts its transaction, and a COMMIT entry's commit is then SENT (R107). -/
def Obligations.Schedules : Prop :=
  ∀ s : State,
    (∀ tag : Byte, s.host.working = false →
      (∀ f : ScheduleLoadFields,
        (1 < f.table ∨ (∃ k : Fin 16, 3 < f.phases[k.val]) ∨ (∃ n < 4, ∀ k : Fin 16, f.phases[k.val] ≠ n)) →
          exec (.scheduleLoad tag (.fields f)) s = .next (s.answering 0x11 tag .badArgument .none)) ∧
      (∀ (f : ScheduleLoadFields) (t : TableId), (f.table = 0 ∧ t = .a ∨ f.table = 1 ∧ t = .b) →
        (∀ k : Fin 16, f.phases[k.val] ≤ 3) → (∀ n < 4, ∃ k : Fin 16, f.phases[k.val] = n) →
          ((s.bus.requested = t ∨ ∃ l, (s.lane l).inUse = t) →
            exec (.scheduleLoad tag (.fields f)) s = .next (s.answering 0x11 tag .wrongState .none)) ∧
          (s.bus.requested ≠ t → (∀ l, (s.lane l).inUse ≠ t) →
            ∃ phases : Vector LaneClass 16, (∀ k : Fin 16, LaneClass.number phases[k.val] = f.phases[k.val]) ∧
              exec (.scheduleLoad tag (.fields f)) s = .next
                (State.answering
                  { s with bus := { s.bus with
                      tableA := if t = .a then phases else s.bus.tableA
                      tableB := if t = .b then phases else s.bus.tableB } }
                  0x11 tag .ok .none))) ∧
      (∀ n, 1 < n → exec (.scheduleSelect tag (.fields n)) s = .next (s.answering 0x12 tag .badArgument .none)) ∧
      (∀ (n : Nat) (t : TableId), (n = 0 ∧ t = .a ∨ n = 1 ∧ t = .b) →
        ∃ lanes : Vector Lane 4,
          exec (.scheduleSelect tag (.fields n)) s = .next
            (State.answering { s with bus := { s.bus with requested := t, lanes := lanes } } 0x12 tag .ok
              (.schedule t (lanes.map fun l => l.inUse))) ∧
          ∀ l : LaneId, lanes[l.val] =
            if (s.lane l).state = .idle ∧ (s.lane l).queue = [] ∧ (s.lane l).inUse ≠ t then
              { s.lane l with inUse := t, wheel := 0 }
            else s.lane l)) ∧
    ∀ l : LaneId,
      ((s.lane l).queue = [] →
        s.takeEntry l = s.updLane l fun lane =>
          if lane.inUse = s.bus.requested then lane else { lane with inUse := s.bus.requested, wheel := 0 }) ∧
      ((s.lane l).queue ≠ [] → tableLawful s.bus.tableA → tableLawful s.bus.tableB →
        ∃ before e after wheel inUse, s.Chosen l before e after wheel inUse) ∧
      (∀ before e after wheel inUse, s.Chosen l before e after wheel inUse →
        ∀ v, v = (s.updLane l fun lane => { lane with queue := before ++ after, wheel := wheel, inUse := inUse }) →
          (∀ ticket, e.laneClass = .pass → (s.slot e.slot).state.isAdmitted = false → e.ticket = some ticket →
            s.takeEntry l = State.takeEntry (v.raise (.passthroughDone e.slot ticket (.failed .wrongState))) l) ∧
          ((e.laneClass ≠ .pass ∨ (s.slot e.slot).state.isAdmitted = true) →
            (s.takeEntry l).lane l = { v.lane l with state := .onWire ⟨e, 0, 0, .replyWait, false⟩ } ∧
            RecordsKept s (s.takeEntry l) ∧ (s.takeEntry l).notices = s.notices ∧
            (s.takeEntry l).engine = s.engine ∧
            (s.takeEntry l).commits =
              if e.laneClass = .commit then
                s.commits.set e.slot.val { s.commit e.slot with
                  flight := (s.commit e.slot).flight.map fun f => { f with phase := .sent } } e.slot.isLt
              else s.commits))

/-- WINDOW_SET (R43, R46, R64). A window above 3 is refused BAD_ARGUMENT; under the policy lock the request is refused
LOCKED and recorded: the first violation after an empty record is kept and raises PROTECTION, a later one counts.
Otherwise each address is clamped into 64..255 and a high one below the low one raised to it; the reply is OK, or
CLAMPED with the window taken, all four fields of it (log entry 54), when an address was changed. Nothing else changes.
-/
def Obligations.Window_set : Prop :=
  ∀ (s : State) (tag : Byte) (f : WindowSetFields), s.host.working = false →
    (3 < f.window → exec (.windowSet tag (.fields f)) s = .next (s.answering 0x13 tag .badArgument .none)) ∧
    (f.window ≤ 3 → s.keys.policyLock = true →
      (s.bus.protection.count = 0 →
        exec (.windowSet tag (.fields f)) s = .next
          (State.answering
            (State.raise { s with bus := { s.bus with protection := ⟨1, some (.locked 0x13)⟩ } }
              (.protection (.locked 0x13)))
            0x13 tag .locked .none)) ∧
      (0 < s.bus.protection.count →
        exec (.windowSet tag (.fields f)) s = .next
          (State.answering
            { s with bus := { s.bus with protection :=
                { s.bus.protection with count := min 65535 (s.bus.protection.count + 1) } } }
            0x13 tag .locked .none))) ∧
    (∀ w : Fin 4, w.val = f.window → s.keys.policyLock = false →
      ∃ window : Window,
        window = ⟨max 64 (min 255 f.low), max (max 64 (min 255 f.low)) (max 64 (min 255 f.high)), f.readEnable,
          f.writeEnable⟩ ∧
        exec (.windowSet tag (.fields f)) s = .next
          (State.answering { s with bus := { s.bus with windows := s.bus.windows.set w.val window w.isLt } } 0x13 tag
            (if window.low = f.low ∧ window.high = f.high then .ok else .clamped)
            (if window.low = f.low ∧ window.high = f.high then .none else .windowTaken window)))

/-- TAG_READ and TAG_WRITE (R43, R44, Table 2-4): the first check that fails gives the reply; a range that lies within
no one window that permits the access is PROTECTED and a violation. An accepted one has a ticket, and its PASS entry
joins the lane's queue; an IDLE lane with an empty queue takes it at once (R25; both tables hold every class, R37). -/
def Obligations.Tag_access : Prop :=
  ∀ (s : State) (tag kind : Byte) (c : Instr) (slot address length : Nat) (command : TagCommand) (isWrite : Bool),
    s.host.working = false →
    (kind = 0x14 ∧ c = .tagRead tag (.fields ⟨slot, address, length⟩) ∧ command = .memRead address length ∧
        isWrite = false ∨
      ∃ data, data.length = length ∧ kind = 0x15 ∧ c = .tagWrite tag (.fields ⟨slot, address, data⟩) ∧
        command = .memWrite address data ∧ isWrite = true) →
      ((15 < slot ∨ length = 0 ∨ 16 < length) → exec c s = .next (s.answering kind tag .badArgument .none).settle) ∧
      (∀ i : SlotId, i.val = slot → 0 < length → length ≤ 16 →
        ((s.slot i).state.isAdmitted = false → exec c s = .next (s.answering kind tag .wrongState .none).settle) ∧
        ((s.slot i).state.isAdmitted = true →
          ((∀ w ∈ s.bus.windows.toList,
              address < w.low ∨ w.high < address + length - 1 ∨
                (if isWrite then w.writeEnable else w.readEnable) = false) →
            exec c s = .next
              ((s.violation (.access i address length isWrite)).answering kind tag .isProtected .none).settle) ∧
          ((∃ w ∈ s.bus.windows.toList,
              w.low ≤ address ∧ address + length - 1 ≤ w.high ∧
                (if isWrite then w.writeEnable else w.readEnable) = true) →
            (4 ≤ s.passQueued (laneOf i) → exec c s = .next (s.answering kind tag .full .none).settle) ∧
            (s.passQueued (laneOf i) < 4 →
              ∃ u, exec c s = .next (State.answering u kind tag .accepted (.ticket s.nextTicket)).settle ∧
                Undisturbed { s.beginRequest with bus := { s.bus with lastTicket := s.nextTicket } } u ∧
                RecordsKept s u ∧
                ((s.lane (laneOf i)).state ≠ .idle →
                  u.lane (laneOf i) = { s.lane (laneOf i) with
                    queue := (s.lane (laneOf i)).queue ++ [⟨i, command, some s.nextTicket⟩] }) ∧
                ((s.lane (laneOf i)).state = .idle → (s.lane (laneOf i)).queue = [] → tableLawful s.bus.tableA →
                  tableLawful s.bus.tableB →
                    (u.lane (laneOf i)).state = .onWire ⟨⟨i, command, some s.nextTicket⟩, 0, 0, .replyWait, false⟩ ∧
                      (u.lane (laneOf i)).queue = [])))))

/-! ## Level sensing requests -/

/-- SENSE (R158). A slot above 15 is refused BAD_ARGUMENT, a VACANT one WRONG_STATE. A request for a slot that has one
queued joins it; otherwise it joins the end of the queue, or is answered FULL with 8 queued. The reply gives its place
in the queue. The stamp a request joins with and the count of stamps are the model's own (log entry 13); nothing else
changes. -/
def Obligations.Sense : Prop :=
  ∀ (s : State) (tag : Byte) (n : Nat), s.host.working = false →
    (15 < n → exec (.sense tag (.fields n)) s = .next (s.answering 0x0E tag .badArgument .none).settle) ∧
    (∀ i : SlotId, i.val = n →
      ((s.slot i).state = .vacant →
        exec (.sense tag (.fields n)) s = .next (s.answering 0x0E tag .wrongState .none).settle) ∧
      ((s.slot i).state ≠ .vacant →
        (∀ before q after, s.sense.injected = before ++ q :: after → q.slot = i →
          (∀ x ∈ before, x.slot ≠ i) → (∀ x ∈ after, x.slot ≠ i) →
            exec (.sense tag (.fields n)) s = .next
              (State.answering
                { s with sense := { s.sense with injected :=
                    before ++ { q with reasons := ⟨q.reasons.admission, true⟩ } :: after } }
                0x0E tag .queued (.position (before.length + 1))).settle) ∧
        ((∀ q ∈ s.sense.injected, q.slot ≠ i) →
          (s.sense.injected.length < 8 →
            exec (.sense tag (.fields n)) s = .next
              (State.answering
                { s with
                  sense := { s.sense with injected := s.sense.injected ++ [⟨i, ⟨false, true⟩, s.joinStamps⟩] }
                  joinStamps := s.joinStamps + 1 }
                0x0E tag .queued (.position (s.sense.injected.length + 1))).settle) ∧
          (8 ≤ s.sense.injected.length →
            exec (.sense tag (.fields n)) s = .next (s.answering 0x0E tag .full .none).settle))))

/-- SCAN_SET (R9, R155, R156). More than 24 entries, or one that names no source, is refused BAD_ARGUMENT. Otherwise the
debounce time and the pause are clamped, and the list and the pause are pending, but with the scan HALTED, or with an
empty list in force, they are in force at once and the scan is at the first entry (log entry 32). The reply is OK, or
CLAMPED with the two values taken (these two are log entry 54's). Nothing else changes. -/
def Obligations.Scan_set : Prop :=
  ∀ (s : State) (tag : Byte) (f : ScanSetFields), s.host.working = false →
    ((24 < f.sources.length ∨ ∃ n ∈ f.sources, 15 < n ∧ n ≠ 17) →
      exec (.scanSet tag (.fields f)) s = .next (s.answering 0x0F tag .badArgument .none).settle) ∧
    (∀ list : List Source, f.sources = list.map (fun x => x.number) → list.length ≤ 24 →
      ∃ pause debounce sense, pause = min 1000 f.pause ∧ debounce = max 10 (min 250 f.debounce) ∧
        exec (.scanSet tag (.fields f)) s = .next
          (State.answering { s with debounceTime := debounce, sense := sense } 0x0F tag
            (if pause = f.pause ∧ debounce = f.debounce then .ok else .clamped)
            (if pause = f.pause ∧ debounce = f.debounce then .none else .scanTaken pause debounce)).settle ∧
        (s.sense.scan = .halted →
          sense = { s.sense with
            list := list, pause := pause, pendingScan := none, position := 0, passConverted := false }) ∧
        (s.sense.scan ≠ .halted → s.sense.list ≠ [] →
          sense = { s.sense with pendingScan := some ⟨list, pause⟩ }) ∧
        (s.sense.scan ≠ .halted → s.sense.list = [] →
          sense = { s.sense with
            list := list
            pause := pause
            pendingScan := none
            scan := if list = [] then .pausing else .running
            pauseTimer := none
            position := 0
            passConverted := false }))

/-- SENSOR_CAL (R163). A slot above 15 is refused BAD_ARGUMENT. Otherwise the offset and the gain are clamped and taken;
when either changes, the ring is emptied and the rise and deficit counts become 0; a run of the slot is abandoned, also
when neither changes (log entry 22). The reply is OK, or CLAMPED with the values taken. The records stay as they are. -/
def Obligations.Sensor_cal : Prop :=
  ∀ (s : State) (tag : Byte) (f : SensorCalFields), s.host.working = false →
    (15 < f.slot → exec (.sensorCal tag (.fields f)) s = .next (s.answering 0x10 tag .badArgument .none).settle) ∧
    (∀ i : SlotId, i.val = f.slot →
      ∃ u offset gain, offset = max (-512) (min 511 f.offset) ∧ gain = min 2047 f.gain ∧
        exec (.sensorCal tag (.fields f)) s = .next
          (State.answering u 0x10 tag (if offset = f.offset ∧ gain = f.gain then .ok else .clamped)
            (if offset = f.offset ∧ gain = f.gain then .none else .calibrationTaken offset gain)).settle ∧
        RecordsKept s u ∧ u.host = s.beginRequest.host ∧ u.bus = s.bus ∧ u.keys = s.keys ∧ u.notices = s.notices ∧
        u.slotSense i =
          (if (s.slotSense i).offset = offset ∧ (s.slotSense i).gain = gain then s.slotSense i
          else { s.slotSense i with offset := offset, gain := gain, ring := [], rise := 0, deficit := 0 }) ∧
        (∀ j, j ≠ i → u.slotSense j = s.slotSense j) ∧ (∀ r, u.sense.run = some r → r.request.slot ≠ i))

/-! ## The stores, the keys and the notices -/

/-- HISTORY_CLEAR (R174, R188, R64). Its checks in order: an index above 63 is BAD_ARGUMENT; the policy lock is LOCKED
and a violation, whatever else is wrong; a selector that names neither an index nor a serial is BAD_ARGUMENT (a
malformed field, Table 11-2, log entry 45); a name without an entry is UNKNOWN_ID; a seated cartridge is WRONG_STATE.
Otherwise the entry is cleared, its pending charge forfeited, its place queued, and the reply carries the serial and the
amount. Nothing else changes. Of two entries of one serial the one found is log entry 56's. -/
def Obligations.History_clear : Prop :=
  ∀ (s : State) (tag : Byte) (name : HistoryName), s.host.working = false →
    ((∃ n, name = .index n ∧ 63 < n) →
      exec (.historyClear tag (.fields name)) s = .next (s.answering 0x16 tag .badArgument .none).settle) ∧
    ((∀ n, name = .index n → n ≤ 63) →
      (s.keys.policyLock = true →
        exec (.historyClear tag (.fields name)) s = .next
          ((s.violation (.locked 0x16)).answering 0x16 tag .locked .none).settle) ∧
      (s.keys.policyLock = false →
        (name = .badSelector →
          exec (.historyClear tag (.fields name)) s = .next (s.answering 0x16 tag .badArgument .none).settle) ∧
        (((∃ p : PlaceId, name = .index p.val ∧ s.place p = none) ∨ ∃ n, name = .serial n ∧ s.findEntry n = none) →
          exec (.historyClear tag (.fields name)) s = .next (s.answering 0x16 tag .unknownId .none).settle) ∧
        (∀ (p : PlaceId) (e : HistoryEntry), s.place p = some e →
          (name = .index p.val ∨ ∃ n, name = .serial n ∧ s.findEntry n = some p) →
            ((∃ i, (s.slot i).state ≠ .vacant ∧ ∃ d, (s.slot i).description = some d ∧ d.serial = e.serial) →
              exec (.historyClear tag (.fields name)) s = .next (s.answering 0x16 tag .wrongState .none).settle) ∧
            ((∀ i, (s.slot i).state ≠ .vacant → ∀ d, (s.slot i).description = some d → d.serial ≠ e.serial) →
              exec (.historyClear tag (.fields name)) s = .next
                (State.answering
                  { s with history := { s.history with
                      places := s.history.places.set p.val none p.isLt
                      forfeited := min 281474976710655 (s.history.forfeited + e.pendingCharge.getD 0)
                      ordinary :=
                        if p ∈ s.history.urgent ∨ p ∈ s.history.ordinary then s.history.ordinary
                        else s.history.ordinary ++ [p] } }
                  0x16 tag .ok (.cleared e.serial (e.pendingCharge.getD 0))).settle))))

/-- The Key Store's requests. KEY_PROVISION (R61): a key of all zeros or all ones is BAD_ARGUMENT, in every state of the
Key Store (the model's choice, log entry 44); for any other key a Key Store that is not UNPROVISIONED is LOCKED;
otherwise the key is loaded, the write of its cell starts, and every slot rejected AUTH_UNAVAILABLE starts admission
again without its description (R17). KEY_CELL_WRITE_DONE (R62): the cell holds the key; with no write in progress
nothing changes (log entry 3). POLICY_LOCK (R63): the lock is in force and the reply is OK. -/
def Obligations.Key_requests : Prop :=
  ∀ (s : State) (tag : Byte),
    (s.host.working = false → ∀ key : Word128,
      ((key = 0 ∨ key = BitVec.allOnes 128) →
        exec (.keyProvision tag (.fields key)) s = .next (s.answering 0x17 tag .badArgument .none).settle) ∧
      (key ≠ 0 → key ≠ BitVec.allOnes 128 →
        (s.keys.state ≠ .unprovisioned →
          exec (.keyProvision tag (.fields key)) s = .next (s.answering 0x17 tag .locked .none).settle) ∧
        (s.keys.state = .unprovisioned →
          ∃ u, exec (.keyProvision tag (.fields key)) s = .next (State.answering u 0x17 tag .ok .none).settle ∧
            Undisturbed
              { s.beginRequest with keys := { s.keys with state := .provisioned key, writing := some key } } u ∧
            ∀ i,
              ((s.slot i).state = .rejected → (s.slot i).rejectReason = some .authUnavailable →
                (u.slot i).description = none ∧ (u.slot i).rejectReason = none ∧
                  (u.slot i).state = if (s.slot i).channel.isSome then .reading else .seating) ∧
              (((s.slot i).state ≠ .rejected ∨ (s.slot i).rejectReason ≠ some .authUnavailable) →
                u.slot i = s.slot i)))) ∧
    (∀ key, s.keys.writing = some key →
      exec .keyCellWriteDone s = .next { s with keys := { s.keys with cell := .written key, writing := none } }) ∧
    (s.keys.writing = none → exec .keyCellWriteDone s = .next s) ∧
    (s.host.working = false →
      exec (.policyLock tag (.fields ())) s = .next
        (State.answering { s with keys := { s.keys with policyLock := true } } 0x18 tag .ok .none))

/-- A raised notice (R198, R199): masked it is not queued and takes no serial; unmasked it takes the next serial, and
joins the end of a queue of fewer than 32, with ATTN asserted, or is dropped and counted. The mask bit of a kind is that
of Table 11-4. -/
def Obligations.Notice_raised : Prop :=
  (∀ (s : State) (n : Notice),
    (s.notices.mask.getLsbD n.maskBit = false → s.raise n = s) ∧
    (s.notices.mask.getLsbD n.maskBit = true →
      (s.notices.queue.length < 32 →
        s.raise n = { s with notices := { s.notices with
          queue := s.notices.queue ++ [⟨s.notices.nextSerial, n⟩]
          nextSerial := s.notices.nextSerial + 1
          attn := true } }) ∧
      (32 ≤ s.notices.queue.length →
        s.raise n = { s with notices := { s.notices with
          nextSerial := s.notices.nextSerial + 1
          dropped := min 65535 (s.notices.dropped + 1) } }))) ∧
  ∀ n : Notice, n.maskBit =
    match n with
    | .slotChanged .. => 0
    | .verdict .. => 1
    | .levelBand .. => 2
    | .channelChanged .. => 3
    | .reservationGranted .. => 4
    | .reservationExpired .. => 5
    | .reservationSplit .. => 6
    | .unreservedDraw .. => 7
    | .commitFailed .. => 8
    | .flowExcess .. => 9
    | .tallyFault .. => 10
    | .sensorFault .. => 11
    | .levelDisagree .. => 12
    | .historyEvicted .. => 13
    | .passthroughDone .. => 14
    | .protection .. => 15
    | .powerPreserved _ => 16
    | .settingsDefaulted => 17

/-- NOTICE_GET and NOTICE_MASK_SET (R199, R200, R201). A get takes its maximum into 1..8 and removes that many of the
oldest notices, which the reply carries in order with the number left and the dropped count, then 0; ATTN is asserted
while one is left; the reply is CLAMPED with the maximum taken when that is not the one given. A mask takes its bits 0
to 17. Nothing else changes. -/
def Obligations.Notice_requests : Prop :=
  ∀ (s : State) (tag : Byte), s.host.working = false →
    (∀ maximum, ∃ n, n = max 1 (min 8 maximum) ∧
      exec (.noticeGet tag (.fields maximum)) s = .next
        (State.answering
          { s with notices := { s.notices with
              queue := s.notices.queue.drop n
              dropped := 0
              attn := !(s.notices.queue.drop n).isEmpty } }
          0x19 tag (if n = maximum then .ok else .clamped)
          (.notices (if n = maximum then none else some n) (s.notices.queue.take n)
            (s.notices.queue.length - n) s.notices.dropped))) ∧
    (∀ mask : BitVec 32, ∃ taken : BitVec 18,
      exec (.noticeMaskSet tag (.fields mask)) s = .next
        (State.answering { s with notices := { s.notices with mask := taken } } 0x1A tag .ok (.mask taken)) ∧
      ∀ n, n < 18 → taken.getLsbD n = mask.getLsbD n)

/-- SETTINGS_SAVE (R202) copies every setting as it stands and starts writing the copy that is not in force, with the
save count one above that of the copy in force (0 after 4,294,967,295, and 0 when none is in force, when log entry 25
says which copy it is); no reply yet. The scan list and pause copied are those in force (log entry 41). At the end of
the write the copy is in force and the reply OK is sent; with no write in progress nothing changes (log entry 3). -/
def Obligations.Settings_save : Prop :=
  ∀ (s : State) (tag : Byte),
    (s.host.working = false →
      ∃ w, exec (.settingsSave tag (.fields ())) s = .next
          { s with host := { s.host with working := true }, store := { s.store with saving := some w } } ∧
        w.tag = tag ∧ (∀ k, s.store.inForce = some k → w.target ≠ k) ∧
        (s.store.inForce = none → w.copy.saveCount = 0) ∧
        (∀ k c, s.store.inForce = some k → s.store.copies[k.val] = some c →
          (c.saveCount < 4294967295 → w.copy.saveCount = c.saveCount + 1) ∧
            (c.saveCount = 4294967295 → w.copy.saveCount = 0)) ∧
        w.copy.image.scanList = s.sense.list ∧ w.copy.image.pause = s.sense.pause ∧
        w.copy.image.debounceTime = s.debounceTime ∧ w.copy.image.windows = s.bus.windows ∧
        w.copy.image.tableA = s.bus.tableA ∧ w.copy.image.tableB = s.bus.tableB ∧
        w.copy.image.requested = s.bus.requested ∧ w.copy.image.noticeMask = s.notices.mask ∧
        (∀ c : ChannelId, w.copy.image.channels[c.val].settings = (s.channel c).settings ∧
          w.copy.image.channels[c.val].pair = (s.channel c).pair ∧
          (w.copy.image.channels[c.val].enabled = true ↔ (s.channel c).state ≠ .idle)) ∧
        (∀ i : SlotId, w.copy.image.calibrations[i.val] = ⟨(s.slotSense i).offset, (s.slotSense i).gain⟩)) ∧
    (∀ w, s.store.saving = some w →
      exec .settingsSaveWriteDone s = .next
        { s with
          store := ⟨s.store.copies.set w.target.val (some w.copy) w.target.isLt, some w.target, none⟩
          host := s.host.owe (.reply ⟨0x1B, w.tag, .ok, .none⟩) }) ∧
    (s.store.saving = none → exec .settingsSaveWriteDone s = .next s)

/-- RESET (R109, R191, R204): the entry of each reconciled slot takes the slot's uncommitted as its pending charge and
the exposed amount as its uncertain part, each absent when 0, and is queued urgent, the reply OK is built, and the reset
waits for the write in progress and for every index that then stands in the store queue. No other reconciled slot's
cartridge has the entry (R172). The slots, channels and the other blocks stay as they are, and a preservation round that
is running goes on (R190, log entry 52). Of two entries of one serial the one found is log entry 56's. -/
def Obligations.Reset_request : Prop :=
  ∀ (s : State) (tag : Byte), s.host.working = false →
    ∃ u, exec (.reset tag (.fields ())) s = .next (State.answering u 0x1C tag .ok .none).settle ∧
      u = { s.beginRequest with history := u.history, preparation := u.preparation } ∧
      u.preparation = some ⟨false, u.history.urgent ++ u.history.ordinary⟩ ∧
      u.history.writing = s.history.writing.map (fun w => { w with forReset := true }) ∧
      u.history.image = s.history.image ∧ u.history.recency = s.history.recency ∧
      (∀ p ∈ s.history.urgent, p ∈ u.history.urgent) ∧
      (∀ i p e, (s.slot i).isReconciled = true → s.entryOf i = some p → s.place p = some e → p ∈ u.history.urgent) ∧
      (∀ i p e, (s.slot i).isReconciled = true → s.entryOf i = some p → s.place p = some e →
        (∀ j, j ≠ i → (s.slot j).isReconciled = true → s.entryOf j ≠ some p) →
          u.place p = some { e with
            pendingCharge := if (s.slot i).uncommitted = 0 then none else some (s.slot i).uncommitted
            uncertain := if s.exposed i = 0 then none else some (s.exposed i) }) ∧
      (∀ p ∈ s.history.ordinary, p ∈ u.history.urgent ∨ p ∈ u.history.ordinary) ∧
      (∀ p ∈ u.history.ordinary, p ∈ s.history.ordinary) ∧
      u.history.forfeited = s.history.forfeited ∧ u.history.round = s.history.round ∧
      (∀ p, (∀ i, (s.slot i).isReconciled = true → s.entryOf i ≠ some p) → u.place p = s.place p)

/-- The write of a place completes (R186, R190): the nonvolatile image takes the content copied at the write's start;
the last write of a preservation round ends the round with POWER_PRESERVED, also while a host reset is prepared (log
entry 52). With no write in progress only the event's end is taken (log entry 3). -/
def Obligations.History_write_done : Prop :=
  ∀ s : State,
    (s.history.writing = none → exec .historyWriteDone s = .next s.settle) ∧
    (∀ w, s.history.writing = some w →
      ((w.forRound = false ∨ s.history.round = none) →
        exec .historyWriteDone s = .next
          (State.settle { s with history := { s.history with
            image := s.history.image.set w.place.val w.content w.place.isLt
            writing := none } })) ∧
      (∀ r, w.forRound = true → s.history.round = some r →
        (r.remaining.erase w.place = [] →
          exec .historyWriteDone s = .next
            (State.settle (State.raise { s with history := { s.history with
              image := s.history.image.set w.place.val w.content w.place.isLt
              writing := none
              round := none } } (.powerPreserved r.size)))) ∧
        (r.remaining.erase w.place ≠ [] →
          exec .historyWriteDone s = .next
            (State.settle { s with history := { s.history with
              image := s.history.image.set w.place.val w.content w.place.isLt
              writing := none
              round := some { r with remaining := r.remaining.erase w.place } } }))))

/-! ## The tally link and the volume arithmetic -/

/-- An accepted frame against its head's expected number (R70 to R73, R76). In sequence: the frame is processed, the
expected number is the next, with 0 following 255, and the frames taken count rises. A repeat, numbered one below (255
below 0): only the repeat count changes and no entry is handed on. A restart: the flag, or a head that awaits one. A
gap: every channel in use is marked and TALLY_FAULT raised before the entries are handed on (R74), listing the channels
by rising number (log entry 51). The entries of a processed frame wait, and the first of them, as many as the command
says, are handed on at once; the entries of an earlier frame that still wait are all handed on first (log entry 34). -/
def Obligations.Tally_sequence : Prop :=
  ∀ (s : State) (levels : List Bool) (now : Nat),
    s.tally.skippingPartial = false →
      (levels ≠ [] →
        exec (.tallyFrame (some levels) now) s =
          exec (.tallyFrame (some levels) now) (State.handOn s.tally.waiting.length s)) ∧
      ∀ (f : TallyFrame) (h : Head), s.tally.waiting = [] →
        readTallyFrame levels.length (gatherBytes 70 levels) = some f → s.tally.heads[f.head.val] = h →
          (∀ e, h.expected = some e → e < 256 → f.restart = false → f.sequence = e →
            exec (.tallyFrame (some levels) now) s = .next
              (State.settle (State.handOn now
                { s with tally := { s.tally with
                    waiting := f.entries
                    heads := s.tally.heads.set f.head.val { h with
                      expected := some (if e = 255 then 0 else e + 1)
                      taken := min 4294967295 (h.taken + 1) } f.head.isLt } }))) ∧
          (∀ e, h.expected = some e → f.restart = false → f.sequence = (if e = 0 then 255 else e - 1) → e < 256 →
            exec (.tallyFrame (some levels) now) s = .next
              (State.settle
                { s with tally := { s.tally with heads := s.tally.heads.set f.head.val { h with
                    repeats := min 4294967295 (h.repeats + 1) } f.head.isLt } })) ∧
          ((h.expected = none ∨ f.restart = true) →
            exec (.tallyFrame (some levels) now) s = .next
              (State.settle (State.handOn now
                { s with tally := { s.tally with
                    waiting := f.entries
                    heads := s.tally.heads.set f.head.val { h with
                      expected := some (if f.sequence = 255 then 0 else f.sequence + 1)
                      restarts := min 4294967295 (h.restarts + 1) } f.head.isLt } }))) ∧
          (∀ e, h.expected = some e → e < 256 → f.restart = false → f.sequence ≠ e →
            f.sequence ≠ (if e = 0 then 255 else e - 1) →
              ∃ size u, (e + size) % 256 = f.sequence ∧ 1 ≤ size ∧ size ≤ 254 ∧
                exec (.tallyFrame (some levels) now) s = .next (State.settle (State.handOn now u)) ∧
                u.tally = { s.tally with
                  waiting := f.entries
                  heads := s.tally.heads.set f.head.val { h with
                    expected := some (if f.sequence = 255 then 0 else f.sequence + 1)
                    taken := min 4294967295 (h.taken + 1)
                    gaps := min 4294967295 (h.gaps + 1)
                    missed := min 4294967295 (h.missed + size) } f.head.isLt } ∧
                (∀ c, u.channel c =
                  if (s.channel c).state = .idle then s.channel c
                  else { s.channel c with tallyUncertain := true }) ∧
                u.notices = s.notices.raise (.tallyFault f.head size f.sequence s.channelsInUse) ∧
                u.slots = s.slots ∧ u.history = s.history)

/-- What is not received and where an entry goes (R68, R69, R76, R79, R206). The bits taken are gathered into bytes, the
first bit most significant, of which the length of the largest frame is kept. A frame is accepted as the fields of Table
11-8 when the bits are whole bytes, the count is 1 to 8, the length is that of the count, the CRC-16 is right, the head
is 0 to 3 and every channel is 0 to 7; with any of these not so it is not. A frame in progress at a reset's end is not
received, and its end ends the skipping uncounted (log entry 34); a strobe period without a bit is ignored; a frame that
is not accepted is counted bad and nothing of it is acted on; TSTROBE deasserted after a reset ends the waiting. Waiting
entries are handed on one at a time in their order: one of an IDLE channel is discarded and counted, any other is handed
to the Volume Unit and counted. -/
def Obligations.Tally_discards : Prop :=
  ∀ (s : State) (levels : List Bool) (now : Nat),
    (∀ (most : Nat) (b7 b6 b5 b4 b3 b2 b1 b0 : Bool),
      gatherBytes (most + 1) (b7 :: b6 :: b5 :: b4 :: b3 :: b2 :: b1 :: b0 :: levels) =
        BitVec.ofBoolListBE [b7, b6, b5, b4, b3, b2, b1, b0] :: gatherBytes most levels) ∧
    (∀ most, (gatherBytes most levels).length = min most (levels.length / 8)) ∧
    (∀ (head : Fin 4) (flags sequence : Byte) (entries : List TallyEntry) (body : List Byte),
      1 ≤ entries.length → entries.length ≤ 8 →
      (∀ e ∈ entries, e.small < 65536 ∧ e.medium < 65536 ∧ e.large < 65536 ∧ e.temperature < 256) →
      body = [BitVec.ofNat 8 head.val, flags, sequence, BitVec.ofNat 8 entries.length] ++ entries.flatMap (fun e =>
        [BitVec.ofNat 8 e.channel.val, BitVec.ofNat 8 (e.small / 256), BitVec.ofNat 8 e.small,
          BitVec.ofNat 8 (e.medium / 256), BitVec.ofNat 8 e.medium, BitVec.ofNat 8 (e.large / 256),
          BitVec.ofNat 8 e.large, BitVec.ofNat 8 e.temperature]) →
      (∀ c1 c0 : Byte, c1 ++ c0 = crc16 body →
        readTallyFrame (8 * (6 + 8 * entries.length)) (body ++ [c1, c0]) =
          some ⟨head, flags.msb, sequence.toNat, entries⟩) ∧
      ∀ c1 c0 : Byte, c1 ++ c0 ≠ crc16 body →
        readTallyFrame (8 * (6 + 8 * entries.length)) (body ++ [c1, c0]) = none) ∧
    (∀ bits (bytes : List Byte), bytes.length < 4 ∨ bits ≠ 8 * bytes.length → readTallyFrame bits bytes = none) ∧
    (∀ (head flags sequence count : Byte) (rest : List Byte),
      (count.toNat = 0 ∨ 8 < count.toNat ∨ rest.length ≠ 8 * count.toNat + 2 ∨ 3 < head.toNat ∨
        ∃ k c, k < count.toNat ∧ rest[8 * k]? = some c ∧ 7 < c.toNat) →
        ∀ bits, readTallyFrame bits (head :: flags :: sequence :: count :: rest) = none) ∧
    (s.tally.skippingPartial = true →
      exec (.tallyFrame (some levels) now) s = .next
        (State.settle { s with tally := { s.tally with skippingPartial := false } })) ∧
    (s.tally.skippingPartial = false → levels = [] → exec (.tallyFrame (some levels) now) s = .next s.settle) ∧
    (s.tally.skippingPartial = false → s.tally.waiting = [] → levels ≠ [] →
      readTallyFrame levels.length (gatherBytes 70 levels) = none →
        exec (.tallyFrame (some levels) now) s = .next
          (State.settle { s with tally := { s.tally with badFrames := min 4294967295 (s.tally.badFrames + 1) } })) ∧
    exec .tstrobeDeassertedAfterReset s = .next { s with tally := { s.tally with skippingPartial := false } } ∧
    (∀ n, exec (.tallyFrame none n) s = .next (State.settle (State.handOn n s))) ∧
    (∀ n, (n = 0 ∨ s.tally.waiting = []) → State.handOn n s = s) ∧
    (∀ n e rest, s.tally.waiting = e :: rest →
      State.handOn (n + 1) s =
        State.handOn n (State.routeEntry { s with tally := { s.tally with waiting := rest } } e)) ∧
    (∀ e : TallyEntry,
      ((s.channel e.channel).state = .idle →
        s.routeEntry e = { s with tally := { s.tally with idleEntries := min 4294967295 (s.tally.idleEntries + 1) } }) ∧
      ((s.channel e.channel).state ≠ .idle →
        s.routeEntry e = State.takeEntryVolume
          { s with tally := { s.tally with handedOn := min 4294967295 (s.tally.handedOn + 1) } } e))

/-- The entry computation (R82, R84, R85). With drop sum S, temperature factor corr (R83: 32768 for code 255, otherwise
32768 + β × (code − reference) kept in 16384..49152), residue r and accumulator a: P = S × corr + r, q = P div 32768,
the residue becomes P mod 32768; A = a + q, the charge is A div 1,000,000 and the accumulator becomes A mod 1,000,000.
With the operands in their ranges S, P, q and the charge lie in the ranges stated. An entry with code 255 counts as
uncorrected, one whose factor met a bound as clamped (R83). A charge of 0 changes nothing else (R86); one above 0 is
charged as R88 and R89 state (`Charged`; the time waited in a RESERVATION_GRANTED is on the model's clock, log entry 1).
-/
def Obligations.Entry_arithmetic : Prop :=
  ∀ (s : State) (e : TallyEntry) (ch : Channel) (S corr P q A : Nat),
    ch = s.channel e.channel →
      S = e.small * ch.settings.weightSmall + e.medium * ch.settings.weightMedium +
        e.large * ch.settings.weightLarge →
      (corr : Int) = (if e.temperature = 255 then 32768
        else max 16384 (min 49152
          (32768 + ch.settings.beta * ((e.temperature : Int) - ch.settings.referenceCode)))) →
      P = S * corr + ch.volume.residue → q = P / 32768 → A = ch.volume.accumulator + q →
        ((s.takeEntryVolume e).channel e.channel).volume.residue = P % 32768 ∧
        ((s.takeEntryVolume e).channel e.channel).volume.accumulator = A % 1000000 ∧
        ((s.takeEntryVolume e).channel e.channel).volume.totalCharged =
          (if A / 1000000 = 0 then ch.volume.totalCharged
          else min 281474976710655 (ch.volume.totalCharged + A / 1000000)) ∧
        (A / 1000000 = 0 →
          s.takeEntryVolume e =
            { s with channels := s.channels.set e.channel.val { ch with volume := { ch.volume with
                residue := P % 32768
                accumulator := A % 1000000
                uncorrected := ((s.takeEntryVolume e).channel e.channel).volume.uncorrected
                clamped := ((s.takeEntryVolume e).channel e.channel).volume.clamped } } e.channel.isLt }) ∧
        (0 < A / 1000000 → ∃ v part excess rest,
          v = { s with channels := s.channels.set e.channel.val { ch with volume := { ch.volume with
            residue := P % 32768
            accumulator := A % 1000000
            uncorrected := ((s.takeEntryVolume e).channel e.channel).volume.uncorrected
            clamped := ((s.takeEntryVolume e).channel e.channel).volume.clamped } } e.channel.isLt } ∧
          Charged v (s.takeEntryVolume e) e.channel (A / 1000000) part excess rest) ∧
        ((s.takeEntryVolume e).channel e.channel).volume.uncorrected =
          (if e.temperature = 255 then min 4294967295 (ch.volume.uncorrected + 1) else ch.volume.uncorrected) ∧
        ((s.takeEntryVolume e).channel e.channel).volume.clamped =
          (if e.temperature ≠ 255 ∧
              (32768 + ch.settings.beta * ((e.temperature : Int) - ch.settings.referenceCode) < 16384 ∨
                49152 < 32768 + ch.settings.beta * ((e.temperature : Int) - ch.settings.referenceCode)) then
            min 4294967295 (ch.volume.clamped + 1)
          else ch.volume.clamped) ∧
        (S = 0 → ch.volume.residue < 32768 → ch.volume.accumulator < 1000000 →
          P % 32768 = ch.volume.residue ∧ A % 1000000 = ch.volume.accumulator) ∧
        (e.small ≤ 65535 → e.medium ≤ 65535 → e.large ≤ 65535 → ch.settings.weightSmall ≤ 65535 →
          ch.settings.weightMedium ≤ 65535 → ch.settings.weightLarge ≤ 65535 → ch.volume.residue < 32768 →
          ch.volume.accumulator < 1000000 →
            S ≤ 12884508675 ∧ P ≤ 633299370426367 ∧ q ≤ 19326763013 ∧ A / 1000000 ≤ 19327)

/-! ## The lanes and the Digest Engine -/

/-- Reply frames on a lane (R26, R206, Table 11-9). A frame of address, command, kind, data length, data and the CRC-8
of these is read as its fields. It answers an entry when the address is the slot's (s mod 4, Table 1-1) and the command
is the entry's, and then it is BUSY, ERROR with its code, ACK of a MARK or MEM_WRITE, REFUSED_DECREASE of an
ODO_ADVANCE, the data of a MEM_READ of that length, the 8 bytes of an answer or a receipt, high byte first, or the 22
bytes of a description, field by field. A frame with another CRC-8, address or command, of a kind or a length the
command does not admit (log entry 28), or with a tag state above 2 is a failed attempt. -/
def Obligations.Reply_frames_are_read : Prop :=
  ∀ (e : LaneEntry) (address command kind check : Byte) (data head frame : List Byte), data.length ≤ 255 →
    head = [address, command, kind, BitVec.ofNat 8 data.length] → frame = head ++ data ++ [check] →
      e.command.code =
        (match e.command with
        | .describe => 0x01
        | .challenge _ => 0x02
        | .odoAdvance .. => 0x03
        | .mark _ => 0x04
        | .memRead .. => 0x05
        | .memWrite .. => 0x06) ∧
      (check ≠ crc8 (head ++ data) → readReply e frame = .failedAttempt) ∧
      (check = crc8 (head ++ data) →
        readTagFrame frame = some ⟨address.toNat, command, kind, data⟩ ∧
        (address.toNat ≠ e.slot.val % 4 ∨ command ≠ e.command.code → readReply e frame = .failedAttempt) ∧
        (address.toNat = e.slot.val % 4 → command = e.command.code →
          (4 < kind.toNat ∨ 1 ≤ kind.toNat ∧ data.length ≠ (if kind = 3 then 1 else 0) →
            readReply e frame = .failedAttempt) ∧
          (kind = 2 → data = [] → readReply e frame = .busy) ∧
          (∀ code, kind = 3 → data = [code] → readReply e frame = .error code) ∧
          (kind = 1 → data = [] →
            (((∃ m, e.command = .mark m) ∨ ∃ place bytes, e.command = .memWrite place bytes) →
              readReply e frame = .usable .ack) ∧
            ((∀ m, e.command ≠ .mark m) → (∀ place bytes, e.command ≠ .memWrite place bytes) →
              readReply e frame = .failedAttempt)) ∧
          (kind = 4 → data = [] →
            ((∃ v g n, e.command = .odoAdvance v g n) → readReply e frame = .usable .refusedDecrease) ∧
            ((∀ v g n, e.command ≠ .odoAdvance v g n) → readReply e frame = .failedAttempt)) ∧
          (kind = 0 →
            (∀ place n, e.command = .memRead place n →
              (data.length = n → readReply e frame = .usable (.data data)) ∧
              (data.length ≠ n → readReply e frame = .failedAttempt)) ∧
            ((∃ m, e.command = .mark m) ∨ (∃ place bytes, e.command = .memWrite place bytes) →
              readReply e frame = .failedAttempt) ∧
            ((∃ nonce, e.command = .challenge nonce) ∨ (∃ v g n, e.command = .odoAdvance v g n) →
              (∀ b7 b6 b5 b4 b3 b2 b1 b0 : Byte, data = [b7, b6, b5, b4, b3, b2, b1, b0] →
                readReply e frame = .usable (.answer (b7 ++ b6 ++ b5 ++ b4 ++ b3 ++ b2 ++ b1 ++ b0))) ∧
              (data.length ≠ 8 → readReply e frame = .failedAttempt)) ∧
            (e.command = .describe →
              (data.length ≠ 22 → readReply e frame = .failedAttempt) ∧
              ∀ s7 s6 s5 s4 s3 s2 s1 s0 ink f3 f2 f1 f0 generation state mark o3 o2 o1 o0 l1 l0 : Byte,
                data = [s7, s6, s5, s4, s3, s2, s1, s0, ink, f3, f2, f1, f0, generation, state, mark, o3, o2, o1, o0,
                  l1, l0] →
                (2 < state.toNat → readReply e frame = .failedAttempt) ∧
                ∀ tag : TagState, (state = 0 ∧ tag = .fresh ∨ state = 1 ∧ tag = .inUse ∨ state = 2 ∧ tag = .spent) →
                  readReply e frame = .usable (.description
                    { serial := s7 ++ s6 ++ s5 ++ s4 ++ s3 ++ s2 ++ s1 ++ s0
                      inkCode := ink.toNat
                      nominalFill := (f3 ++ f2 ++ f1 ++ f0).toNat
                      fillGeneration := generation.toNat
                      tagState := tag
                      refillMark := decide (mark ≠ 0)
                      odometerAtRead := (o3 ++ o2 ++ o1 ++ o0).toNat
                      makerLot := l1 ++ l0 })))))

/-- A description reaches a slot in READING (R1, R15, R60): it is stored and checked, and the first check that fails
rejects the slot: identity or a serial seated elsewhere BAD_IDENTITY, another ink WRONG_INK, a BARRED entry BARRED. With
all passed the slot enters VERIFYING when the key is provisioned, and is rejected AUTH_UNAVAILABLE otherwise. No other
slot and no channel changes. Of two entries of one serial the one found is log entry 56's. -/
def Obligations.Description_is_checked : Prop :=
  ∀ (s : State) (l : LaneId) (x : Transaction) (frame : List Byte) (d : Description) (i : SlotId)
    (identity elsewhere ink barred : Prop),
    (s.lane l).state = .onWire x → x.phase = .replyWait → x.abandoned = false → x.entry.command = .describe →
      x.entry.slot = i → readReply x.entry frame = .usable (.description d) → (s.slot i).state = .reading →
        (identity ↔ d.inkCode = 0 ∨ d.inkCode = 255 ∨ d.nominalFill < 1000000 ∨ 2000000000 < d.nominalFill ∨
          2000000000 < d.odometerAtRead) →
        (elsewhere ↔ ∃ j, j ≠ i ∧ (s.slot j).state ≠ .vacant ∧
          ∃ d', (s.slot j).description = some d' ∧ d'.serial = d.serial) →
        (ink ↔ ∃ c, (s.slot i).channel = some c ∧ d.inkCode ≠ (s.channel c).settings.inkCode) →
        (barred ↔ ∃ p e, s.findEntry d.serial = some p ∧ s.place p = some e ∧ e.barred = true) →
          ∃ t, exec (.laneReply l frame) s = .next t ∧ Undisturbed s t ∧ (t.slot i).description = some d ∧
            (∀ j, j ≠ i → t.slot j = s.slot j) ∧ t.channels = s.channels ∧
            (identity ∨ elsewhere →
              (t.slot i).state = .rejected ∧ (t.slot i).rejectReason = some .badIdentity) ∧
            (¬identity → ¬elsewhere → ink →
              (t.slot i).state = .rejected ∧ (t.slot i).rejectReason = some .wrongInk) ∧
            (¬identity → ¬elsewhere → ¬ink → barred →
              (t.slot i).state = .rejected ∧ (t.slot i).rejectReason = some .barred) ∧
            (¬identity → ¬elsewhere → ¬ink → ¬barred →
              (∀ root, s.keys.state = .provisioned root →
                (t.slot i).state = .verifying ∧ t.nonceDraws = s.nonceDraws + 1) ∧
              ((∀ root, s.keys.state ≠ .provisioned root) →
                (t.slot i).state = .rejected ∧ (t.slot i).rejectReason = some .authUnavailable))

/-- Attempts and how a transaction ends (R16, R26 to R29, R32, R45, R111 to R113; which replies are failed attempts is
log entry 28). A reply timeout, or a reply frame that answers nothing, in the reply wait uses an attempt: the command is
sent again. A BUSY reply starts a hold-off while eight have not been tolerated, at whose end the command is sent again.
A third failed attempt or a ninth BUSY reply ends the transaction NO_RESPONSE, an ERROR reply TAG_ERROR with its code: a
slot whose admission it was is FAULTED; a commit's failure is counted, its value doubtful and COMMIT_FAILED raised, and
with the third an admitted slot is FAULTED; a MARK leaves the wanted set, and the other mark, if wanted, is queued; a
pass-through ends FAILED. REFUSED_DECREASE faults an admitted slot ODOMETER_AHEAD; a channel that a slot faulted so was
serving fails over (R132); an ACK shows the mark in the description; a pass-through's reply ends it OK. An answer or a
receipt makes a job (R34, R56, R107): with fewer than 8 queued it joins, starting at once on an IDLE engine, a receipt's
commit is CHECKING, and the lane is free; otherwise the lane is HELD with it, last of the held ones. An abandoned
transaction hands nothing over and its answer makes no job (log entry 27): the lane is IDLE and takes its next entry.
Outside the reply wait and the hold-off the commands change nothing (log entry 3). -/
def Obligations.Lane_attempts : Prop :=
  ∀ (s : State) (l : LaneId),
    ((∀ x, (s.lane l).state = .onWire x → x.phase ≠ .replyWait) →
      exec (.replyTimeout l) s = .next s ∧ ∀ frame, exec (.laneReply l frame) s = .next s) ∧
    ((∀ x, (s.lane l).state = .onWire x → x.phase ≠ .busyHoldOff) → exec (.busyHoldOffExpiry l) s = .next s) ∧
    (∀ x, (s.lane l).state = .onWire x → x.phase = .busyHoldOff →
      exec (.busyHoldOffExpiry l) s = .next (s.updLane l fun lane => { lane with
        state := .onWire { x with phase := .replyWait } })) ∧
    ∀ x, (s.lane l).state = .onWire x → x.phase = .replyWait →
      (∀ c, (c = .replyTimeout l ∨ ∃ frame, c = .laneReply l frame ∧ readReply x.entry frame = .failedAttempt) →
        x.failedAttempts < 2 →
          exec c s = .next (State.settle (s.updLane l fun lane => { lane with
            state := .onWire { x with failedAttempts := x.failedAttempts + 1 } }))) ∧
      (∀ frame, readReply x.entry frame = .busy → x.busyReplies < 8 →
        exec (.laneReply l frame) s = .next (State.settle (s.updLane l fun lane => { lane with
          state := .onWire { x with busyReplies := x.busyReplies + 1, phase := .busyHoldOff } }))) ∧
      (∀ (c : Instr) (i : SlotId) (why : TagFailure), x.entry.slot = i → laneOf i = l →
        (why = .noResponse ∧ 2 ≤ x.failedAttempts ∧
            (c = .replyTimeout l ∨ ∃ frame, c = .laneReply l frame ∧ readReply x.entry frame = .failedAttempt) ∨
          why = .noResponse ∧ 8 ≤ x.busyReplies ∧
            (∃ frame, c = .laneReply l frame ∧ readReply x.entry frame = .busy) ∨
          ∃ frame code, c = .laneReply l frame ∧ readReply x.entry frame = .error code ∧ why = .tagError code) →
          ∃ u, exec c s = .next u.settle ∧ Undisturbed s u ∧
            (x.abandoned = true → u = (s.updLane l fun lane => { lane with state := .idle }).takeEntry l) ∧
            (x.abandoned = false → (x.entry.command = .describe ∨ ∃ nonce, x.entry.command = .challenge nonce) →
              ((s.lane l).queue = [] → (u.lane l).state = .idle) ∧
              u.slots =
                if (s.slot i).state = .reading ∨ (s.slot i).state = .verifying then
                  s.slots.set i.val { s.slot i with
                    state := .faulted
                    faultReason := some (if why = .noResponse then .noResponse else .tagError) } i.isLt
                else s.slots) ∧
            (∀ v g n f, x.abandoned = false → x.entry.command = .odoAdvance v g n → (s.commit i).flight = some f →
              (u.commit i).failures = min 3 ((s.commit i).failures + 1) ∧
              (u.commit i).doubtful = some (max ((s.commit i).doubtful.getD 0) f.advance) ∧
              (u.commit i).again = .clear ∧
              (u.slot i).committed = (s.slot i).committed ∧ (u.slot i).uncommitted = (s.slot i).uncommitted ∧
              ((s.slot i).state.isAdmitted = true ∧ 2 ≤ (s.commit i).failures →
                (u.slot i).state = .faulted ∧ (u.slot i).faultReason = some .commitFailed ∧
                ∀ ch, (s.slot i).channel = some ch → (s.channel ch).serving = some i → i ∈ (s.channel ch).pairSlots →
                  FailedOver s u ch i .faulted (s.channel ch).reservations) ∧
              ((s.slot i).state.isAdmitted = false ∨ (s.commit i).failures < 2 → u.slot i = s.slot i) ∧
              Announced s.notices u.notices
                (.commitFailed i
                  (match why with
                  | .noResponse => .noResponse
                  | .tagError code => .tagError code)
                  f.advance (min 3 ((s.commit i).failures + 1)) (u.slot i).state)) ∧
            (∀ m other, x.abandoned = false → x.entry.command = .mark m →
              (m = .spent ∧ other = .refill ∨ m = .refill ∧ other = .spent) →
                RecordsKept s u ∧ (u.bus.wanted[i.val]).has m = false ∧
                ((s.bus.wanted[i.val]).has other = true → (s.slot i).shows other = false →
                  ⟨i, .mark other, none⟩ ∈ (u.lane l).queue ∨
                    ∃ y, (u.lane l).state = .onWire y ∧ y.entry = ⟨i, .mark other, none⟩)) ∧
            (∀ ticket, x.abandoned = false → x.entry.ticket = some ticket →
              ((∃ address n, x.entry.command = .memRead address n) ∨
                ∃ address bytes, x.entry.command = .memWrite address bytes) →
                RecordsKept s u ∧ ((s.lane l).queue = [] → (u.lane l).state = .idle) ∧
                Announced s.notices u.notices
                  (.passthroughDone i ticket (.failed (match why with
                    | .noResponse => .noResponse
                    | .tagError code => .tagError code))))) ∧
      (∀ (frame : List Byte) (reply : UsableReply) (i : SlotId), x.entry.slot = i → laneOf i = l →
        readReply x.entry frame = .usable reply →
          ∃ u, exec (.laneReply l frame) s = .next u.settle ∧ Undisturbed s u ∧
            (x.abandoned = true → u = (s.updLane l fun lane => { lane with state := .idle }).takeEntry l) ∧
            (∀ v g n f, x.abandoned = false → x.entry.command = .odoAdvance v g n → reply = .refusedDecrease →
              (s.commit i).flight = some f →
                (u.commit i).failures = (s.commit i).failures ∧ (u.commit i).doubtful = (s.commit i).doubtful ∧
                (u.commit i).again = .clear ∧ u.history = s.history ∧
                (u.slot i).committed = (s.slot i).committed ∧ (u.slot i).uncommitted = (s.slot i).uncommitted ∧
                ((s.slot i).state.isAdmitted = true →
                  (u.slot i).state = .faulted ∧ (u.slot i).faultReason = some .odometerAhead ∧
                  ∀ ch, (s.slot i).channel = some ch → (s.channel ch).serving = some i →
                    i ∈ (s.channel ch).pairSlots → FailedOver s u ch i .faulted (s.channel ch).reservations) ∧
                ((s.slot i).state.isAdmitted = false → u.slot i = s.slot i) ∧
                Announced s.notices u.notices
                  (.commitFailed i .odometerAhead f.advance (s.commit i).failures (u.slot i).state)) ∧
            (∀ m, x.abandoned = false → x.entry.command = .mark m → reply = .ack →
              (u.bus.wanted[i.val]).has m = false ∧
              u.slots = s.slots.set i.val { s.slot i with
                description := (s.slot i).description.map fun d =>
                  match m with
                  | .spent => { d with tagState := .spent }
                  | .refill => { d with refillMark := true } } i.isLt) ∧
            (∀ ticket status, x.abandoned = false → x.entry.ticket = some ticket →
              ((∃ address bytes, x.entry.command = .memWrite address bytes ∧ reply = .ack ∧ status = .ok none) ∨
                ∃ address n bytes, x.entry.command = .memRead address n ∧ reply = .data bytes ∧
                  status = .ok (some bytes)) →
                RecordsKept s u ∧ ((s.lane l).queue = [] → (u.lane l).state = .idle) ∧
                Announced s.notices u.notices (.passthroughDone i ticket status)) ∧
            (∀ (w : Word64) (d : Description) (j : Job), x.abandoned = false → reply = .answer w →
              (s.slot i).description = some d →
              ((∃ nonce, x.entry.command = .challenge nonce ∧
                  j = ⟨i, d.serial, d.makerLot, nonce, w, .verifyChallenge d.fillGeneration d.odometerAtRead⟩) ∨
                ∃ v g nonce, x.entry.command = .odoAdvance v g nonce ∧
                  j = ⟨i, d.serial, d.makerLot, nonce, w, .verifyReceipt v⟩) →
                RecordsKept s u ∧
                (s.engine.queue.length < 8 →
                  u.engine = (match s.engine.running with
                    | none => { s.engine with running := some ⟨j, false⟩ }
                    | some _ => { s.engine with queue := s.engine.queue ++ [j] }) ∧
                  ((s.lane l).queue = [] → (u.lane l).state = .idle) ∧
                  (∀ f, x.entry.laneClass = .commit → (s.commit i).flight = some f →
                    (∀ e ∈ (s.lane l).queue, e.slot = i → e.laneClass ≠ .commit) →
                      u.commit i = { s.commit i with flight := some { f with phase := .checking } })) ∧
                (8 ≤ s.engine.queue.length →
                  u = { s.updLane l fun lane => { lane with state := .held j } with
                    engine := { s.engine with heldLanes := s.engine.heldLanes ++ [l] } })))

/-- A receipt has been checked (R49, R50, R53, R108, R110): the value computed is the tag digest of serial, value sent
and nonce under the cartridge's key, one and the same for the same key and fields (log entry 10). A match: committed
takes the advance value, uncommitted falls by the snapshot, the failure count is 0, no value is doubtful, and the entry
is rewritten with the advance value as odometer. A mismatch: the accounts stay, the doubtful value takes the advance
value when higher, an admitted slot is rejected RECEIPT_MISMATCH, a channel that it was serving fails over (R132), the
entry is barred and COMMIT_FAILED is raised. The accounts of every other slot stay, the oldest queued job starts, and a
held lane takes the place that falls free (`NextJob`, R56, R107). With no job in progress nothing changes (log entry 3).
Of two entries of one serial the one found is log entry 56's. -/
def Obligations.Receipt_is_checked : Prop :=
  ∀ (s : State) (place : Option PlaceId),
    (s.engine.running = none → exec (.digestJobComplete place) s = .next s) ∧
    (∀ (j : Job) (v : Nat) (f : Flight) (root : Word128) (computed : Word64) (i : SlotId),
      s.engine.running = some ⟨j, false⟩ → j.work = .verifyReceipt v → j.slot = i →
        (s.commit i).flight = some f → s.keys.state = .provisioned root →
          computed = Config.tagDigest (Config.cartridgeKey root j.serial j.makerLot)
            [j.serial.toNat, v, j.nonce.toNat] →
            ∃ t, exec (.digestJobComplete place) s = .next t ∧ Undisturbed s t ∧
              NextJob s t i ∧
              (∀ k, k ≠ i → (t.slot k).committed = (s.slot k).committed ∧
                (t.slot k).uncommitted = (s.slot k).uncommitted) ∧
              (computed = j.tagValue →
                (t.slot i).committed = f.advance ∧ (t.slot i).uncommitted = (s.slot i).uncommitted - f.snapshot ∧
                (t.commit i).failures = 0 ∧ (t.commit i).doubtful = none ∧ (t.slot i).state = (s.slot i).state ∧
                ∀ p e, s.entryOf i = some p → s.place p = some e →
                  t.place p = some { e with
                    odometer := f.advance
                    pendingCharge :=
                      if (s.slot i).uncommitted - f.snapshot = 0 then none
                      else some ((s.slot i).uncommitted - f.snapshot)
                    uncertain := none }) ∧
              (computed ≠ j.tagValue →
                (t.slot i).committed = (s.slot i).committed ∧ (t.slot i).uncommitted = (s.slot i).uncommitted ∧
                (t.commit i).failures = (s.commit i).failures ∧
                (t.commit i).doubtful = some (max ((s.commit i).doubtful.getD 0) f.advance) ∧
                ((s.slot i).state.isAdmitted = true →
                  (t.slot i).state = .rejected ∧ (t.slot i).rejectReason = some .receiptMismatch ∧
                  ∀ ch, (s.slot i).channel = some ch → (s.channel ch).serving = some i →
                    i ∈ (s.channel ch).pairSlots → FailedOver s t ch i .rejected (s.channel ch).reservations) ∧
                ((s.slot i).state.isAdmitted = false → (t.slot i).state = (s.slot i).state) ∧
                Announced s.notices t.notices
                  (.commitFailed i .receiptMismatch f.advance (s.commit i).failures (t.slot i).state) ∧
                ∀ p e, s.entryOf i = some p → s.place p = some e → t.place p = some { e with barred := true }))

/-- An answer has been checked for a slot in VERIFYING (R17, R18, R49, R52, R173, R175 to R178, R183, R184; log entry
10). A mismatch rejects it AUTH_FAILED. A match is reconciled. Against no entry, with a place empty, a new entry is made
in an empty place (which one, log entry 21); with the table full, in the place of the evicted one: of the entries of no
seated cartridge the lowest stamp among those without pending charge and bar, else without bar, else of all, its pending
charge forfeited and HISTORY_EVICTED raised. Against an entry, an older fill or a lower odometer of the same fill is a
rollback, which rejects the slot and bars the entry; a newer fill forfeits the pending charge; otherwise the pending
charge is taken on, less the uncertain part when the odometer shows that it landed. A slot that passes is in SENSING
with its accounts set, and its entry has the next stamp: the recency counter's next value, or, with the counter at its
maximum, the number of the entries there are before it is made (63 after an eviction) plus 1, after each of these took
its rank by old stamp (the lower place first where two have one stamp, log entry 55). The engine's next job starts, and
a held lane takes the place that falls free (`NextJob`, R50, R56). Of two entries of one serial the one found is log
entry 56's. -/
def Obligations.Answer_is_reconciled : Prop :=
  ∀ (s : State) (place : Option PlaceId) (j : Job) (g o : Nat) (root : Word128) (computed : Word64) (i : SlotId)
    (d : Description),
    s.engine.running = some ⟨j, false⟩ → j.work = .verifyChallenge g o → j.slot = i →
      s.keys.state = .provisioned root → (s.slot i).state = .verifying → (s.slot i).description = some d →
        computed = Config.tagDigest (Config.cartridgeKey root j.serial j.makerLot)
          [j.nonce.toNat, j.serial.toNat, g, o, j.makerLot.toNat] →
          ∃ t, exec (.digestJobComplete place) s = .next t ∧ Undisturbed s t ∧
            NextJob s t i ∧
            (∀ k, k ≠ i → t.slot k = s.slot k) ∧ t.channels = s.channels ∧
            (computed ≠ j.tagValue →
              (t.slot i).state = .rejected ∧ (t.slot i).rejectReason = some .authFailed ∧
                t.history.places = s.history.places) ∧
            (computed = j.tagValue →
              (s.findEntry d.serial = none → (∃ p, s.place p = none) → ∀ stamp, s.history.recency ≤ 4294967295 →
                stamp = (if s.history.recency = 4294967295 then s.history.count else s.history.recency) + 1 →
                (t.slot i).state = .sensing ∧ (t.slot i).committed = d.odometerAtRead ∧
                (t.slot i).uncommitted = 0 ∧
                ∃ p, s.place p = none ∧ (∀ q, place = some q → s.place q = none → p = q) ∧ t.place p = some
                  ⟨d.serial, d.inkCode, d.fillGeneration, d.odometerAtRead, none, none, false, false, i,
                    stamp⟩ ∧ t.history.recency = stamp ∧
                  ∀ q, q ≠ p → t.place q = (s.place q).map fun x => { x with
                    stamp := if s.history.recency = 4294967295 then s.history.rank q x.stamp else x.stamp }) ∧
              (∀ (p : PlaceId) (e : HistoryEntry) (tier stamp : Nat) (free first second third : HistoryEntry → Prop),
                s.findEntry d.serial = none → (∀ q, s.place q ≠ none) → s.history.recency ≤ 4294967295 →
                  stamp = (if s.history.recency = 4294967295 then 63 else s.history.recency) + 1 →
                  (∀ x, free x ↔ ∀ k, (s.slot k).state ≠ .vacant → ∀ d', (s.slot k).description = some d' →
                    d'.serial ≠ x.serial) →
                  (∀ x, first x ↔ free x ∧ x.pendingCharge = none ∧ x.barred = false) →
                  (∀ x, second x ↔ free x ∧ x.barred = false) → (∀ x, third x ↔ free x) →
                  s.place p = some e →
                  (tier = 1 ∧ first e ∧ (∀ q x, q ≠ p → s.place q = some x → first x → e.stamp < x.stamp) ∨
                    tier = 2 ∧ second e ∧ (∀ q x, s.place q = some x → ¬first x) ∧
                      (∀ q x, q ≠ p → s.place q = some x → second x → e.stamp < x.stamp) ∨
                    tier = 3 ∧ third e ∧ (∀ q x, s.place q = some x → ¬second x) ∧
                      (∀ q x, q ≠ p → s.place q = some x → third x → e.stamp < x.stamp)) →
                    (t.slot i).state = .sensing ∧ (t.slot i).committed = d.odometerAtRead ∧
                    (t.slot i).uncommitted = 0 ∧
                    t.place p = some
                      ⟨d.serial, d.inkCode, d.fillGeneration, d.odometerAtRead, none, none, false, false, i,
                        stamp⟩ ∧ t.history.recency = stamp ∧
                    (∀ q x, q ≠ p → s.place q = some x → t.place q = some { x with
                      stamp :=
                        if s.history.recency = 4294967295 then
                          s.history.rank q x.stamp - if e.stamp < x.stamp ∨ e.stamp = x.stamp ∧ p < q then 1 else 0
                        else x.stamp }) ∧
                    t.history.forfeited =
                      min 281474976710655 (s.history.forfeited + e.pendingCharge.getD 0) ∧
                    Announced s.notices t.notices
                      (.historyEvicted e.serial tier (e.pendingCharge.getD 0) e.barred p)) ∧
              (∀ p e, s.findEntry d.serial = some p → s.place p = some e →
                ((d.fillGeneration < e.fillGeneration ∨
                    d.fillGeneration = e.fillGeneration ∧ d.odometerAtRead < e.odometer) →
                  (t.slot i).state = .rejected ∧ (t.slot i).rejectReason = some .rollback ∧
                    t.place p = some { e with barred := true }) ∧
                (∀ uncommitted stamp, s.history.recency ≤ 4294967295 →
                  stamp = (if s.history.recency = 4294967295 then s.history.count else s.history.recency) + 1 →
                  (e.fillGeneration < d.fillGeneration ∧ uncommitted = 0 ∨
                    d.fillGeneration = e.fillGeneration ∧ e.odometer + e.uncertain.getD 0 ≤ d.odometerAtRead ∧
                      uncommitted = e.pendingCharge.getD 0 - e.uncertain.getD 0 ∨
                    d.fillGeneration = e.fillGeneration ∧ e.odometer ≤ d.odometerAtRead ∧
                      d.odometerAtRead < e.odometer + e.uncertain.getD 0 ∧
                      uncommitted = e.pendingCharge.getD 0) →
                  (t.slot i).state = .sensing ∧ (t.slot i).committed = d.odometerAtRead ∧
                  (t.slot i).uncommitted = uncommitted ∧
                  t.history.forfeited =
                    (if e.fillGeneration < d.fillGeneration then
                      min 281474976710655 (s.history.forfeited + e.pendingCharge.getD 0)
                    else s.history.forfeited) ∧
                  t.place p = some { e with
                    inkCode := d.inkCode
                    fillGeneration := d.fillGeneration
                    odometer := d.odometerAtRead
                    pendingCharge := if uncommitted = 0 then none else some uncommitted
                    uncertain := none
                    lastSlot := i
                    stamp := stamp } ∧
                  t.history.recency = stamp ∧
                  (∀ q x, q ≠ p → s.place q = some x → t.place q = some { x with
                    stamp := if s.history.recency = 4294967295 then s.history.rank q x.stamp else x.stamp }))))

/-! ## The converter and the timers -/

/-- A conversion completes (R19, R154, R159, R161 to R169, R179 to R182; log entries 16, 38). A discarded one only frees
the converter; that it counted as deferred when the lane went on the wire is log entry 35's. The reference is GOOD from
1900 to 2200 and BAD otherwise, and going BAD raises SENSOR_FAULT. A slot's sample acts on its SENSOR_FAULT flag and
good run (`SampleTaken`). A good regular one joins the ring of at most four, the oldest leaving; with an admitted slot
of a channel, a full ring, the flag clear, the reference GOOD and the scan not HALTED (log entry 48) the window check is
made, with the ring's mean against the expected level: LEVEL_DISAGREE at the persistence of low checks, and at that of
high ones an in-service detection, which under WARN makes the quality REFILLED and under REJECT rejects the slot and
fails its channel over. A run's first three samples are gathered; with the fourth, four good ones become the ring, a
HOST run counts (past 65,535 to a free value, log entry 11), and an ADMISSION run of a slot in SENSING ends its
admission: REFILLED by mark, entry or level, rejected under REJECT, otherwise admitted, SPENT when it is empty or its
tag says so. VERDICT comes last. With no conversion in progress nothing changes (log entry 3). Of two entries of one
serial the one found is log entry 56's. -/
def Obligations.Conversion_completes : Prop :=
  ∀ (s : State) (raw : Nat),
    (s.sense.conversion = none → exec (.conversionComplete raw) s = .next s) ∧
    (∀ c, s.sense.conversion = some c →
      (c.discarded = true →
        exec (.conversionComplete raw) s = .next (State.settle { s with sense := { s.sense with conversion := none } })) ∧
      (c.discarded = false → c.source = .reference →
        ((1900 ≤ raw ∧ raw ≤ 2200) →
          exec (.conversionComplete raw) s = .next (State.settle { s with sense := { s.sense with
            conversion := none, reference := .good, lastReference := some raw } })) ∧
        ((raw < 1900 ∨ 2200 < raw) → s.sense.reference = .bad →
          exec (.conversionComplete raw) s = .next (State.settle { s with sense := { s.sense with
            conversion := none, lastReference := some raw } })) ∧
        ((raw < 1900 ∨ 2200 < raw) → s.sense.reference ≠ .bad →
          exec (.conversionComplete raw) s = .next (State.settle (State.raise { s with sense := { s.sense with
            conversion := none, reference := .bad, lastReference := some raw } } (.sensorFault none raw))))) ∧
      (∀ i, c.discarded = false → c.source = .slot i →
        ∃ v sample, SampleTaken s v i raw c sample ∧
          (c.ofRun = false → sample = none → exec (.conversionComplete raw) s = .next v.settle) ∧
          (∀ level ring, c.ofRun = false → sample = some level →
            ring = (if (s.slotSense i).ring.length < 4 then (s.slotSense i).ring ++ [level]
              else (s.slotSense i).ring.drop 1 ++ [level]) →
            (((s.slot i).state.isAdmitted = false ∨ (s.slot i).channel = none ∨ ring.length ≠ 4 ∨
                (v.slot i).sensorFault = true ∨ s.sense.reference ≠ .good ∨ s.sense.scan = .halted) →
              exec (.conversionComplete raw) s = .next
                (v.withSlotSense i { v.slotSense i with ring := ring }).settle) ∧
            (∀ ch settings sensed expected low high deficit rise,
              (s.slot i).state.isAdmitted = true → (s.slot i).channel = some ch → ring.length = 4 →
              (v.slot i).sensorFault = false → s.sense.reference = .good → s.sense.scan ≠ .halted →
              settings = (s.channel ch).settings → sensed = ring.sum / 4 → expected = (s.slot i).remaining * 1000 / (s.slot i).nominal →
              low = decide (sensed + settings.deficitTolerance < expected) →
              high = decide (expected + settings.refillTolerance < sensed) →
              deficit = (if low then min settings.persistence ((s.slotSense i).deficit + 1) else 0) →
              rise = (if high then (s.slotSense i).rise + 1 else 0) →
                ((high = false ∨ rise < settings.persistence) →
                  exec (.conversionComplete raw) s = .next (State.settle
                    { (v.withSlotSense i
                        { v.slotSense i with ring := ring, deficit := deficit, rise := rise }).withSlot i
                        { v.slot i with
                          senseUnchecked := false
                          levelDisagree := low && ((s.slot i).levelDisagree || deficit = settings.persistence) } with
                      notices :=
                        if low = true ∧ deficit = settings.persistence ∧ (s.slot i).levelDisagree = false then
                          v.notices.raise (.levelDisagree i ch sensed expected settings.deficitTolerance)
                        else v.notices })) ∧
                (high = true → settings.persistence ≤ rise →
                  ∃ u, exec (.conversionComplete raw) s = .next u.settle ∧ Undisturbed s u ∧ RefillSeen s u i ∧
                    RefillMarked s u i ∧
                    u.slotSense i = { v.slotSense i with ring := ring, deficit := 0, rise := 0 } ∧
                    (settings.refillPolicy = .warn →
                      u.channels = s.channels ∧
                      u.slots = s.slots.set i.val { s.slot i with
                        sensorFault := false
                        senseUnchecked := false
                        levelDisagree := false
                        quality := if (s.slot i).quality = some .genuine then some .refilled
                          else (s.slot i).quality } i.isLt ∧
                      LastRaised s.notices u.notices
                        (.verdict i ⟨(s.slot i).serial, .inService, .refilled, some ⟨false, false, true⟩,
                          some ⟨sensed, expected⟩, false, some .warn, none⟩)) ∧
                    (settings.refillPolicy = .reject →
                      u.slot i = { s.slot i with
                        sensorFault := false
                        senseUnchecked := false
                        levelDisagree := false
                        state := .rejected
                        rejectReason := some .refillRejected } ∧
                      ((s.channel ch).serving = some i → i ∈ (s.channel ch).pairSlots →
                        FailedOver s u ch i .rejected (s.channel ch).reservations) ∧
                      LastRaised s.notices u.notices
                        (.verdict i ⟨(s.slot i).serial, .inService, .refillRejected, some ⟨false, false, true⟩,
                          some ⟨sensed, expected⟩, false, some .reject, none⟩))))) ∧
          (∀ r, c.ofRun = true → s.sense.run = some r → r.request.slot = i →
            (r.samples.length < 3 →
              exec (.conversionComplete raw) s = .next (State.settle { v with sense := { v.sense with
                run := some { r with samples := r.samples ++ [sample] }
                conversion := some ⟨.slot i, true, (s.slotSense i).offset, (s.slotSense i).gain, false⟩ } })) ∧
            (r.samples.length = 3 → ∀ items draws,
              (∀ levels : List Nat, r.samples ++ [sample] = levels.map some →
                items = { v.slotSense i with
                  ring := levels
                  hostSenses :=
                    if r.request.reasons.host then
                      if (s.slotSense i).hostSenses < 65535 then (s.slotSense i).hostSenses + 1
                      else (Config.hostSensesPastEnd s.freeDraws).toNat
                    else (s.slotSense i).hostSenses
                  rise := if r.request.reasons.admission then 0 else (s.slotSense i).rise
                  deficit := if r.request.reasons.admission then 0 else (s.slotSense i).deficit } ∧
                draws =
                  if r.request.reasons.host = true ∧ 65535 ≤ (s.slotSense i).hostSenses then s.freeDraws + 1
                  else s.freeDraws) →
              (none ∈ r.samples ++ [sample] → items = v.slotSense i ∧ draws = s.freeDraws) →
                (r.request.reasons.admission = false →
                  exec (.conversionComplete raw) s = .next
                    (State.withSlotSense
                      { v with sense := { v.sense with run := none }, freeDraws := draws } i items).settle) ∧
                (∀ ch settings sensed tests, r.request.reasons.admission = true → (s.slot i).state = .sensing →
                  (s.slot i).channel = some ch → settings = (s.channel ch).settings →
                  (∀ levels : List Nat, r.samples ++ [sample] = levels.map some → s.sense.reference = .good →
                    sensed = some (levels.sum / 4)) →
                  (none ∈ r.samples ++ [sample] ∨ s.sense.reference ≠ .good → sensed = none) →
                  (TestsHeld.tagMark tests = true ↔ ∃ d, (s.slot i).description = some d ∧ d.refillMark = true) →
                  (tests.history = true ↔
                    ∃ p e, s.entryOf i = some p ∧ s.place p = some e ∧ e.refillSeen = true) →
                  (tests.level = true ↔
                    ∃ l, sensed = some l ∧ (s.slot i).perMille + settings.refillTolerance < l) →
                    ∃ u, exec (.conversionComplete raw) s = .next u.settle ∧ Undisturbed s u ∧
                      u.sense.run = none ∧ u.slotSense i = items ∧
                      (u.slot i).committed = (s.slot i).committed ∧
                      (u.slot i).uncommitted = (s.slot i).uncommitted ∧
                      (u.slot i).senseUnchecked = (sensed.isNone || (s.slot i).senseUnchecked) ∧
                      (∀ outcome quality,
                        (tests.any = false ∧ outcome = .genuine ∧ quality = .genuine ∨
                          tests.any = true ∧ settings.refillPolicy = .warn ∧ outcome = .refilled ∧
                            quality = .refilled) →
                          (u.slot i).quality = some quality ∧
                          (u.slot i).band = bandOf (s.slot i).remaining (s.slot i).perMille settings ∧
                          (quality = .refilled → RefillSeen s u i) ∧
                          (((s.slot i).remaining = 0 ∨ (s.slot i).shows .spent = true) →
                            (u.slot i).state = .spent ∧
                              (0 < (s.slot i).uncommitted → (u.commit i).flight.isSome = true)) ∧
                          (0 < (s.slot i).remaining → (s.slot i).shows .spent = false →
                            ((u.slot i).state = .ready ∨ (u.slot i).state = .serving) ∧
                            ((s.channel ch).state = .idle → (u.slot i).state = .ready) ∧
                            ((s.channel ch).state = .unsupplied → i ∈ (s.channel ch).pairSlots →
                              (∀ j, j ≠ i → ¬s.CanServe j) → DrawsFrom u ch i)) ∧
                          LastRaised s.notices u.notices
                            (.verdict i ⟨(s.slot i).serial, .admission, outcome,
                              if outcome = .genuine then none else some tests,
                              sensed.map fun l => ⟨l, (s.slot i).perMille⟩, sensed.isNone,
                              some settings.refillPolicy, none⟩)) ∧
                      (tests.any = true → settings.refillPolicy = .reject →
                        (u.slot i).state = .rejected ∧ (u.slot i).rejectReason = some .refillRejected ∧
                        RefillSeen s u i ∧ RefillMarked s u i ∧
                        LastRaised s.notices u.notices
                          (.verdict i ⟨(s.slot i).serial, .admission, .refillRejected, some tests,
                            sensed.map fun l => ⟨l, (s.slot i).perMille⟩, sensed.isNone, some .reject, none⟩)))))))

/-- The timers. The pause's end takes up a pending SCAN_SET and starts a pass (R155, R156). A flow window's end keeps
its sum as the last window flow, takes it into an armed peak, opens the next window with the setting of that moment, and
raises FLOW_EXCESS when the flow comes above a ceiling that is not 0 (R96 to R98). A wait timer's end takes the waiting
reservation off the list with RESERVATION_EXPIRED, which says whether it was the head of the waiting ones, and what
follows a leaving is done (R145; a RESERVATION_GRANTED then carries a time on the model's clock, log entry 1). A timer
that does not run changes nothing (log entry 3). -/
def Obligations.Timers_expire : Prop :=
  ∀ s : State,
    ((s.sense.scan ≠ .pausing ∨ s.sense.pauseTimer = none) → exec .scanPauseExpiry s = .next s) ∧
    (∀ n list pause, s.sense.scan = .pausing → s.sense.pauseTimer = some n →
      (s.sense.pendingScan = none ∧ list = s.sense.list ∧ pause = s.sense.pause ∨
        s.sense.pendingScan = some ⟨list, pause⟩) →
        exec .scanPauseExpiry s = .next (State.settle { s with sense := { s.sense with
          list := list
          pause := pause
          pendingScan := none
          scan := if list = [] then .pausing else .running
          pauseTimer := none
          position := 0
          passConverted := false } })) ∧
    (∀ c : ChannelId,
      ((s.channel c).state = .idle → exec (.flowWindowExpiry c) s = .next s) ∧
      ((s.channel c).state ≠ .idle → ∀ (v : Volume) (flow : Nat) (exceeds : Bool) (u : State),
        v = (s.channel c).volume → flow = min 281474976710655 v.windowSum →
          (exceeds = true ↔ (s.channel c).settings.flowCeiling ≠ 0 ∧ (s.channel c).settings.flowCeiling < flow) →
          u = { s with channels := s.channels.set c.val { s.channel c with
            flowExcess := exceeds
            volume := { v with
              lastWindowFlow := flow
              lastWindowLength := some v.windowLength
              peakFlow :=
                if v.peakArmed = true ∧ v.peakFlow < v.windowSum then flow else v.peakFlow
              windowSum := 0
              windowLength := (s.channel c).settings.flowWindow } } c.isLt } →
            exec (.flowWindowExpiry c) s = .next
              (if exceeds = true ∧ (s.channel c).flowExcess = false then
                u.raise (.flowExcess c flow (s.channel c).settings.flowCeiling v.windowLength)
              else u)) ∧
      (∀ id, (∀ r, ((s.channel c).reservations.find? fun x => x.id = id) = some r → r.wait = none) →
        exec (.waitTimerExpiry c id) s = .next s) ∧
      (∀ id r, ((s.channel c).reservations.find? fun x => x.id = id) = some r → r.wait ≠ none →
        ∃ u wasHead, exec (.waitTimerExpiry c id) s = .next u.settle ∧ Undisturbed s u ∧
          (wasHead = true ↔ (s.channel c).waiting.head? = some r) ∧
          AfterLeaving (s.raise (.reservationExpired c id r.size wasHead (s.channel c).stall)) u c
            ((s.channel c).reservations.filter fun x => x.id ≠ id)))

/-! ## Laws -/

/-- The laws hold at `State.reset`. -/
def Obligations.Laws_hold_at_reset : Prop :=
  State.reset.noticesLawful ∧ State.reset.permitsLawful ∧ State.reset.Bounded ∧ State.reset.tablesLawful ∧
    State.reset.remaindersLawful ∧ State.reset.totalsLawful

/-- Every step, from any state, keeps the law of the notice queue and ATTN (R198, R199), the law of the PERMIT lines
(R119, R127), that every lane works for its own slots (Table 1-1) and the bounds of failed commits (R112), attempts
(R26, R27), the injected queue (R158) and the rings (R165). -/
def Obligations.Every_step_keeps_the_lines_and_bounds : Prop :=
  ∀ s t : State, step s = .next t →
    (s.noticesLawful → t.noticesLawful) ∧ (s.permitsLawful → t.permitsLawful) ∧ (s.Bounded → t.Bounded)

/-- Every step, from any state, keeps each channel's residue below 32768 and accumulator below 1,000,000 (R85), and its
total charged the sum of charged-to-slots, unattributed and overdraw while the total has not saturated (R87). -/
def Obligations.Every_step_conserves_ink : Prop :=
  ∀ s t : State, step s = .next t →
    (s.remaindersLawful → t.remaindersLawful) ∧ (s.totalsLawful → t.totalsLawful)

/-- Every step, from any state, keeps the windows within the user area with low not above high (R43) and every class in
both Schedule Tables (R37, R39), in force, in every saved copy and in a copy being written (R202, R203). -/
def Obligations.Every_step_keeps_the_tables : Prop :=
  ∀ s t : State, step s = .next t → s.tablesLawful → t.tablesLawful

/-- What no command can do to the keys and the lock (R59, R61 to R65). Only KEY_PROVISION, KEY_CELL_WRITE_DONE,
POLICY_LOCK and the power-on and pin resets change the Key Store. But for those two resets, a provisioned root key
stays, the lock once in force stays in force, and while it is in force the windows and every channel's refill policy
stay. -/
def Obligations.Keys_and_frozen_settings_are_kept : Prop :=
  ∀ (c : Instr) (s t : State), exec c s = .next t → (∀ inputs, c ≠ .powerOnReset inputs ∧ c ≠ .pinReset inputs) →
    ((∀ tag body, c ≠ .keyProvision tag body) → c ≠ .keyCellWriteDone → (∀ tag body, c ≠ .policyLock tag body) →
      t.keys = s.keys) ∧
    (∀ root, s.keys.state = .provisioned root → t.keys.state = .provisioned root) ∧
    (s.keys.policyLock = true →
      t.keys.policyLock = true ∧ t.bus.windows = s.bus.windows ∧
        ∀ d, (t.channel d).settings.refillPolicy = (s.channel d).settings.refillPolicy)
end

