-- ==== Sys2Proof/Laws/State.lean ====
section
/-! SUPPORT. What each update of the state leaves in each field: one lemma per field per update, and what reading a
record gives after one record was changed. -/

namespace Sys2Proof.Machine

/-! ## One item of a vector -/

@[simp] theorem modifyAt_same {α : Type} {n : Nat} (v : Vector α n) (i : Fin n) (f : α → α) :
    (modifyAt v i f)[i.val] = f v[i.val] := by
  simp [modifyAt]

theorem modifyAt_other {α : Type} {n : Nat} (v : Vector α n) (i j : Fin n) (f : α → α) (h : i ≠ j) :
    (modifyAt v i f)[j.val] = v[j.val] := by
  have h' : i.val ≠ j.val := fun e => h (Fin.ext e)
  simp [modifyAt, h']

theorem modifyAt_get {α : Type} {n : Nat} (v : Vector α n) (i j : Fin n) (f : α → α) :
    (modifyAt v i f)[j.val] = if i = j then f v[j.val] else v[j.val] := by
  split
  · rename_i h; subst h; simp
  · rename_i h; exact modifyAt_other v i j f h


/-! ## updSlot -/

@[simp] theorem State.updSlot_pins (s : State) (i : SlotId) (f : SlotRecord → SlotRecord) :
    (s.updSlot i f).pins = s.pins := rfl
@[simp] theorem State.updSlot_host (s : State) (i : SlotId) (f : SlotRecord → SlotRecord) :
    (s.updSlot i f).host = s.host := rfl
@[simp] theorem State.updSlot_notices (s : State) (i : SlotId) (f : SlotRecord → SlotRecord) :
    (s.updSlot i f).notices = s.notices := rfl
@[simp] theorem State.updSlot_cause (s : State) (i : SlotId) (f : SlotRecord → SlotRecord) :
    (s.updSlot i f).cause = s.cause := rfl
@[simp] theorem State.updSlot_preparation (s : State) (i : SlotId) (f : SlotRecord → SlotRecord) :
    (s.updSlot i f).preparation = s.preparation := rfl
@[simp] theorem State.updSlot_store (s : State) (i : SlotId) (f : SlotRecord → SlotRecord) :
    (s.updSlot i f).store = s.store := rfl
@[simp] theorem State.updSlot_slots (s : State) (i : SlotId) (f : SlotRecord → SlotRecord) :
    (s.updSlot i f).slots = modifyAt s.slots i f := rfl
@[simp] theorem State.updSlot_debounce (s : State) (i : SlotId) (f : SlotRecord → SlotRecord) :
    (s.updSlot i f).debounce = s.debounce := rfl
@[simp] theorem State.updSlot_debounceTime (s : State) (i : SlotId) (f : SlotRecord → SlotRecord) :
    (s.updSlot i f).debounceTime = s.debounceTime := rfl
@[simp] theorem State.updSlot_bus (s : State) (i : SlotId) (f : SlotRecord → SlotRecord) :
    (s.updSlot i f).bus = s.bus := rfl
@[simp] theorem State.updSlot_engine (s : State) (i : SlotId) (f : SlotRecord → SlotRecord) :
    (s.updSlot i f).engine = s.engine := rfl
@[simp] theorem State.updSlot_keys (s : State) (i : SlotId) (f : SlotRecord → SlotRecord) :
    (s.updSlot i f).keys = s.keys := rfl
@[simp] theorem State.updSlot_tally (s : State) (i : SlotId) (f : SlotRecord → SlotRecord) :
    (s.updSlot i f).tally = s.tally := rfl
@[simp] theorem State.updSlot_channels (s : State) (i : SlotId) (f : SlotRecord → SlotRecord) :
    (s.updSlot i f).channels = s.channels := rfl
@[simp] theorem State.updSlot_commits (s : State) (i : SlotId) (f : SlotRecord → SlotRecord) :
    (s.updSlot i f).commits = s.commits := rfl
@[simp] theorem State.updSlot_sense (s : State) (i : SlotId) (f : SlotRecord → SlotRecord) :
    (s.updSlot i f).sense = s.sense := rfl
@[simp] theorem State.updSlot_history (s : State) (i : SlotId) (f : SlotRecord → SlotRecord) :
    (s.updSlot i f).history = s.history := rfl
@[simp] theorem State.updSlot_clockMs (s : State) (i : SlotId) (f : SlotRecord → SlotRecord) :
    (s.updSlot i f).clockMs = s.clockMs := rfl
@[simp] theorem State.updSlot_nonceDraws (s : State) (i : SlotId) (f : SlotRecord → SlotRecord) :
    (s.updSlot i f).nonceDraws = s.nonceDraws := rfl
@[simp] theorem State.updSlot_freeDraws (s : State) (i : SlotId) (f : SlotRecord → SlotRecord) :
    (s.updSlot i f).freeDraws = s.freeDraws := rfl
@[simp] theorem State.updSlot_joinStamps (s : State) (i : SlotId) (f : SlotRecord → SlotRecord) :
    (s.updSlot i f).joinStamps = s.joinStamps := rfl
@[simp] theorem State.updSlot_pending (s : State) (i : SlotId) (f : SlotRecord → SlotRecord) :
    (s.updSlot i f).pending = s.pending := rfl

/-! ## updChannel -/

@[simp] theorem State.updChannel_pins (s : State) (c : ChannelId) (f : Channel → Channel) :
    (s.updChannel c f).pins = s.pins := rfl
@[simp] theorem State.updChannel_host (s : State) (c : ChannelId) (f : Channel → Channel) :
    (s.updChannel c f).host = s.host := rfl
@[simp] theorem State.updChannel_notices (s : State) (c : ChannelId) (f : Channel → Channel) :
    (s.updChannel c f).notices = s.notices := rfl
@[simp] theorem State.updChannel_cause (s : State) (c : ChannelId) (f : Channel → Channel) :
    (s.updChannel c f).cause = s.cause := rfl
@[simp] theorem State.updChannel_preparation (s : State) (c : ChannelId) (f : Channel → Channel) :
    (s.updChannel c f).preparation = s.preparation := rfl
@[simp] theorem State.updChannel_store (s : State) (c : ChannelId) (f : Channel → Channel) :
    (s.updChannel c f).store = s.store := rfl
@[simp] theorem State.updChannel_slots (s : State) (c : ChannelId) (f : Channel → Channel) :
    (s.updChannel c f).slots = s.slots := rfl
@[simp] theorem State.updChannel_debounce (s : State) (c : ChannelId) (f : Channel → Channel) :
    (s.updChannel c f).debounce = s.debounce := rfl
@[simp] theorem State.updChannel_debounceTime (s : State) (c : ChannelId) (f : Channel → Channel) :
    (s.updChannel c f).debounceTime = s.debounceTime := rfl
@[simp] theorem State.updChannel_bus (s : State) (c : ChannelId) (f : Channel → Channel) :
    (s.updChannel c f).bus = s.bus := rfl
@[simp] theorem State.updChannel_engine (s : State) (c : ChannelId) (f : Channel → Channel) :
    (s.updChannel c f).engine = s.engine := rfl
@[simp] theorem State.updChannel_keys (s : State) (c : ChannelId) (f : Channel → Channel) :
    (s.updChannel c f).keys = s.keys := rfl
@[simp] theorem State.updChannel_tally (s : State) (c : ChannelId) (f : Channel → Channel) :
    (s.updChannel c f).tally = s.tally := rfl
@[simp] theorem State.updChannel_channels (s : State) (c : ChannelId) (f : Channel → Channel) :
    (s.updChannel c f).channels = modifyAt s.channels c f := rfl
@[simp] theorem State.updChannel_commits (s : State) (c : ChannelId) (f : Channel → Channel) :
    (s.updChannel c f).commits = s.commits := rfl
@[simp] theorem State.updChannel_sense (s : State) (c : ChannelId) (f : Channel → Channel) :
    (s.updChannel c f).sense = s.sense := rfl
@[simp] theorem State.updChannel_history (s : State) (c : ChannelId) (f : Channel → Channel) :
    (s.updChannel c f).history = s.history := rfl
@[simp] theorem State.updChannel_clockMs (s : State) (c : ChannelId) (f : Channel → Channel) :
    (s.updChannel c f).clockMs = s.clockMs := rfl
@[simp] theorem State.updChannel_nonceDraws (s : State) (c : ChannelId) (f : Channel → Channel) :
    (s.updChannel c f).nonceDraws = s.nonceDraws := rfl
@[simp] theorem State.updChannel_freeDraws (s : State) (c : ChannelId) (f : Channel → Channel) :
    (s.updChannel c f).freeDraws = s.freeDraws := rfl
@[simp] theorem State.updChannel_joinStamps (s : State) (c : ChannelId) (f : Channel → Channel) :
    (s.updChannel c f).joinStamps = s.joinStamps := rfl
@[simp] theorem State.updChannel_pending (s : State) (c : ChannelId) (f : Channel → Channel) :
    (s.updChannel c f).pending = s.pending := rfl

/-! ## updVolume -/

@[simp] theorem State.updVolume_pins (s : State) (c : ChannelId) (f : Volume → Volume) :
    (s.updVolume c f).pins = s.pins := rfl
@[simp] theorem State.updVolume_host (s : State) (c : ChannelId) (f : Volume → Volume) :
    (s.updVolume c f).host = s.host := rfl
@[simp] theorem State.updVolume_notices (s : State) (c : ChannelId) (f : Volume → Volume) :
    (s.updVolume c f).notices = s.notices := rfl
@[simp] theorem State.updVolume_cause (s : State) (c : ChannelId) (f : Volume → Volume) :
    (s.updVolume c f).cause = s.cause := rfl
@[simp] theorem State.updVolume_preparation (s : State) (c : ChannelId) (f : Volume → Volume) :
    (s.updVolume c f).preparation = s.preparation := rfl
@[simp] theorem State.updVolume_store (s : State) (c : ChannelId) (f : Volume → Volume) :
    (s.updVolume c f).store = s.store := rfl
@[simp] theorem State.updVolume_slots (s : State) (c : ChannelId) (f : Volume → Volume) :
    (s.updVolume c f).slots = s.slots := rfl
@[simp] theorem State.updVolume_debounce (s : State) (c : ChannelId) (f : Volume → Volume) :
    (s.updVolume c f).debounce = s.debounce := rfl
@[simp] theorem State.updVolume_debounceTime (s : State) (c : ChannelId) (f : Volume → Volume) :
    (s.updVolume c f).debounceTime = s.debounceTime := rfl
@[simp] theorem State.updVolume_bus (s : State) (c : ChannelId) (f : Volume → Volume) :
    (s.updVolume c f).bus = s.bus := rfl
@[simp] theorem State.updVolume_engine (s : State) (c : ChannelId) (f : Volume → Volume) :
    (s.updVolume c f).engine = s.engine := rfl
@[simp] theorem State.updVolume_keys (s : State) (c : ChannelId) (f : Volume → Volume) :
    (s.updVolume c f).keys = s.keys := rfl
@[simp] theorem State.updVolume_tally (s : State) (c : ChannelId) (f : Volume → Volume) :
    (s.updVolume c f).tally = s.tally := rfl
@[simp] theorem State.updVolume_channels (s : State) (c : ChannelId) (f : Volume → Volume) :
    (s.updVolume c f).channels = modifyAt s.channels c fun ch => { ch with volume := f ch.volume } := rfl
@[simp] theorem State.updVolume_commits (s : State) (c : ChannelId) (f : Volume → Volume) :
    (s.updVolume c f).commits = s.commits := rfl
@[simp] theorem State.updVolume_sense (s : State) (c : ChannelId) (f : Volume → Volume) :
    (s.updVolume c f).sense = s.sense := rfl
@[simp] theorem State.updVolume_history (s : State) (c : ChannelId) (f : Volume → Volume) :
    (s.updVolume c f).history = s.history := rfl
@[simp] theorem State.updVolume_clockMs (s : State) (c : ChannelId) (f : Volume → Volume) :
    (s.updVolume c f).clockMs = s.clockMs := rfl
@[simp] theorem State.updVolume_nonceDraws (s : State) (c : ChannelId) (f : Volume → Volume) :
    (s.updVolume c f).nonceDraws = s.nonceDraws := rfl
@[simp] theorem State.updVolume_freeDraws (s : State) (c : ChannelId) (f : Volume → Volume) :
    (s.updVolume c f).freeDraws = s.freeDraws := rfl
@[simp] theorem State.updVolume_joinStamps (s : State) (c : ChannelId) (f : Volume → Volume) :
    (s.updVolume c f).joinStamps = s.joinStamps := rfl
@[simp] theorem State.updVolume_pending (s : State) (c : ChannelId) (f : Volume → Volume) :
    (s.updVolume c f).pending = s.pending := rfl

/-! ## updCommit -/

@[simp] theorem State.updCommit_pins (s : State) (i : SlotId) (f : CommitState → CommitState) :
    (s.updCommit i f).pins = s.pins := rfl
@[simp] theorem State.updCommit_host (s : State) (i : SlotId) (f : CommitState → CommitState) :
    (s.updCommit i f).host = s.host := rfl
@[simp] theorem State.updCommit_notices (s : State) (i : SlotId) (f : CommitState → CommitState) :
    (s.updCommit i f).notices = s.notices := rfl
@[simp] theorem State.updCommit_cause (s : State) (i : SlotId) (f : CommitState → CommitState) :
    (s.updCommit i f).cause = s.cause := rfl
@[simp] theorem State.updCommit_preparation (s : State) (i : SlotId) (f : CommitState → CommitState) :
    (s.updCommit i f).preparation = s.preparation := rfl
@[simp] theorem State.updCommit_store (s : State) (i : SlotId) (f : CommitState → CommitState) :
    (s.updCommit i f).store = s.store := rfl
@[simp] theorem State.updCommit_slots (s : State) (i : SlotId) (f : CommitState → CommitState) :
    (s.updCommit i f).slots = s.slots := rfl
@[simp] theorem State.updCommit_debounce (s : State) (i : SlotId) (f : CommitState → CommitState) :
    (s.updCommit i f).debounce = s.debounce := rfl
@[simp] theorem State.updCommit_debounceTime (s : State) (i : SlotId) (f : CommitState → CommitState) :
    (s.updCommit i f).debounceTime = s.debounceTime := rfl
@[simp] theorem State.updCommit_bus (s : State) (i : SlotId) (f : CommitState → CommitState) :
    (s.updCommit i f).bus = s.bus := rfl
@[simp] theorem State.updCommit_engine (s : State) (i : SlotId) (f : CommitState → CommitState) :
    (s.updCommit i f).engine = s.engine := rfl
@[simp] theorem State.updCommit_keys (s : State) (i : SlotId) (f : CommitState → CommitState) :
    (s.updCommit i f).keys = s.keys := rfl
@[simp] theorem State.updCommit_tally (s : State) (i : SlotId) (f : CommitState → CommitState) :
    (s.updCommit i f).tally = s.tally := rfl
@[simp] theorem State.updCommit_channels (s : State) (i : SlotId) (f : CommitState → CommitState) :
    (s.updCommit i f).channels = s.channels := rfl
@[simp] theorem State.updCommit_commits (s : State) (i : SlotId) (f : CommitState → CommitState) :
    (s.updCommit i f).commits = modifyAt s.commits i f := rfl
@[simp] theorem State.updCommit_sense (s : State) (i : SlotId) (f : CommitState → CommitState) :
    (s.updCommit i f).sense = s.sense := rfl
@[simp] theorem State.updCommit_history (s : State) (i : SlotId) (f : CommitState → CommitState) :
    (s.updCommit i f).history = s.history := rfl
@[simp] theorem State.updCommit_clockMs (s : State) (i : SlotId) (f : CommitState → CommitState) :
    (s.updCommit i f).clockMs = s.clockMs := rfl
@[simp] theorem State.updCommit_nonceDraws (s : State) (i : SlotId) (f : CommitState → CommitState) :
    (s.updCommit i f).nonceDraws = s.nonceDraws := rfl
@[simp] theorem State.updCommit_freeDraws (s : State) (i : SlotId) (f : CommitState → CommitState) :
    (s.updCommit i f).freeDraws = s.freeDraws := rfl
@[simp] theorem State.updCommit_joinStamps (s : State) (i : SlotId) (f : CommitState → CommitState) :
    (s.updCommit i f).joinStamps = s.joinStamps := rfl
@[simp] theorem State.updCommit_pending (s : State) (i : SlotId) (f : CommitState → CommitState) :
    (s.updCommit i f).pending = s.pending := rfl

/-! ## updLane -/

@[simp] theorem State.updLane_pins (s : State) (l : LaneId) (f : Lane → Lane) :
    (s.updLane l f).pins = s.pins := rfl
@[simp] theorem State.updLane_host (s : State) (l : LaneId) (f : Lane → Lane) :
    (s.updLane l f).host = s.host := rfl
@[simp] theorem State.updLane_notices (s : State) (l : LaneId) (f : Lane → Lane) :
    (s.updLane l f).notices = s.notices := rfl
@[simp] theorem State.updLane_cause (s : State) (l : LaneId) (f : Lane → Lane) :
    (s.updLane l f).cause = s.cause := rfl
@[simp] theorem State.updLane_preparation (s : State) (l : LaneId) (f : Lane → Lane) :
    (s.updLane l f).preparation = s.preparation := rfl
@[simp] theorem State.updLane_store (s : State) (l : LaneId) (f : Lane → Lane) :
    (s.updLane l f).store = s.store := rfl
@[simp] theorem State.updLane_slots (s : State) (l : LaneId) (f : Lane → Lane) :
    (s.updLane l f).slots = s.slots := rfl
@[simp] theorem State.updLane_debounce (s : State) (l : LaneId) (f : Lane → Lane) :
    (s.updLane l f).debounce = s.debounce := rfl
@[simp] theorem State.updLane_debounceTime (s : State) (l : LaneId) (f : Lane → Lane) :
    (s.updLane l f).debounceTime = s.debounceTime := rfl
@[simp] theorem State.updLane_bus (s : State) (l : LaneId) (f : Lane → Lane) :
    (s.updLane l f).bus = { s.bus with lanes := modifyAt s.bus.lanes l f } := rfl
@[simp] theorem State.updLane_engine (s : State) (l : LaneId) (f : Lane → Lane) :
    (s.updLane l f).engine = s.engine := rfl
@[simp] theorem State.updLane_keys (s : State) (l : LaneId) (f : Lane → Lane) :
    (s.updLane l f).keys = s.keys := rfl
@[simp] theorem State.updLane_tally (s : State) (l : LaneId) (f : Lane → Lane) :
    (s.updLane l f).tally = s.tally := rfl
@[simp] theorem State.updLane_channels (s : State) (l : LaneId) (f : Lane → Lane) :
    (s.updLane l f).channels = s.channels := rfl
@[simp] theorem State.updLane_commits (s : State) (l : LaneId) (f : Lane → Lane) :
    (s.updLane l f).commits = s.commits := rfl
@[simp] theorem State.updLane_sense (s : State) (l : LaneId) (f : Lane → Lane) :
    (s.updLane l f).sense = s.sense := rfl
@[simp] theorem State.updLane_history (s : State) (l : LaneId) (f : Lane → Lane) :
    (s.updLane l f).history = s.history := rfl
@[simp] theorem State.updLane_clockMs (s : State) (l : LaneId) (f : Lane → Lane) :
    (s.updLane l f).clockMs = s.clockMs := rfl
@[simp] theorem State.updLane_nonceDraws (s : State) (l : LaneId) (f : Lane → Lane) :
    (s.updLane l f).nonceDraws = s.nonceDraws := rfl
@[simp] theorem State.updLane_freeDraws (s : State) (l : LaneId) (f : Lane → Lane) :
    (s.updLane l f).freeDraws = s.freeDraws := rfl
@[simp] theorem State.updLane_joinStamps (s : State) (l : LaneId) (f : Lane → Lane) :
    (s.updLane l f).joinStamps = s.joinStamps := rfl
@[simp] theorem State.updLane_pending (s : State) (l : LaneId) (f : Lane → Lane) :
    (s.updLane l f).pending = s.pending := rfl

/-! ## updSense -/

@[simp] theorem State.updSense_pins (s : State) (f : LevelSense → LevelSense) :
    (s.updSense f).pins = s.pins := rfl
@[simp] theorem State.updSense_host (s : State) (f : LevelSense → LevelSense) :
    (s.updSense f).host = s.host := rfl
@[simp] theorem State.updSense_notices (s : State) (f : LevelSense → LevelSense) :
    (s.updSense f).notices = s.notices := rfl
@[simp] theorem State.updSense_cause (s : State) (f : LevelSense → LevelSense) :
    (s.updSense f).cause = s.cause := rfl
@[simp] theorem State.updSense_preparation (s : State) (f : LevelSense → LevelSense) :
    (s.updSense f).preparation = s.preparation := rfl
@[simp] theorem State.updSense_store (s : State) (f : LevelSense → LevelSense) :
    (s.updSense f).store = s.store := rfl
@[simp] theorem State.updSense_slots (s : State) (f : LevelSense → LevelSense) :
    (s.updSense f).slots = s.slots := rfl
@[simp] theorem State.updSense_debounce (s : State) (f : LevelSense → LevelSense) :
    (s.updSense f).debounce = s.debounce := rfl
@[simp] theorem State.updSense_debounceTime (s : State) (f : LevelSense → LevelSense) :
    (s.updSense f).debounceTime = s.debounceTime := rfl
@[simp] theorem State.updSense_bus (s : State) (f : LevelSense → LevelSense) :
    (s.updSense f).bus = s.bus := rfl
@[simp] theorem State.updSense_engine (s : State) (f : LevelSense → LevelSense) :
    (s.updSense f).engine = s.engine := rfl
@[simp] theorem State.updSense_keys (s : State) (f : LevelSense → LevelSense) :
    (s.updSense f).keys = s.keys := rfl
@[simp] theorem State.updSense_tally (s : State) (f : LevelSense → LevelSense) :
    (s.updSense f).tally = s.tally := rfl
@[simp] theorem State.updSense_channels (s : State) (f : LevelSense → LevelSense) :
    (s.updSense f).channels = s.channels := rfl
@[simp] theorem State.updSense_commits (s : State) (f : LevelSense → LevelSense) :
    (s.updSense f).commits = s.commits := rfl
@[simp] theorem State.updSense_sense (s : State) (f : LevelSense → LevelSense) :
    (s.updSense f).sense = f s.sense := rfl
@[simp] theorem State.updSense_history (s : State) (f : LevelSense → LevelSense) :
    (s.updSense f).history = s.history := rfl
@[simp] theorem State.updSense_clockMs (s : State) (f : LevelSense → LevelSense) :
    (s.updSense f).clockMs = s.clockMs := rfl
@[simp] theorem State.updSense_nonceDraws (s : State) (f : LevelSense → LevelSense) :
    (s.updSense f).nonceDraws = s.nonceDraws := rfl
@[simp] theorem State.updSense_freeDraws (s : State) (f : LevelSense → LevelSense) :
    (s.updSense f).freeDraws = s.freeDraws := rfl
@[simp] theorem State.updSense_joinStamps (s : State) (f : LevelSense → LevelSense) :
    (s.updSense f).joinStamps = s.joinStamps := rfl
@[simp] theorem State.updSense_pending (s : State) (f : LevelSense → LevelSense) :
    (s.updSense f).pending = s.pending := rfl

/-! ## updSlotSense -/

@[simp] theorem State.updSlotSense_pins (s : State) (i : SlotId) (f : SlotSense → SlotSense) :
    (s.updSlotSense i f).pins = s.pins := rfl
@[simp] theorem State.updSlotSense_host (s : State) (i : SlotId) (f : SlotSense → SlotSense) :
    (s.updSlotSense i f).host = s.host := rfl
@[simp] theorem State.updSlotSense_notices (s : State) (i : SlotId) (f : SlotSense → SlotSense) :
    (s.updSlotSense i f).notices = s.notices := rfl
@[simp] theorem State.updSlotSense_cause (s : State) (i : SlotId) (f : SlotSense → SlotSense) :
    (s.updSlotSense i f).cause = s.cause := rfl
@[simp] theorem State.updSlotSense_preparation (s : State) (i : SlotId) (f : SlotSense → SlotSense) :
    (s.updSlotSense i f).preparation = s.preparation := rfl
@[simp] theorem State.updSlotSense_store (s : State) (i : SlotId) (f : SlotSense → SlotSense) :
    (s.updSlotSense i f).store = s.store := rfl
@[simp] theorem State.updSlotSense_slots (s : State) (i : SlotId) (f : SlotSense → SlotSense) :
    (s.updSlotSense i f).slots = s.slots := rfl
@[simp] theorem State.updSlotSense_debounce (s : State) (i : SlotId) (f : SlotSense → SlotSense) :
    (s.updSlotSense i f).debounce = s.debounce := rfl
@[simp] theorem State.updSlotSense_debounceTime (s : State) (i : SlotId) (f : SlotSense → SlotSense) :
    (s.updSlotSense i f).debounceTime = s.debounceTime := rfl
@[simp] theorem State.updSlotSense_bus (s : State) (i : SlotId) (f : SlotSense → SlotSense) :
    (s.updSlotSense i f).bus = s.bus := rfl
@[simp] theorem State.updSlotSense_engine (s : State) (i : SlotId) (f : SlotSense → SlotSense) :
    (s.updSlotSense i f).engine = s.engine := rfl
@[simp] theorem State.updSlotSense_keys (s : State) (i : SlotId) (f : SlotSense → SlotSense) :
    (s.updSlotSense i f).keys = s.keys := rfl
@[simp] theorem State.updSlotSense_tally (s : State) (i : SlotId) (f : SlotSense → SlotSense) :
    (s.updSlotSense i f).tally = s.tally := rfl
@[simp] theorem State.updSlotSense_channels (s : State) (i : SlotId) (f : SlotSense → SlotSense) :
    (s.updSlotSense i f).channels = s.channels := rfl
@[simp] theorem State.updSlotSense_commits (s : State) (i : SlotId) (f : SlotSense → SlotSense) :
    (s.updSlotSense i f).commits = s.commits := rfl
@[simp] theorem State.updSlotSense_sense (s : State) (i : SlotId) (f : SlotSense → SlotSense) :
    (s.updSlotSense i f).sense = { s.sense with slots := modifyAt s.sense.slots i f } := rfl
@[simp] theorem State.updSlotSense_history (s : State) (i : SlotId) (f : SlotSense → SlotSense) :
    (s.updSlotSense i f).history = s.history := rfl
@[simp] theorem State.updSlotSense_clockMs (s : State) (i : SlotId) (f : SlotSense → SlotSense) :
    (s.updSlotSense i f).clockMs = s.clockMs := rfl
@[simp] theorem State.updSlotSense_nonceDraws (s : State) (i : SlotId) (f : SlotSense → SlotSense) :
    (s.updSlotSense i f).nonceDraws = s.nonceDraws := rfl
@[simp] theorem State.updSlotSense_freeDraws (s : State) (i : SlotId) (f : SlotSense → SlotSense) :
    (s.updSlotSense i f).freeDraws = s.freeDraws := rfl
@[simp] theorem State.updSlotSense_joinStamps (s : State) (i : SlotId) (f : SlotSense → SlotSense) :
    (s.updSlotSense i f).joinStamps = s.joinStamps := rfl
@[simp] theorem State.updSlotSense_pending (s : State) (i : SlotId) (f : SlotSense → SlotSense) :
    (s.updSlotSense i f).pending = s.pending := rfl

/-! ## updHistory -/

@[simp] theorem State.updHistory_pins (s : State) (f : History → History) :
    (s.updHistory f).pins = s.pins := rfl
@[simp] theorem State.updHistory_host (s : State) (f : History → History) :
    (s.updHistory f).host = s.host := rfl
@[simp] theorem State.updHistory_notices (s : State) (f : History → History) :
    (s.updHistory f).notices = s.notices := rfl
@[simp] theorem State.updHistory_cause (s : State) (f : History → History) :
    (s.updHistory f).cause = s.cause := rfl
@[simp] theorem State.updHistory_preparation (s : State) (f : History → History) :
    (s.updHistory f).preparation = s.preparation := rfl
@[simp] theorem State.updHistory_store (s : State) (f : History → History) :
    (s.updHistory f).store = s.store := rfl
@[simp] theorem State.updHistory_slots (s : State) (f : History → History) :
    (s.updHistory f).slots = s.slots := rfl
@[simp] theorem State.updHistory_debounce (s : State) (f : History → History) :
    (s.updHistory f).debounce = s.debounce := rfl
@[simp] theorem State.updHistory_debounceTime (s : State) (f : History → History) :
    (s.updHistory f).debounceTime = s.debounceTime := rfl
@[simp] theorem State.updHistory_bus (s : State) (f : History → History) :
    (s.updHistory f).bus = s.bus := rfl
@[simp] theorem State.updHistory_engine (s : State) (f : History → History) :
    (s.updHistory f).engine = s.engine := rfl
@[simp] theorem State.updHistory_keys (s : State) (f : History → History) :
    (s.updHistory f).keys = s.keys := rfl
@[simp] theorem State.updHistory_tally (s : State) (f : History → History) :
    (s.updHistory f).tally = s.tally := rfl
@[simp] theorem State.updHistory_channels (s : State) (f : History → History) :
    (s.updHistory f).channels = s.channels := rfl
@[simp] theorem State.updHistory_commits (s : State) (f : History → History) :
    (s.updHistory f).commits = s.commits := rfl
@[simp] theorem State.updHistory_sense (s : State) (f : History → History) :
    (s.updHistory f).sense = s.sense := rfl
@[simp] theorem State.updHistory_history (s : State) (f : History → History) :
    (s.updHistory f).history = f s.history := rfl
@[simp] theorem State.updHistory_clockMs (s : State) (f : History → History) :
    (s.updHistory f).clockMs = s.clockMs := rfl
@[simp] theorem State.updHistory_nonceDraws (s : State) (f : History → History) :
    (s.updHistory f).nonceDraws = s.nonceDraws := rfl
@[simp] theorem State.updHistory_freeDraws (s : State) (f : History → History) :
    (s.updHistory f).freeDraws = s.freeDraws := rfl
@[simp] theorem State.updHistory_joinStamps (s : State) (f : History → History) :
    (s.updHistory f).joinStamps = s.joinStamps := rfl
@[simp] theorem State.updHistory_pending (s : State) (f : History → History) :
    (s.updHistory f).pending = s.pending := rfl

/-! ## updEngine -/

@[simp] theorem State.updEngine_pins (s : State) (f : Engine → Engine) :
    (s.updEngine f).pins = s.pins := rfl
@[simp] theorem State.updEngine_host (s : State) (f : Engine → Engine) :
    (s.updEngine f).host = s.host := rfl
@[simp] theorem State.updEngine_notices (s : State) (f : Engine → Engine) :
    (s.updEngine f).notices = s.notices := rfl
@[simp] theorem State.updEngine_cause (s : State) (f : Engine → Engine) :
    (s.updEngine f).cause = s.cause := rfl
@[simp] theorem State.updEngine_preparation (s : State) (f : Engine → Engine) :
    (s.updEngine f).preparation = s.preparation := rfl
@[simp] theorem State.updEngine_store (s : State) (f : Engine → Engine) :
    (s.updEngine f).store = s.store := rfl
@[simp] theorem State.updEngine_slots (s : State) (f : Engine → Engine) :
    (s.updEngine f).slots = s.slots := rfl
@[simp] theorem State.updEngine_debounce (s : State) (f : Engine → Engine) :
    (s.updEngine f).debounce = s.debounce := rfl
@[simp] theorem State.updEngine_debounceTime (s : State) (f : Engine → Engine) :
    (s.updEngine f).debounceTime = s.debounceTime := rfl
@[simp] theorem State.updEngine_bus (s : State) (f : Engine → Engine) :
    (s.updEngine f).bus = s.bus := rfl
@[simp] theorem State.updEngine_engine (s : State) (f : Engine → Engine) :
    (s.updEngine f).engine = f s.engine := rfl
@[simp] theorem State.updEngine_keys (s : State) (f : Engine → Engine) :
    (s.updEngine f).keys = s.keys := rfl
@[simp] theorem State.updEngine_tally (s : State) (f : Engine → Engine) :
    (s.updEngine f).tally = s.tally := rfl
@[simp] theorem State.updEngine_channels (s : State) (f : Engine → Engine) :
    (s.updEngine f).channels = s.channels := rfl
@[simp] theorem State.updEngine_commits (s : State) (f : Engine → Engine) :
    (s.updEngine f).commits = s.commits := rfl
@[simp] theorem State.updEngine_sense (s : State) (f : Engine → Engine) :
    (s.updEngine f).sense = s.sense := rfl
@[simp] theorem State.updEngine_history (s : State) (f : Engine → Engine) :
    (s.updEngine f).history = s.history := rfl
@[simp] theorem State.updEngine_clockMs (s : State) (f : Engine → Engine) :
    (s.updEngine f).clockMs = s.clockMs := rfl
@[simp] theorem State.updEngine_nonceDraws (s : State) (f : Engine → Engine) :
    (s.updEngine f).nonceDraws = s.nonceDraws := rfl
@[simp] theorem State.updEngine_freeDraws (s : State) (f : Engine → Engine) :
    (s.updEngine f).freeDraws = s.freeDraws := rfl
@[simp] theorem State.updEngine_joinStamps (s : State) (f : Engine → Engine) :
    (s.updEngine f).joinStamps = s.joinStamps := rfl
@[simp] theorem State.updEngine_pending (s : State) (f : Engine → Engine) :
    (s.updEngine f).pending = s.pending := rfl

/-! ## updHost -/

@[simp] theorem State.updHost_pins (s : State) (f : HostLink → HostLink) :
    (s.updHost f).pins = s.pins := rfl
@[simp] theorem State.updHost_host (s : State) (f : HostLink → HostLink) :
    (s.updHost f).host = f s.host := rfl
@[simp] theorem State.updHost_notices (s : State) (f : HostLink → HostLink) :
    (s.updHost f).notices = s.notices := rfl
@[simp] theorem State.updHost_cause (s : State) (f : HostLink → HostLink) :
    (s.updHost f).cause = s.cause := rfl
@[simp] theorem State.updHost_preparation (s : State) (f : HostLink → HostLink) :
    (s.updHost f).preparation = s.preparation := rfl
@[simp] theorem State.updHost_store (s : State) (f : HostLink → HostLink) :
    (s.updHost f).store = s.store := rfl
@[simp] theorem State.updHost_slots (s : State) (f : HostLink → HostLink) :
    (s.updHost f).slots = s.slots := rfl
@[simp] theorem State.updHost_debounce (s : State) (f : HostLink → HostLink) :
    (s.updHost f).debounce = s.debounce := rfl
@[simp] theorem State.updHost_debounceTime (s : State) (f : HostLink → HostLink) :
    (s.updHost f).debounceTime = s.debounceTime := rfl
@[simp] theorem State.updHost_bus (s : State) (f : HostLink → HostLink) :
    (s.updHost f).bus = s.bus := rfl
@[simp] theorem State.updHost_engine (s : State) (f : HostLink → HostLink) :
    (s.updHost f).engine = s.engine := rfl
@[simp] theorem State.updHost_keys (s : State) (f : HostLink → HostLink) :
    (s.updHost f).keys = s.keys := rfl
@[simp] theorem State.updHost_tally (s : State) (f : HostLink → HostLink) :
    (s.updHost f).tally = s.tally := rfl
@[simp] theorem State.updHost_channels (s : State) (f : HostLink → HostLink) :
    (s.updHost f).channels = s.channels := rfl
@[simp] theorem State.updHost_commits (s : State) (f : HostLink → HostLink) :
    (s.updHost f).commits = s.commits := rfl
@[simp] theorem State.updHost_sense (s : State) (f : HostLink → HostLink) :
    (s.updHost f).sense = s.sense := rfl
@[simp] theorem State.updHost_history (s : State) (f : HostLink → HostLink) :
    (s.updHost f).history = s.history := rfl
@[simp] theorem State.updHost_clockMs (s : State) (f : HostLink → HostLink) :
    (s.updHost f).clockMs = s.clockMs := rfl
@[simp] theorem State.updHost_nonceDraws (s : State) (f : HostLink → HostLink) :
    (s.updHost f).nonceDraws = s.nonceDraws := rfl
@[simp] theorem State.updHost_freeDraws (s : State) (f : HostLink → HostLink) :
    (s.updHost f).freeDraws = s.freeDraws := rfl
@[simp] theorem State.updHost_joinStamps (s : State) (f : HostLink → HostLink) :
    (s.updHost f).joinStamps = s.joinStamps := rfl
@[simp] theorem State.updHost_pending (s : State) (f : HostLink → HostLink) :
    (s.updHost f).pending = s.pending := rfl

/-! ## updTally -/

@[simp] theorem State.updTally_pins (s : State) (f : Tally → Tally) :
    (s.updTally f).pins = s.pins := rfl
@[simp] theorem State.updTally_host (s : State) (f : Tally → Tally) :
    (s.updTally f).host = s.host := rfl
@[simp] theorem State.updTally_notices (s : State) (f : Tally → Tally) :
    (s.updTally f).notices = s.notices := rfl
@[simp] theorem State.updTally_cause (s : State) (f : Tally → Tally) :
    (s.updTally f).cause = s.cause := rfl
@[simp] theorem State.updTally_preparation (s : State) (f : Tally → Tally) :
    (s.updTally f).preparation = s.preparation := rfl
@[simp] theorem State.updTally_store (s : State) (f : Tally → Tally) :
    (s.updTally f).store = s.store := rfl
@[simp] theorem State.updTally_slots (s : State) (f : Tally → Tally) :
    (s.updTally f).slots = s.slots := rfl
@[simp] theorem State.updTally_debounce (s : State) (f : Tally → Tally) :
    (s.updTally f).debounce = s.debounce := rfl
@[simp] theorem State.updTally_debounceTime (s : State) (f : Tally → Tally) :
    (s.updTally f).debounceTime = s.debounceTime := rfl
@[simp] theorem State.updTally_bus (s : State) (f : Tally → Tally) :
    (s.updTally f).bus = s.bus := rfl
@[simp] theorem State.updTally_engine (s : State) (f : Tally → Tally) :
    (s.updTally f).engine = s.engine := rfl
@[simp] theorem State.updTally_keys (s : State) (f : Tally → Tally) :
    (s.updTally f).keys = s.keys := rfl
@[simp] theorem State.updTally_tally (s : State) (f : Tally → Tally) :
    (s.updTally f).tally = f s.tally := rfl
@[simp] theorem State.updTally_channels (s : State) (f : Tally → Tally) :
    (s.updTally f).channels = s.channels := rfl
@[simp] theorem State.updTally_commits (s : State) (f : Tally → Tally) :
    (s.updTally f).commits = s.commits := rfl
@[simp] theorem State.updTally_sense (s : State) (f : Tally → Tally) :
    (s.updTally f).sense = s.sense := rfl
@[simp] theorem State.updTally_history (s : State) (f : Tally → Tally) :
    (s.updTally f).history = s.history := rfl
@[simp] theorem State.updTally_clockMs (s : State) (f : Tally → Tally) :
    (s.updTally f).clockMs = s.clockMs := rfl
@[simp] theorem State.updTally_nonceDraws (s : State) (f : Tally → Tally) :
    (s.updTally f).nonceDraws = s.nonceDraws := rfl
@[simp] theorem State.updTally_freeDraws (s : State) (f : Tally → Tally) :
    (s.updTally f).freeDraws = s.freeDraws := rfl
@[simp] theorem State.updTally_joinStamps (s : State) (f : Tally → Tally) :
    (s.updTally f).joinStamps = s.joinStamps := rfl
@[simp] theorem State.updTally_pending (s : State) (f : Tally → Tally) :
    (s.updTally f).pending = s.pending := rfl

/-! ## raise -/

@[simp] theorem State.raise_pins (s : State) (n : Notice) :
    (s.raise n).pins = s.pins := rfl
@[simp] theorem State.raise_host (s : State) (n : Notice) :
    (s.raise n).host = s.host := rfl
@[simp] theorem State.raise_notices (s : State) (n : Notice) :
    (s.raise n).notices = s.notices.raise n := rfl
@[simp] theorem State.raise_cause (s : State) (n : Notice) :
    (s.raise n).cause = s.cause := rfl
@[simp] theorem State.raise_preparation (s : State) (n : Notice) :
    (s.raise n).preparation = s.preparation := rfl
@[simp] theorem State.raise_store (s : State) (n : Notice) :
    (s.raise n).store = s.store := rfl
@[simp] theorem State.raise_slots (s : State) (n : Notice) :
    (s.raise n).slots = s.slots := rfl
@[simp] theorem State.raise_debounce (s : State) (n : Notice) :
    (s.raise n).debounce = s.debounce := rfl
@[simp] theorem State.raise_debounceTime (s : State) (n : Notice) :
    (s.raise n).debounceTime = s.debounceTime := rfl
@[simp] theorem State.raise_bus (s : State) (n : Notice) :
    (s.raise n).bus = s.bus := rfl
@[simp] theorem State.raise_engine (s : State) (n : Notice) :
    (s.raise n).engine = s.engine := rfl
@[simp] theorem State.raise_keys (s : State) (n : Notice) :
    (s.raise n).keys = s.keys := rfl
@[simp] theorem State.raise_tally (s : State) (n : Notice) :
    (s.raise n).tally = s.tally := rfl
@[simp] theorem State.raise_channels (s : State) (n : Notice) :
    (s.raise n).channels = s.channels := rfl
@[simp] theorem State.raise_commits (s : State) (n : Notice) :
    (s.raise n).commits = s.commits := rfl
@[simp] theorem State.raise_sense (s : State) (n : Notice) :
    (s.raise n).sense = s.sense := rfl
@[simp] theorem State.raise_history (s : State) (n : Notice) :
    (s.raise n).history = s.history := rfl
@[simp] theorem State.raise_clockMs (s : State) (n : Notice) :
    (s.raise n).clockMs = s.clockMs := rfl
@[simp] theorem State.raise_nonceDraws (s : State) (n : Notice) :
    (s.raise n).nonceDraws = s.nonceDraws := rfl
@[simp] theorem State.raise_freeDraws (s : State) (n : Notice) :
    (s.raise n).freeDraws = s.freeDraws := rfl
@[simp] theorem State.raise_joinStamps (s : State) (n : Notice) :
    (s.raise n).joinStamps = s.joinStamps := rfl
@[simp] theorem State.raise_pending (s : State) (n : Notice) :
    (s.raise n).pending = s.pending := rfl

/-! ## nonceDrawn -/

@[simp] theorem State.nonceDrawn_pins (s : State) :
    (s.nonceDrawn).pins = s.pins := rfl
@[simp] theorem State.nonceDrawn_host (s : State) :
    (s.nonceDrawn).host = s.host := rfl
@[simp] theorem State.nonceDrawn_notices (s : State) :
    (s.nonceDrawn).notices = s.notices := rfl
@[simp] theorem State.nonceDrawn_cause (s : State) :
    (s.nonceDrawn).cause = s.cause := rfl
@[simp] theorem State.nonceDrawn_preparation (s : State) :
    (s.nonceDrawn).preparation = s.preparation := rfl
@[simp] theorem State.nonceDrawn_store (s : State) :
    (s.nonceDrawn).store = s.store := rfl
@[simp] theorem State.nonceDrawn_slots (s : State) :
    (s.nonceDrawn).slots = s.slots := rfl
@[simp] theorem State.nonceDrawn_debounce (s : State) :
    (s.nonceDrawn).debounce = s.debounce := rfl
@[simp] theorem State.nonceDrawn_debounceTime (s : State) :
    (s.nonceDrawn).debounceTime = s.debounceTime := rfl
@[simp] theorem State.nonceDrawn_bus (s : State) :
    (s.nonceDrawn).bus = s.bus := rfl
@[simp] theorem State.nonceDrawn_engine (s : State) :
    (s.nonceDrawn).engine = s.engine := rfl
@[simp] theorem State.nonceDrawn_keys (s : State) :
    (s.nonceDrawn).keys = s.keys := rfl
@[simp] theorem State.nonceDrawn_tally (s : State) :
    (s.nonceDrawn).tally = s.tally := rfl
@[simp] theorem State.nonceDrawn_channels (s : State) :
    (s.nonceDrawn).channels = s.channels := rfl
@[simp] theorem State.nonceDrawn_commits (s : State) :
    (s.nonceDrawn).commits = s.commits := rfl
@[simp] theorem State.nonceDrawn_sense (s : State) :
    (s.nonceDrawn).sense = s.sense := rfl
@[simp] theorem State.nonceDrawn_history (s : State) :
    (s.nonceDrawn).history = s.history := rfl
@[simp] theorem State.nonceDrawn_clockMs (s : State) :
    (s.nonceDrawn).clockMs = s.clockMs := rfl
@[simp] theorem State.nonceDrawn_nonceDraws (s : State) :
    (s.nonceDrawn).nonceDraws = s.nonceDraws + 1 := rfl
@[simp] theorem State.nonceDrawn_freeDraws (s : State) :
    (s.nonceDrawn).freeDraws = s.freeDraws := rfl
@[simp] theorem State.nonceDrawn_joinStamps (s : State) :
    (s.nonceDrawn).joinStamps = s.joinStamps := rfl
@[simp] theorem State.nonceDrawn_pending (s : State) :
    (s.nonceDrawn).pending = s.pending := rfl

/-! ## stampUsed -/

@[simp] theorem State.stampUsed_pins (s : State) :
    (s.stampUsed).pins = s.pins := rfl
@[simp] theorem State.stampUsed_host (s : State) :
    (s.stampUsed).host = s.host := rfl
@[simp] theorem State.stampUsed_notices (s : State) :
    (s.stampUsed).notices = s.notices := rfl
@[simp] theorem State.stampUsed_cause (s : State) :
    (s.stampUsed).cause = s.cause := rfl
@[simp] theorem State.stampUsed_preparation (s : State) :
    (s.stampUsed).preparation = s.preparation := rfl
@[simp] theorem State.stampUsed_store (s : State) :
    (s.stampUsed).store = s.store := rfl
@[simp] theorem State.stampUsed_slots (s : State) :
    (s.stampUsed).slots = s.slots := rfl
@[simp] theorem State.stampUsed_debounce (s : State) :
    (s.stampUsed).debounce = s.debounce := rfl
@[simp] theorem State.stampUsed_debounceTime (s : State) :
    (s.stampUsed).debounceTime = s.debounceTime := rfl
@[simp] theorem State.stampUsed_bus (s : State) :
    (s.stampUsed).bus = s.bus := rfl
@[simp] theorem State.stampUsed_engine (s : State) :
    (s.stampUsed).engine = s.engine := rfl
@[simp] theorem State.stampUsed_keys (s : State) :
    (s.stampUsed).keys = s.keys := rfl
@[simp] theorem State.stampUsed_tally (s : State) :
    (s.stampUsed).tally = s.tally := rfl
@[simp] theorem State.stampUsed_channels (s : State) :
    (s.stampUsed).channels = s.channels := rfl
@[simp] theorem State.stampUsed_commits (s : State) :
    (s.stampUsed).commits = s.commits := rfl
@[simp] theorem State.stampUsed_sense (s : State) :
    (s.stampUsed).sense = s.sense := rfl
@[simp] theorem State.stampUsed_history (s : State) :
    (s.stampUsed).history = s.history := rfl
@[simp] theorem State.stampUsed_clockMs (s : State) :
    (s.stampUsed).clockMs = s.clockMs := rfl
@[simp] theorem State.stampUsed_nonceDraws (s : State) :
    (s.stampUsed).nonceDraws = s.nonceDraws := rfl
@[simp] theorem State.stampUsed_freeDraws (s : State) :
    (s.stampUsed).freeDraws = s.freeDraws := rfl
@[simp] theorem State.stampUsed_joinStamps (s : State) :
    (s.stampUsed).joinStamps = s.joinStamps + 1 := rfl
@[simp] theorem State.stampUsed_pending (s : State) :
    (s.stampUsed).pending = s.pending := rfl

/-! ## setWanted -/

@[simp] theorem State.setWanted_pins (s : State) (i : SlotId) (m : TagMark) (v : Bool) :
    (s.setWanted i m v).pins = s.pins := rfl
@[simp] theorem State.setWanted_host (s : State) (i : SlotId) (m : TagMark) (v : Bool) :
    (s.setWanted i m v).host = s.host := rfl
@[simp] theorem State.setWanted_notices (s : State) (i : SlotId) (m : TagMark) (v : Bool) :
    (s.setWanted i m v).notices = s.notices := rfl
@[simp] theorem State.setWanted_cause (s : State) (i : SlotId) (m : TagMark) (v : Bool) :
    (s.setWanted i m v).cause = s.cause := rfl
@[simp] theorem State.setWanted_preparation (s : State) (i : SlotId) (m : TagMark) (v : Bool) :
    (s.setWanted i m v).preparation = s.preparation := rfl
@[simp] theorem State.setWanted_store (s : State) (i : SlotId) (m : TagMark) (v : Bool) :
    (s.setWanted i m v).store = s.store := rfl
@[simp] theorem State.setWanted_slots (s : State) (i : SlotId) (m : TagMark) (v : Bool) :
    (s.setWanted i m v).slots = s.slots := rfl
@[simp] theorem State.setWanted_debounce (s : State) (i : SlotId) (m : TagMark) (v : Bool) :
    (s.setWanted i m v).debounce = s.debounce := rfl
@[simp] theorem State.setWanted_debounceTime (s : State) (i : SlotId) (m : TagMark) (v : Bool) :
    (s.setWanted i m v).debounceTime = s.debounceTime := rfl
@[simp] theorem State.setWanted_bus (s : State) (i : SlotId) (m : TagMark) (v : Bool) :
    (s.setWanted i m v).bus = { s.bus with wanted := modifyAt s.bus.wanted i fun w => w.set m v } := rfl
@[simp] theorem State.setWanted_engine (s : State) (i : SlotId) (m : TagMark) (v : Bool) :
    (s.setWanted i m v).engine = s.engine := rfl
@[simp] theorem State.setWanted_keys (s : State) (i : SlotId) (m : TagMark) (v : Bool) :
    (s.setWanted i m v).keys = s.keys := rfl
@[simp] theorem State.setWanted_tally (s : State) (i : SlotId) (m : TagMark) (v : Bool) :
    (s.setWanted i m v).tally = s.tally := rfl
@[simp] theorem State.setWanted_channels (s : State) (i : SlotId) (m : TagMark) (v : Bool) :
    (s.setWanted i m v).channels = s.channels := rfl
@[simp] theorem State.setWanted_commits (s : State) (i : SlotId) (m : TagMark) (v : Bool) :
    (s.setWanted i m v).commits = s.commits := rfl
@[simp] theorem State.setWanted_sense (s : State) (i : SlotId) (m : TagMark) (v : Bool) :
    (s.setWanted i m v).sense = s.sense := rfl
@[simp] theorem State.setWanted_history (s : State) (i : SlotId) (m : TagMark) (v : Bool) :
    (s.setWanted i m v).history = s.history := rfl
@[simp] theorem State.setWanted_clockMs (s : State) (i : SlotId) (m : TagMark) (v : Bool) :
    (s.setWanted i m v).clockMs = s.clockMs := rfl
@[simp] theorem State.setWanted_nonceDraws (s : State) (i : SlotId) (m : TagMark) (v : Bool) :
    (s.setWanted i m v).nonceDraws = s.nonceDraws := rfl
@[simp] theorem State.setWanted_freeDraws (s : State) (i : SlotId) (m : TagMark) (v : Bool) :
    (s.setWanted i m v).freeDraws = s.freeDraws := rfl
@[simp] theorem State.setWanted_joinStamps (s : State) (i : SlotId) (m : TagMark) (v : Bool) :
    (s.setWanted i m v).joinStamps = s.joinStamps := rfl
@[simp] theorem State.setWanted_pending (s : State) (i : SlotId) (m : TagMark) (v : Bool) :
    (s.setWanted i m v).pending = s.pending := rfl

/-! ## setPresence -/

@[simp] theorem State.setPresence_pins (s : State) (i : SlotId) (level : Bool) :
    (s.setPresence i level).pins = { s.pins with presence := modifyAt s.pins.presence i fun _ => level } := rfl
@[simp] theorem State.setPresence_host (s : State) (i : SlotId) (level : Bool) :
    (s.setPresence i level).host = s.host := rfl
@[simp] theorem State.setPresence_notices (s : State) (i : SlotId) (level : Bool) :
    (s.setPresence i level).notices = s.notices := rfl
@[simp] theorem State.setPresence_cause (s : State) (i : SlotId) (level : Bool) :
    (s.setPresence i level).cause = s.cause := rfl
@[simp] theorem State.setPresence_preparation (s : State) (i : SlotId) (level : Bool) :
    (s.setPresence i level).preparation = s.preparation := rfl
@[simp] theorem State.setPresence_store (s : State) (i : SlotId) (level : Bool) :
    (s.setPresence i level).store = s.store := rfl
@[simp] theorem State.setPresence_slots (s : State) (i : SlotId) (level : Bool) :
    (s.setPresence i level).slots = s.slots := rfl
@[simp] theorem State.setPresence_debounce (s : State) (i : SlotId) (level : Bool) :
    (s.setPresence i level).debounce = s.debounce := rfl
@[simp] theorem State.setPresence_debounceTime (s : State) (i : SlotId) (level : Bool) :
    (s.setPresence i level).debounceTime = s.debounceTime := rfl
@[simp] theorem State.setPresence_bus (s : State) (i : SlotId) (level : Bool) :
    (s.setPresence i level).bus = s.bus := rfl
@[simp] theorem State.setPresence_engine (s : State) (i : SlotId) (level : Bool) :
    (s.setPresence i level).engine = s.engine := rfl
@[simp] theorem State.setPresence_keys (s : State) (i : SlotId) (level : Bool) :
    (s.setPresence i level).keys = s.keys := rfl
@[simp] theorem State.setPresence_tally (s : State) (i : SlotId) (level : Bool) :
    (s.setPresence i level).tally = s.tally := rfl
@[simp] theorem State.setPresence_channels (s : State) (i : SlotId) (level : Bool) :
    (s.setPresence i level).channels = s.channels := rfl
@[simp] theorem State.setPresence_commits (s : State) (i : SlotId) (level : Bool) :
    (s.setPresence i level).commits = s.commits := rfl
@[simp] theorem State.setPresence_sense (s : State) (i : SlotId) (level : Bool) :
    (s.setPresence i level).sense = s.sense := rfl
@[simp] theorem State.setPresence_history (s : State) (i : SlotId) (level : Bool) :
    (s.setPresence i level).history = s.history := rfl
@[simp] theorem State.setPresence_clockMs (s : State) (i : SlotId) (level : Bool) :
    (s.setPresence i level).clockMs = s.clockMs := rfl
@[simp] theorem State.setPresence_nonceDraws (s : State) (i : SlotId) (level : Bool) :
    (s.setPresence i level).nonceDraws = s.nonceDraws := rfl
@[simp] theorem State.setPresence_freeDraws (s : State) (i : SlotId) (level : Bool) :
    (s.setPresence i level).freeDraws = s.freeDraws := rfl
@[simp] theorem State.setPresence_joinStamps (s : State) (i : SlotId) (level : Bool) :
    (s.setPresence i level).joinStamps = s.joinStamps := rfl
@[simp] theorem State.setPresence_pending (s : State) (i : SlotId) (level : Bool) :
    (s.setPresence i level).pending = s.pending := rfl

/-! ## setDebounce -/

@[simp] theorem State.setDebounce_pins (s : State) (i : SlotId) (timer : Option Nat) :
    (s.setDebounce i timer).pins = s.pins := rfl
@[simp] theorem State.setDebounce_host (s : State) (i : SlotId) (timer : Option Nat) :
    (s.setDebounce i timer).host = s.host := rfl
@[simp] theorem State.setDebounce_notices (s : State) (i : SlotId) (timer : Option Nat) :
    (s.setDebounce i timer).notices = s.notices := rfl
@[simp] theorem State.setDebounce_cause (s : State) (i : SlotId) (timer : Option Nat) :
    (s.setDebounce i timer).cause = s.cause := rfl
@[simp] theorem State.setDebounce_preparation (s : State) (i : SlotId) (timer : Option Nat) :
    (s.setDebounce i timer).preparation = s.preparation := rfl
@[simp] theorem State.setDebounce_store (s : State) (i : SlotId) (timer : Option Nat) :
    (s.setDebounce i timer).store = s.store := rfl
@[simp] theorem State.setDebounce_slots (s : State) (i : SlotId) (timer : Option Nat) :
    (s.setDebounce i timer).slots = s.slots := rfl
@[simp] theorem State.setDebounce_debounce (s : State) (i : SlotId) (timer : Option Nat) :
    (s.setDebounce i timer).debounce = modifyAt s.debounce i fun _ => timer := rfl
@[simp] theorem State.setDebounce_debounceTime (s : State) (i : SlotId) (timer : Option Nat) :
    (s.setDebounce i timer).debounceTime = s.debounceTime := rfl
@[simp] theorem State.setDebounce_bus (s : State) (i : SlotId) (timer : Option Nat) :
    (s.setDebounce i timer).bus = s.bus := rfl
@[simp] theorem State.setDebounce_engine (s : State) (i : SlotId) (timer : Option Nat) :
    (s.setDebounce i timer).engine = s.engine := rfl
@[simp] theorem State.setDebounce_keys (s : State) (i : SlotId) (timer : Option Nat) :
    (s.setDebounce i timer).keys = s.keys := rfl
@[simp] theorem State.setDebounce_tally (s : State) (i : SlotId) (timer : Option Nat) :
    (s.setDebounce i timer).tally = s.tally := rfl
@[simp] theorem State.setDebounce_channels (s : State) (i : SlotId) (timer : Option Nat) :
    (s.setDebounce i timer).channels = s.channels := rfl
@[simp] theorem State.setDebounce_commits (s : State) (i : SlotId) (timer : Option Nat) :
    (s.setDebounce i timer).commits = s.commits := rfl
@[simp] theorem State.setDebounce_sense (s : State) (i : SlotId) (timer : Option Nat) :
    (s.setDebounce i timer).sense = s.sense := rfl
@[simp] theorem State.setDebounce_history (s : State) (i : SlotId) (timer : Option Nat) :
    (s.setDebounce i timer).history = s.history := rfl
@[simp] theorem State.setDebounce_clockMs (s : State) (i : SlotId) (timer : Option Nat) :
    (s.setDebounce i timer).clockMs = s.clockMs := rfl
@[simp] theorem State.setDebounce_nonceDraws (s : State) (i : SlotId) (timer : Option Nat) :
    (s.setDebounce i timer).nonceDraws = s.nonceDraws := rfl
@[simp] theorem State.setDebounce_freeDraws (s : State) (i : SlotId) (timer : Option Nat) :
    (s.setDebounce i timer).freeDraws = s.freeDraws := rfl
@[simp] theorem State.setDebounce_joinStamps (s : State) (i : SlotId) (timer : Option Nat) :
    (s.setDebounce i timer).joinStamps = s.joinStamps := rfl
@[simp] theorem State.setDebounce_pending (s : State) (i : SlotId) (timer : Option Nat) :
    (s.setDebounce i timer).pending = s.pending := rfl

/-! ## setPowerWarn -/

@[simp] theorem State.setPowerWarn_pins (s : State) (level : Bool) :
    (s.setPowerWarn level).pins = { s.pins with powerWarn := level } := rfl
@[simp] theorem State.setPowerWarn_host (s : State) (level : Bool) :
    (s.setPowerWarn level).host = s.host := rfl
@[simp] theorem State.setPowerWarn_notices (s : State) (level : Bool) :
    (s.setPowerWarn level).notices = s.notices := rfl
@[simp] theorem State.setPowerWarn_cause (s : State) (level : Bool) :
    (s.setPowerWarn level).cause = s.cause := rfl
@[simp] theorem State.setPowerWarn_preparation (s : State) (level : Bool) :
    (s.setPowerWarn level).preparation = s.preparation := rfl
@[simp] theorem State.setPowerWarn_store (s : State) (level : Bool) :
    (s.setPowerWarn level).store = s.store := rfl
@[simp] theorem State.setPowerWarn_slots (s : State) (level : Bool) :
    (s.setPowerWarn level).slots = s.slots := rfl
@[simp] theorem State.setPowerWarn_debounce (s : State) (level : Bool) :
    (s.setPowerWarn level).debounce = s.debounce := rfl
@[simp] theorem State.setPowerWarn_debounceTime (s : State) (level : Bool) :
    (s.setPowerWarn level).debounceTime = s.debounceTime := rfl
@[simp] theorem State.setPowerWarn_bus (s : State) (level : Bool) :
    (s.setPowerWarn level).bus = s.bus := rfl
@[simp] theorem State.setPowerWarn_engine (s : State) (level : Bool) :
    (s.setPowerWarn level).engine = s.engine := rfl
@[simp] theorem State.setPowerWarn_keys (s : State) (level : Bool) :
    (s.setPowerWarn level).keys = s.keys := rfl
@[simp] theorem State.setPowerWarn_tally (s : State) (level : Bool) :
    (s.setPowerWarn level).tally = s.tally := rfl
@[simp] theorem State.setPowerWarn_channels (s : State) (level : Bool) :
    (s.setPowerWarn level).channels = s.channels := rfl
@[simp] theorem State.setPowerWarn_commits (s : State) (level : Bool) :
    (s.setPowerWarn level).commits = s.commits := rfl
@[simp] theorem State.setPowerWarn_sense (s : State) (level : Bool) :
    (s.setPowerWarn level).sense = s.sense := rfl
@[simp] theorem State.setPowerWarn_history (s : State) (level : Bool) :
    (s.setPowerWarn level).history = s.history := rfl
@[simp] theorem State.setPowerWarn_clockMs (s : State) (level : Bool) :
    (s.setPowerWarn level).clockMs = s.clockMs := rfl
@[simp] theorem State.setPowerWarn_nonceDraws (s : State) (level : Bool) :
    (s.setPowerWarn level).nonceDraws = s.nonceDraws := rfl
@[simp] theorem State.setPowerWarn_freeDraws (s : State) (level : Bool) :
    (s.setPowerWarn level).freeDraws = s.freeDraws := rfl
@[simp] theorem State.setPowerWarn_joinStamps (s : State) (level : Bool) :
    (s.setPowerWarn level).joinStamps = s.joinStamps := rfl
@[simp] theorem State.setPowerWarn_pending (s : State) (level : Bool) :
    (s.setPowerWarn level).pending = s.pending := rfl

/-! ## tick -/

@[simp] theorem State.tick_pins (s : State) :
    (s.tick).pins = s.pins := rfl
@[simp] theorem State.tick_host (s : State) :
    (s.tick).host = s.host := rfl
@[simp] theorem State.tick_notices (s : State) :
    (s.tick).notices = s.notices := rfl
@[simp] theorem State.tick_cause (s : State) :
    (s.tick).cause = s.cause := rfl
@[simp] theorem State.tick_preparation (s : State) :
    (s.tick).preparation = s.preparation := rfl
@[simp] theorem State.tick_store (s : State) :
    (s.tick).store = s.store := rfl
@[simp] theorem State.tick_slots (s : State) :
    (s.tick).slots = s.slots := rfl
@[simp] theorem State.tick_debounce (s : State) :
    (s.tick).debounce = s.debounce := rfl
@[simp] theorem State.tick_debounceTime (s : State) :
    (s.tick).debounceTime = s.debounceTime := rfl
@[simp] theorem State.tick_bus (s : State) :
    (s.tick).bus = s.bus := rfl
@[simp] theorem State.tick_engine (s : State) :
    (s.tick).engine = s.engine := rfl
@[simp] theorem State.tick_keys (s : State) :
    (s.tick).keys = s.keys := rfl
@[simp] theorem State.tick_tally (s : State) :
    (s.tick).tally = s.tally := rfl
@[simp] theorem State.tick_channels (s : State) :
    (s.tick).channels = s.channels := rfl
@[simp] theorem State.tick_commits (s : State) :
    (s.tick).commits = s.commits := rfl
@[simp] theorem State.tick_sense (s : State) :
    (s.tick).sense = s.sense := rfl
@[simp] theorem State.tick_history (s : State) :
    (s.tick).history = s.history := rfl
@[simp] theorem State.tick_clockMs (s : State) :
    (s.tick).clockMs = s.clockMs + 1 := rfl
@[simp] theorem State.tick_nonceDraws (s : State) :
    (s.tick).nonceDraws = s.nonceDraws := rfl
@[simp] theorem State.tick_freeDraws (s : State) :
    (s.tick).freeDraws = s.freeDraws := rfl
@[simp] theorem State.tick_joinStamps (s : State) :
    (s.tick).joinStamps = s.joinStamps := rfl
@[simp] theorem State.tick_pending (s : State) :
    (s.tick).pending = s.pending := rfl

/-! ## Reading one record after an update -/

@[simp] theorem State.updChannel_slot (s : State) (c : ChannelId) (f : Channel → Channel) (x : SlotId) :
    (s.updChannel c f).slot x = s.slot x := rfl
@[simp] theorem State.updVolume_slot (s : State) (c : ChannelId) (f : Volume → Volume) (x : SlotId) :
    (s.updVolume c f).slot x = s.slot x := rfl
@[simp] theorem State.updCommit_slot (s : State) (i : SlotId) (f : CommitState → CommitState) (x : SlotId) :
    (s.updCommit i f).slot x = s.slot x := rfl
@[simp] theorem State.updLane_slot (s : State) (l : LaneId) (f : Lane → Lane) (x : SlotId) :
    (s.updLane l f).slot x = s.slot x := rfl
@[simp] theorem State.updSense_slot (s : State) (f : LevelSense → LevelSense) (x : SlotId) :
    (s.updSense f).slot x = s.slot x := rfl
@[simp] theorem State.updSlotSense_slot (s : State) (i : SlotId) (f : SlotSense → SlotSense) (x : SlotId) :
    (s.updSlotSense i f).slot x = s.slot x := rfl
@[simp] theorem State.updHistory_slot (s : State) (f : History → History) (x : SlotId) :
    (s.updHistory f).slot x = s.slot x := rfl
@[simp] theorem State.updEngine_slot (s : State) (f : Engine → Engine) (x : SlotId) :
    (s.updEngine f).slot x = s.slot x := rfl
@[simp] theorem State.updHost_slot (s : State) (f : HostLink → HostLink) (x : SlotId) :
    (s.updHost f).slot x = s.slot x := rfl
@[simp] theorem State.updTally_slot (s : State) (f : Tally → Tally) (x : SlotId) :
    (s.updTally f).slot x = s.slot x := rfl
@[simp] theorem State.raise_slot (s : State) (n : Notice) (x : SlotId) :
    (s.raise n).slot x = s.slot x := rfl
@[simp] theorem State.nonceDrawn_slot (s : State) (x : SlotId) :
    (s.nonceDrawn).slot x = s.slot x := rfl
@[simp] theorem State.stampUsed_slot (s : State) (x : SlotId) :
    (s.stampUsed).slot x = s.slot x := rfl
@[simp] theorem State.setWanted_slot (s : State) (i : SlotId) (m : TagMark) (v : Bool) (x : SlotId) :
    (s.setWanted i m v).slot x = s.slot x := rfl
@[simp] theorem State.setPresence_slot (s : State) (i : SlotId) (level : Bool) (x : SlotId) :
    (s.setPresence i level).slot x = s.slot x := rfl
@[simp] theorem State.setDebounce_slot (s : State) (i : SlotId) (timer : Option Nat) (x : SlotId) :
    (s.setDebounce i timer).slot x = s.slot x := rfl
@[simp] theorem State.setPowerWarn_slot (s : State) (level : Bool) (x : SlotId) :
    (s.setPowerWarn level).slot x = s.slot x := rfl
@[simp] theorem State.tick_slot (s : State) (x : SlotId) :
    (s.tick).slot x = s.slot x := rfl
theorem State.updSlot_slot (s : State) (i j : SlotId) (f : SlotRecord → SlotRecord) :
    (s.updSlot i f).slot j = if i = j then f (s.slot j) else s.slot j := by
  exact modifyAt_get _ _ _ _
@[simp] theorem State.updSlot_slot_same (s : State) (i : SlotId) (f : SlotRecord → SlotRecord) :
    (s.updSlot i f).slot i = f (s.slot i) := by
  simp [State.updSlot_slot]
theorem State.updSlot_slot_other (s : State) (i j : SlotId) (f : SlotRecord → SlotRecord) (h : i ≠ j) :
    (s.updSlot i f).slot j = s.slot j := by
  simp [State.updSlot_slot, h]
@[simp] theorem State.updSlot_channel (s : State) (i : SlotId) (f : SlotRecord → SlotRecord) (x : ChannelId) :
    (s.updSlot i f).channel x = s.channel x := rfl
@[simp] theorem State.updCommit_channel (s : State) (i : SlotId) (f : CommitState → CommitState) (x : ChannelId) :
    (s.updCommit i f).channel x = s.channel x := rfl
@[simp] theorem State.updLane_channel (s : State) (l : LaneId) (f : Lane → Lane) (x : ChannelId) :
    (s.updLane l f).channel x = s.channel x := rfl
@[simp] theorem State.updSense_channel (s : State) (f : LevelSense → LevelSense) (x : ChannelId) :
    (s.updSense f).channel x = s.channel x := rfl
@[simp] theorem State.updSlotSense_channel (s : State) (i : SlotId) (f : SlotSense → SlotSense) (x : ChannelId) :
    (s.updSlotSense i f).channel x = s.channel x := rfl
@[simp] theorem State.updHistory_channel (s : State) (f : History → History) (x : ChannelId) :
    (s.updHistory f).channel x = s.channel x := rfl
@[simp] theorem State.updEngine_channel (s : State) (f : Engine → Engine) (x : ChannelId) :
    (s.updEngine f).channel x = s.channel x := rfl
@[simp] theorem State.updHost_channel (s : State) (f : HostLink → HostLink) (x : ChannelId) :
    (s.updHost f).channel x = s.channel x := rfl
@[simp] theorem State.updTally_channel (s : State) (f : Tally → Tally) (x : ChannelId) :
    (s.updTally f).channel x = s.channel x := rfl
@[simp] theorem State.raise_channel (s : State) (n : Notice) (x : ChannelId) :
    (s.raise n).channel x = s.channel x := rfl
@[simp] theorem State.nonceDrawn_channel (s : State) (x : ChannelId) :
    (s.nonceDrawn).channel x = s.channel x := rfl
@[simp] theorem State.stampUsed_channel (s : State) (x : ChannelId) :
    (s.stampUsed).channel x = s.channel x := rfl
@[simp] theorem State.setWanted_channel (s : State) (i : SlotId) (m : TagMark) (v : Bool) (x : ChannelId) :
    (s.setWanted i m v).channel x = s.channel x := rfl
@[simp] theorem State.setPresence_channel (s : State) (i : SlotId) (level : Bool) (x : ChannelId) :
    (s.setPresence i level).channel x = s.channel x := rfl
@[simp] theorem State.setDebounce_channel (s : State) (i : SlotId) (timer : Option Nat) (x : ChannelId) :
    (s.setDebounce i timer).channel x = s.channel x := rfl
@[simp] theorem State.setPowerWarn_channel (s : State) (level : Bool) (x : ChannelId) :
    (s.setPowerWarn level).channel x = s.channel x := rfl
@[simp] theorem State.tick_channel (s : State) (x : ChannelId) :
    (s.tick).channel x = s.channel x := rfl
theorem State.updChannel_channel (s : State) (i j : ChannelId) (f : Channel → Channel) :
    (s.updChannel i f).channel j = if i = j then f (s.channel j) else s.channel j := by
  exact modifyAt_get _ _ _ _
@[simp] theorem State.updChannel_channel_same (s : State) (i : ChannelId) (f : Channel → Channel) :
    (s.updChannel i f).channel i = f (s.channel i) := by
  simp [State.updChannel_channel]
theorem State.updChannel_channel_other (s : State) (i j : ChannelId) (f : Channel → Channel) (h : i ≠ j) :
    (s.updChannel i f).channel j = s.channel j := by
  simp [State.updChannel_channel, h]
@[simp] theorem State.updSlot_commit (s : State) (i : SlotId) (f : SlotRecord → SlotRecord) (x : SlotId) :
    (s.updSlot i f).commit x = s.commit x := rfl
@[simp] theorem State.updChannel_commit (s : State) (c : ChannelId) (f : Channel → Channel) (x : SlotId) :
    (s.updChannel c f).commit x = s.commit x := rfl
@[simp] theorem State.updVolume_commit (s : State) (c : ChannelId) (f : Volume → Volume) (x : SlotId) :
    (s.updVolume c f).commit x = s.commit x := rfl
@[simp] theorem State.updLane_commit (s : State) (l : LaneId) (f : Lane → Lane) (x : SlotId) :
    (s.updLane l f).commit x = s.commit x := rfl
@[simp] theorem State.updSense_commit (s : State) (f : LevelSense → LevelSense) (x : SlotId) :
    (s.updSense f).commit x = s.commit x := rfl
@[simp] theorem State.updSlotSense_commit (s : State) (i : SlotId) (f : SlotSense → SlotSense) (x : SlotId) :
    (s.updSlotSense i f).commit x = s.commit x := rfl
@[simp] theorem State.updHistory_commit (s : State) (f : History → History) (x : SlotId) :
    (s.updHistory f).commit x = s.commit x := rfl
@[simp] theorem State.updEngine_commit (s : State) (f : Engine → Engine) (x : SlotId) :
    (s.updEngine f).commit x = s.commit x := rfl
@[simp] theorem State.updHost_commit (s : State) (f : HostLink → HostLink) (x : SlotId) :
    (s.updHost f).commit x = s.commit x := rfl
@[simp] theorem State.updTally_commit (s : State) (f : Tally → Tally) (x : SlotId) :
    (s.updTally f).commit x = s.commit x := rfl
@[simp] theorem State.raise_commit (s : State) (n : Notice) (x : SlotId) :
    (s.raise n).commit x = s.commit x := rfl
@[simp] theorem State.nonceDrawn_commit (s : State) (x : SlotId) :
    (s.nonceDrawn).commit x = s.commit x := rfl
@[simp] theorem State.stampUsed_commit (s : State) (x : SlotId) :
    (s.stampUsed).commit x = s.commit x := rfl
@[simp] theorem State.setWanted_commit (s : State) (i : SlotId) (m : TagMark) (v : Bool) (x : SlotId) :
    (s.setWanted i m v).commit x = s.commit x := rfl
@[simp] theorem State.setPresence_commit (s : State) (i : SlotId) (level : Bool) (x : SlotId) :
    (s.setPresence i level).commit x = s.commit x := rfl
@[simp] theorem State.setDebounce_commit (s : State) (i : SlotId) (timer : Option Nat) (x : SlotId) :
    (s.setDebounce i timer).commit x = s.commit x := rfl
@[simp] theorem State.setPowerWarn_commit (s : State) (level : Bool) (x : SlotId) :
    (s.setPowerWarn level).commit x = s.commit x := rfl
@[simp] theorem State.tick_commit (s : State) (x : SlotId) :
    (s.tick).commit x = s.commit x := rfl
theorem State.updCommit_commit (s : State) (i j : SlotId) (f : CommitState → CommitState) :
    (s.updCommit i f).commit j = if i = j then f (s.commit j) else s.commit j := by
  exact modifyAt_get _ _ _ _
@[simp] theorem State.updCommit_commit_same (s : State) (i : SlotId) (f : CommitState → CommitState) :
    (s.updCommit i f).commit i = f (s.commit i) := by
  simp [State.updCommit_commit]
theorem State.updCommit_commit_other (s : State) (i j : SlotId) (f : CommitState → CommitState) (h : i ≠ j) :
    (s.updCommit i f).commit j = s.commit j := by
  simp [State.updCommit_commit, h]
@[simp] theorem State.updSlot_lane (s : State) (i : SlotId) (f : SlotRecord → SlotRecord) (x : LaneId) :
    (s.updSlot i f).lane x = s.lane x := rfl
@[simp] theorem State.updChannel_lane (s : State) (c : ChannelId) (f : Channel → Channel) (x : LaneId) :
    (s.updChannel c f).lane x = s.lane x := rfl
@[simp] theorem State.updVolume_lane (s : State) (c : ChannelId) (f : Volume → Volume) (x : LaneId) :
    (s.updVolume c f).lane x = s.lane x := rfl
@[simp] theorem State.updCommit_lane (s : State) (i : SlotId) (f : CommitState → CommitState) (x : LaneId) :
    (s.updCommit i f).lane x = s.lane x := rfl
@[simp] theorem State.updSense_lane (s : State) (f : LevelSense → LevelSense) (x : LaneId) :
    (s.updSense f).lane x = s.lane x := rfl
@[simp] theorem State.updSlotSense_lane (s : State) (i : SlotId) (f : SlotSense → SlotSense) (x : LaneId) :
    (s.updSlotSense i f).lane x = s.lane x := rfl
@[simp] theorem State.updHistory_lane (s : State) (f : History → History) (x : LaneId) :
    (s.updHistory f).lane x = s.lane x := rfl
@[simp] theorem State.updEngine_lane (s : State) (f : Engine → Engine) (x : LaneId) :
    (s.updEngine f).lane x = s.lane x := rfl
@[simp] theorem State.updHost_lane (s : State) (f : HostLink → HostLink) (x : LaneId) :
    (s.updHost f).lane x = s.lane x := rfl
@[simp] theorem State.updTally_lane (s : State) (f : Tally → Tally) (x : LaneId) :
    (s.updTally f).lane x = s.lane x := rfl
@[simp] theorem State.raise_lane (s : State) (n : Notice) (x : LaneId) :
    (s.raise n).lane x = s.lane x := rfl
@[simp] theorem State.nonceDrawn_lane (s : State) (x : LaneId) :
    (s.nonceDrawn).lane x = s.lane x := rfl
@[simp] theorem State.stampUsed_lane (s : State) (x : LaneId) :
    (s.stampUsed).lane x = s.lane x := rfl
@[simp] theorem State.setPresence_lane (s : State) (i : SlotId) (level : Bool) (x : LaneId) :
    (s.setPresence i level).lane x = s.lane x := rfl
@[simp] theorem State.setDebounce_lane (s : State) (i : SlotId) (timer : Option Nat) (x : LaneId) :
    (s.setDebounce i timer).lane x = s.lane x := rfl
@[simp] theorem State.setPowerWarn_lane (s : State) (level : Bool) (x : LaneId) :
    (s.setPowerWarn level).lane x = s.lane x := rfl
@[simp] theorem State.tick_lane (s : State) (x : LaneId) :
    (s.tick).lane x = s.lane x := rfl
theorem State.updLane_lane (s : State) (i j : LaneId) (f : Lane → Lane) :
    (s.updLane i f).lane j = if i = j then f (s.lane j) else s.lane j := by
  exact modifyAt_get _ _ _ _
@[simp] theorem State.updLane_lane_same (s : State) (i : LaneId) (f : Lane → Lane) :
    (s.updLane i f).lane i = f (s.lane i) := by
  simp [State.updLane_lane]
theorem State.updLane_lane_other (s : State) (i j : LaneId) (f : Lane → Lane) (h : i ≠ j) :
    (s.updLane i f).lane j = s.lane j := by
  simp [State.updLane_lane, h]
@[simp] theorem State.updSlot_slotSense (s : State) (i : SlotId) (f : SlotRecord → SlotRecord) (x : SlotId) :
    (s.updSlot i f).slotSense x = s.slotSense x := rfl
@[simp] theorem State.updChannel_slotSense (s : State) (c : ChannelId) (f : Channel → Channel) (x : SlotId) :
    (s.updChannel c f).slotSense x = s.slotSense x := rfl
@[simp] theorem State.updVolume_slotSense (s : State) (c : ChannelId) (f : Volume → Volume) (x : SlotId) :
    (s.updVolume c f).slotSense x = s.slotSense x := rfl
@[simp] theorem State.updCommit_slotSense (s : State) (i : SlotId) (f : CommitState → CommitState) (x : SlotId) :
    (s.updCommit i f).slotSense x = s.slotSense x := rfl
@[simp] theorem State.updLane_slotSense (s : State) (l : LaneId) (f : Lane → Lane) (x : SlotId) :
    (s.updLane l f).slotSense x = s.slotSense x := rfl
@[simp] theorem State.updHistory_slotSense (s : State) (f : History → History) (x : SlotId) :
    (s.updHistory f).slotSense x = s.slotSense x := rfl
@[simp] theorem State.updEngine_slotSense (s : State) (f : Engine → Engine) (x : SlotId) :
    (s.updEngine f).slotSense x = s.slotSense x := rfl
@[simp] theorem State.updHost_slotSense (s : State) (f : HostLink → HostLink) (x : SlotId) :
    (s.updHost f).slotSense x = s.slotSense x := rfl
@[simp] theorem State.updTally_slotSense (s : State) (f : Tally → Tally) (x : SlotId) :
    (s.updTally f).slotSense x = s.slotSense x := rfl
@[simp] theorem State.raise_slotSense (s : State) (n : Notice) (x : SlotId) :
    (s.raise n).slotSense x = s.slotSense x := rfl
@[simp] theorem State.nonceDrawn_slotSense (s : State) (x : SlotId) :
    (s.nonceDrawn).slotSense x = s.slotSense x := rfl
@[simp] theorem State.stampUsed_slotSense (s : State) (x : SlotId) :
    (s.stampUsed).slotSense x = s.slotSense x := rfl
@[simp] theorem State.setWanted_slotSense (s : State) (i : SlotId) (m : TagMark) (v : Bool) (x : SlotId) :
    (s.setWanted i m v).slotSense x = s.slotSense x := rfl
@[simp] theorem State.setPresence_slotSense (s : State) (i : SlotId) (level : Bool) (x : SlotId) :
    (s.setPresence i level).slotSense x = s.slotSense x := rfl
@[simp] theorem State.setDebounce_slotSense (s : State) (i : SlotId) (timer : Option Nat) (x : SlotId) :
    (s.setDebounce i timer).slotSense x = s.slotSense x := rfl
@[simp] theorem State.setPowerWarn_slotSense (s : State) (level : Bool) (x : SlotId) :
    (s.setPowerWarn level).slotSense x = s.slotSense x := rfl
@[simp] theorem State.tick_slotSense (s : State) (x : SlotId) :
    (s.tick).slotSense x = s.slotSense x := rfl
theorem State.updSlotSense_slotSense (s : State) (i j : SlotId) (f : SlotSense → SlotSense) :
    (s.updSlotSense i f).slotSense j = if i = j then f (s.slotSense j) else s.slotSense j := by
  exact modifyAt_get _ _ _ _
@[simp] theorem State.updSlotSense_slotSense_same (s : State) (i : SlotId) (f : SlotSense → SlotSense) :
    (s.updSlotSense i f).slotSense i = f (s.slotSense i) := by
  simp [State.updSlotSense_slotSense]
theorem State.updSlotSense_slotSense_other (s : State) (i j : SlotId) (f : SlotSense → SlotSense) (h : i ≠ j) :
    (s.updSlotSense i f).slotSense j = s.slotSense j := by
  simp [State.updSlotSense_slotSense, h]
@[simp] theorem State.updSlot_place (s : State) (i : SlotId) (f : SlotRecord → SlotRecord) (x : PlaceId) :
    (s.updSlot i f).place x = s.place x := rfl
@[simp] theorem State.updChannel_place (s : State) (c : ChannelId) (f : Channel → Channel) (x : PlaceId) :
    (s.updChannel c f).place x = s.place x := rfl
@[simp] theorem State.updVolume_place (s : State) (c : ChannelId) (f : Volume → Volume) (x : PlaceId) :
    (s.updVolume c f).place x = s.place x := rfl
@[simp] theorem State.updCommit_place (s : State) (i : SlotId) (f : CommitState → CommitState) (x : PlaceId) :
    (s.updCommit i f).place x = s.place x := rfl
@[simp] theorem State.updLane_place (s : State) (l : LaneId) (f : Lane → Lane) (x : PlaceId) :
    (s.updLane l f).place x = s.place x := rfl
@[simp] theorem State.updSense_place (s : State) (f : LevelSense → LevelSense) (x : PlaceId) :
    (s.updSense f).place x = s.place x := rfl
@[simp] theorem State.updSlotSense_place (s : State) (i : SlotId) (f : SlotSense → SlotSense) (x : PlaceId) :
    (s.updSlotSense i f).place x = s.place x := rfl
@[simp] theorem State.updEngine_place (s : State) (f : Engine → Engine) (x : PlaceId) :
    (s.updEngine f).place x = s.place x := rfl
@[simp] theorem State.updHost_place (s : State) (f : HostLink → HostLink) (x : PlaceId) :
    (s.updHost f).place x = s.place x := rfl
@[simp] theorem State.updTally_place (s : State) (f : Tally → Tally) (x : PlaceId) :
    (s.updTally f).place x = s.place x := rfl
@[simp] theorem State.raise_place (s : State) (n : Notice) (x : PlaceId) :
    (s.raise n).place x = s.place x := rfl
@[simp] theorem State.nonceDrawn_place (s : State) (x : PlaceId) :
    (s.nonceDrawn).place x = s.place x := rfl
@[simp] theorem State.stampUsed_place (s : State) (x : PlaceId) :
    (s.stampUsed).place x = s.place x := rfl
@[simp] theorem State.setWanted_place (s : State) (i : SlotId) (m : TagMark) (v : Bool) (x : PlaceId) :
    (s.setWanted i m v).place x = s.place x := rfl
@[simp] theorem State.setPresence_place (s : State) (i : SlotId) (level : Bool) (x : PlaceId) :
    (s.setPresence i level).place x = s.place x := rfl
@[simp] theorem State.setDebounce_place (s : State) (i : SlotId) (timer : Option Nat) (x : PlaceId) :
    (s.setDebounce i timer).place x = s.place x := rfl
@[simp] theorem State.setPowerWarn_place (s : State) (level : Bool) (x : PlaceId) :
    (s.setPowerWarn level).place x = s.place x := rfl
@[simp] theorem State.tick_place (s : State) (x : PlaceId) :
    (s.tick).place x = s.place x := rfl
@[simp] theorem State.setWanted_lane (s : State) (i : SlotId) (m : TagMark) (v : Bool) (x : LaneId) :
    (s.setWanted i m v).lane x = s.lane x := rfl
theorem State.updVolume_channel (s : State) (c d : ChannelId) (f : Volume → Volume) :
    (s.updVolume c f).channel d =
      if c = d then { s.channel d with volume := f (s.channel d).volume } else s.channel d := by
  exact modifyAt_get _ _ _ _
@[simp] theorem State.updVolume_channel_same (s : State) (c : ChannelId) (f : Volume → Volume) :
    (s.updVolume c f).channel c = { s.channel c with volume := f (s.channel c).volume } := by
  simp [State.updVolume_channel]
theorem State.updVolume_channel_other (s : State) (c d : ChannelId) (f : Volume → Volume) (h : c ≠ d) :
    (s.updVolume c f).channel d = s.channel d := by
  simp [State.updVolume_channel, h]

end Sys2Proof.Machine
end

