-- ==== Sys2Proof/Laws/Frame.lean ====
section
/-! SUPPORT. What the inner work of the blocks leaves undisturbed: one lemma per shared operation, each from a state that
is undisturbed to the state after the operation. -/

set_option linter.unusedTactic false
set_option linter.unreachableTactic false

namespace Sys2Proof.Machine

/-! ## Channels and notices -/

theorem ChannelKept.refl (a : Channel) : ChannelKept a a := ⟨rfl, rfl, rfl, rfl, rfl, rfl, id⟩

theorem ChannelKept.trans {a b c : Channel} (h : ChannelKept a b) (k : ChannelKept b c) : ChannelKept a c where
  settings := k.settings.trans h.settings
  pair := k.pair.trans h.pair
  tallyUncertain := k.tallyUncertain.trans h.tallyUncertain
  flowExcess := k.flowExcess.trans h.flowExcess
  lastId := k.lastId.trans h.lastId
  volume := by rw [k.volume, h.volume]
  permit := k.permit ∘ h.permit

theorem Raises.trans {u v w : NoticeUnit} (h : Raises u v) (k : Raises v w) : Raises u w := by
  induction k with
  | refl => exact h
  | raise n _ ih => exact .raise n ih

theorem Undisturbed.refl (s : State) : Undisturbed s s :=
  ⟨rfl, rfl, rfl, rfl, rfl, rfl, rfl, rfl, rfl, rfl, rfl, rfl, rfl, rfl, rfl, rfl, rfl, rfl, rfl, rfl,
    fun _ => ⟨rfl, rfl⟩, fun _ => ChannelKept.refl _, .refl, id⟩

theorem Undisturbed.trans {s t u : State} (h : Undisturbed s t) (k : Undisturbed t u) : Undisturbed s u where
  pins := k.pins.trans h.pins
  host := k.host.trans h.host
  cause := k.cause.trans h.cause
  preparation := k.preparation.trans h.preparation
  store := k.store.trans h.store
  debounce := k.debounce.trans h.debounce
  debounceTime := k.debounceTime.trans h.debounceTime
  keys := k.keys.trans h.keys
  tally := k.tally.trans h.tally
  clockMs := k.clockMs.trans h.clockMs
  pending := k.pending.trans h.pending
  tableA := k.tableA.trans h.tableA
  tableB := k.tableB.trans h.tableB
  requested := k.requested.trans h.requested
  windows := k.windows.trans h.windows
  lastTicket := k.lastTicket.trans h.lastTicket
  protection := k.protection.trans h.protection
  image := k.image.trans h.image
  scanList := k.scanList.trans h.scanList
  pause := k.pause.trans h.pause
  calibration i := ⟨(k.calibration i).1.trans (h.calibration i).1, (k.calibration i).2.trans (h.calibration i).2⟩
  channel c := (h.channel c).trans (k.channel c)
  notices := h.notices.trans k.notices
  bounded := k.bounded ∘ h.bounded

theorem Undisturbed.foldl {β : Type} {s t : State} (f : State → β → State) (l : List β) (h : Undisturbed s t)
    (hf : ∀ u b, Undisturbed s u → Undisturbed s (f u b)) : Undisturbed s (l.foldl f t) := by
  induction l generalizing t with
  | nil => exact h
  | cons b l ih => exact ih (hf t b h)

/-! ## Updates -/

variable {s t : State}

theorem State.Bounded.of_eq {s t : State} (h : s.Bounded) (hc : t.commits = s.commits) (hl : t.bus.lanes = s.bus.lanes)
    (hi : t.sense.injected = s.sense.injected) (hr : t.sense.slots = s.sense.slots) : t.Bounded where
  failures i := by simpa [State.commit, hc] using h.failures i
  lanes l := by simpa [State.lane, hl] using h.lanes l
  injected := by simpa [hi] using h.injected
  rings i := by simpa [State.slotSense, hr] using h.rings i

theorem Undisturbed.updSlot (h : Undisturbed s t) (i : SlotId) (f : SlotRecord → SlotRecord) :
    Undisturbed s (t.updSlot i f) :=
  { h with bounded := fun k => (h.bounded k).of_eq rfl rfl rfl rfl }

theorem Undisturbed.raise (h : Undisturbed s t) (n : Notice) : Undisturbed s (t.raise n) :=
  { h with notices := .raise n h.notices, bounded := fun k => (h.bounded k).of_eq rfl rfl rfl rfl }

theorem Undisturbed.updEngine (h : Undisturbed s t) (f : Engine → Engine) : Undisturbed s (t.updEngine f) :=
  { h with bounded := fun k => (h.bounded k).of_eq rfl rfl rfl rfl }

theorem Undisturbed.nonceDrawn (h : Undisturbed s t) : Undisturbed s t.nonceDrawn :=
  { h with bounded := fun k => (h.bounded k).of_eq rfl rfl rfl rfl }

theorem Undisturbed.stampUsed (h : Undisturbed s t) : Undisturbed s t.stampUsed :=
  { h with bounded := fun k => (h.bounded k).of_eq rfl rfl rfl rfl }

theorem Undisturbed.freeDraws (h : Undisturbed s t) (n : Nat) : Undisturbed s { t with freeDraws := n } :=
  { h with bounded := fun k => (h.bounded k).of_eq rfl rfl rfl rfl }

theorem Undisturbed.setWanted (h : Undisturbed s t) (i : SlotId) (m : TagMark) (v : Bool) :
    Undisturbed s (t.setWanted i m v) :=
  { h with bounded := fun k => (h.bounded k).of_eq rfl rfl rfl rfl }

theorem Undisturbed.wanted (h : Undisturbed s t) (w : Vector WantedMarks 16) :
    Undisturbed s { t with bus := { t.bus with wanted := w } } :=
  { h with bounded := fun k => (h.bounded k).of_eq rfl rfl rfl rfl }

/-- An update of the History Unit that leaves the nonvolatile image. -/
theorem Undisturbed.updHistory (h : Undisturbed s t) (f : History → History)
    (hf : (f t.history).image = t.history.image) : Undisturbed s (t.updHistory f) :=
  { h with image := hf.trans h.image, bounded := fun k => (h.bounded k).of_eq rfl rfl rfl rfl }

/-- An update of a channel that keeps what `ChannelKept` names. -/
theorem Undisturbed.updChannel (h : Undisturbed s t) (c : ChannelId) (f : Channel → Channel)
    (hf : ChannelKept (t.channel c) (f (t.channel c))) : Undisturbed s (t.updChannel c f) :=
  { h with
    channel := fun d => by
      rw [State.updChannel_channel]
      split
      · rename_i e; subst e; exact (h.channel _).trans hf
      · exact h.channel d
    bounded := fun k => (h.bounded k).of_eq rfl rfl rfl rfl }

/-- An update of a commit that keeps its failure count in bounds. -/
theorem Undisturbed.updCommit (h : Undisturbed s t) (i : SlotId) (f : CommitState → CommitState)
    (hf : (t.commit i).failures ≤ 3 → (f (t.commit i)).failures ≤ 3) : Undisturbed s (t.updCommit i f) :=
  { h with
    bounded := fun k =>
      { failures := fun j => by
          rw [State.updCommit_commit]
          split
          · rename_i e; subst e; exact hf ((h.bounded k).failures _)
          · exact (h.bounded k).failures j
        lanes := (h.bounded k).lanes
        injected := (h.bounded k).injected
        rings := (h.bounded k).rings } }

/-- An update of a lane that keeps its law. -/
theorem Undisturbed.updLane (h : Undisturbed s t) (l : LaneId) (f : Lane → Lane)
    (hf : s.Bounded → (t.lane l).Lawful l → (f (t.lane l)).Lawful l) : Undisturbed s (t.updLane l f) :=
  { h with
    bounded := fun k =>
      { failures := (h.bounded k).failures
        lanes := fun j => by
          rw [State.updLane_lane]
          split
          · rename_i e; subst e; exact hf k ((h.bounded k).lanes _)
          · exact (h.bounded k).lanes j
        injected := (h.bounded k).injected
        rings := (h.bounded k).rings } }

/-- An update of the Level Sense Unit that leaves its settings and its slots' items and keeps the queue in bounds. -/
theorem Undisturbed.updSense (h : Undisturbed s t) (f : LevelSense → LevelSense)
    (hl : (f t.sense).list = t.sense.list) (hp : (f t.sense).pause = t.sense.pause)
    (hs : (f t.sense).slots = t.sense.slots)
    (hq : t.sense.injected.length ≤ 8 → (f t.sense).injected.length ≤ 8) : Undisturbed s (t.updSense f) :=
  { h with
    scanList := hl.trans h.scanList
    pause := hp.trans h.pause
    calibration := fun i => by simpa [State.slotSense, hs] using h.calibration i
    bounded := fun k =>
      { failures := (h.bounded k).failures
        lanes := (h.bounded k).lanes
        injected := hq (h.bounded k).injected
        rings := fun i => by simpa [State.slotSense, hs] using (h.bounded k).rings i } }

/-- An update of a slot's sensing items that leaves its calibration and keeps its ring in bounds. -/
theorem Undisturbed.updSlotSense (h : Undisturbed s t) (i : SlotId) (f : SlotSense → SlotSense)
    (ho : (f (t.slotSense i)).offset = (t.slotSense i).offset) (hg : (f (t.slotSense i)).gain = (t.slotSense i).gain)
    (hr : (t.slotSense i).ring.length ≤ 4 → (f (t.slotSense i)).ring.length ≤ 4) :
    Undisturbed s (t.updSlotSense i f) :=
  { h with
    calibration := fun j => by
      rw [State.updSlotSense_slotSense]
      split
      · rename_i e; subst e; rw [ho, hg]; exact h.calibration _
      · exact h.calibration j
    bounded := fun k =>
      { failures := (h.bounded k).failures
        lanes := (h.bounded k).lanes
        injected := (h.bounded k).injected
        rings := fun j => by
          rw [State.updSlotSense_slotSense]
          split
          · rename_i e; subst e; exact hr ((h.bounded k).rings _)
          · exact (h.bounded k).rings j } }

/-! ## HistoryOps -/

theorem Undisturbed.moveSlot (h : Undisturbed s t) (i : SlotId) (f : SlotRecord → SlotRecord) :
    Undisturbed s (t.moveSlot i f) := by
  dsimp only [State.moveSlot]
  exact (h.updSlot i f).raise _

theorem History.placed_image (x : History) (p : PlaceId) (urgent : Bool) : (x.placed p urgent).image = x.image := by
  simp only [History.placed]
  repeat' split
  all_goals rfl

theorem Undisturbed.placeStored (h : Undisturbed s t) (p : PlaceId) (urgent : Bool) :
    Undisturbed s (t.placeStored p urgent) := by
  simp only [State.placeStored]
  exact h.updHistory _ (History.placed_image _ _ _)


theorem Undisturbed.writePlace (h : Undisturbed s t) (p : PlaceId) (e : Option HistoryEntry) (urgent : Bool) : Undisturbed s (t.writePlace p e urgent) := by
  dsimp only [State.writePlace]
  repeat'
    first
      | with_reducible exact h
      | with_reducible rfl
      | exact id
      | exact ⟨rfl, rfl, rfl, rfl, rfl, rfl, id⟩
      | with_reducible apply Undisturbed.updHistory
      | with_reducible apply Undisturbed.placeStored
      | assumption
      | split

theorem Undisturbed.editEntry (h : Undisturbed s t) (p : PlaceId) (f : HistoryEntry → HistoryEntry) (urgent : Bool) : Undisturbed s (t.editEntry p f urgent) := by
  dsimp only [State.editEntry]
  repeat'
    first
      | with_reducible exact h
      | with_reducible rfl
      | exact id
      | exact ⟨rfl, rfl, rfl, rfl, rfl, rfl, id⟩
      | with_reducible apply Undisturbed.writePlace
      | assumption
      | split

theorem Undisturbed.startWriteOf (h : Undisturbed s t) (p : PlaceId) : Undisturbed s (t.startWriteOf p) :=
  { h with
    preparation := by
      rw [← h.preparation]
      simp only [State.startWriteOf]
      split <;> rename_i e <;> simp [e]
    bounded := fun k => (h.bounded k).of_eq rfl rfl rfl rfl }


theorem Undisturbed.startWrite (h : Undisturbed s t) : Undisturbed s t.startWrite := by
  dsimp only [State.startWrite]
  repeat'
    first
      | with_reducible exact h
      | with_reducible rfl
      | exact id
      | exact ⟨rfl, rfl, rfl, rfl, rfl, rfl, id⟩
      | with_reducible apply Undisturbed.updHistory
      | with_reducible apply Undisturbed.startWriteOf
      | assumption
      | split

theorem Undisturbed.forfeit (h : Undisturbed s t) (pending : Option Nat) : Undisturbed s (t.forfeit pending) := by
  dsimp only [State.forfeit]
  repeat'
    first
      | with_reducible exact h
      | with_reducible rfl
      | exact id
      | exact ⟨rfl, rfl, rfl, rfl, rfl, rfl, id⟩
      | with_reducible apply Undisturbed.updHistory
      | assumption
      | split

theorem Undisturbed.renumber (h : Undisturbed s t) : Undisturbed s t.renumber := by
  dsimp only [State.renumber]
  repeat'
    first
      | with_reducible exact h
      | with_reducible rfl
      | exact id
      | exact ⟨rfl, rfl, rfl, rfl, rfl, rfl, id⟩
      | with_reducible apply Undisturbed.updHistory
      | with_reducible apply Undisturbed.placeStored
      | with_reducible refine Undisturbed.foldl _ _ ?_ fun _ _ _ => ?_
      | assumption
      | split

theorem Undisturbed.roomForStamp (h : Undisturbed s t) : Undisturbed s t.roomForStamp := by
  dsimp only [State.roomForStamp]
  repeat'
    first
      | with_reducible exact h
      | with_reducible rfl
      | exact id
      | exact ⟨rfl, rfl, rfl, rfl, rfl, rfl, id⟩
      | with_reducible apply Undisturbed.renumber
      | assumption
      | split

theorem Undisturbed.stampTaken (h : Undisturbed s t) : Undisturbed s t.stampTaken := by
  dsimp only [State.stampTaken]
  repeat'
    first
      | with_reducible exact h
      | with_reducible rfl
      | exact id
      | exact ⟨rfl, rfl, rfl, rfl, rfl, rfl, id⟩
      | with_reducible apply Undisturbed.updHistory
      | assumption
      | split

theorem Undisturbed.evict (h : Undisturbed s t) : Undisturbed s t.evict.1 := by
  dsimp only [State.evict]
  repeat'
    first
      | with_reducible exact h
      | with_reducible rfl
      | with_reducible apply Undisturbed.raise
      | with_reducible apply Undisturbed.updHistory
      | with_reducible apply Undisturbed.forfeit
      | split


theorem Undisturbed.preserve (h : Undisturbed s t) (i : SlotId) (urgent : Bool) : Undisturbed s (t.preserve i urgent) := by
  dsimp only [State.preserve]
  repeat'
    first
      | with_reducible exact h
      | with_reducible rfl
      | exact id
      | exact ⟨rfl, rfl, rfl, rfl, rfl, rfl, id⟩
      | with_reducible apply Undisturbed.editEntry
      | assumption
      | split

theorem Undisturbed.preserveAll (h : Undisturbed s t) : Undisturbed s t.preserveAll := by
  dsimp only [State.preserveAll]
  repeat'
    first
      | with_reducible exact h
      | with_reducible rfl
      | exact id
      | exact ⟨rfl, rfl, rfl, rfl, rfl, rfl, id⟩
      | with_reducible apply Undisturbed.preserve
      | with_reducible refine Undisturbed.foldl _ _ ?_ fun _ _ _ => ?_
      | assumption
      | split

/-! ## Sensing -/

theorem Undisturbed.placeRequest (h : Undisturbed s t) (i : SlotId) (why : Reasons) {u : State}
    (e : t.placeRequest i why = some u) : Undisturbed s u := by
  simp only [State.placeRequest] at e
  split at e
  · cases e
    exact h.updSense _ rfl rfl rfl (by simp)
  · split at e
    · rename_i room
      cases e
      exact (h.updSense _ rfl rfl rfl (by simp [Config.injectedCapacity] at room ⊢; omega)).stampUsed
    · cases e


theorem Undisturbed.holdAdmission (h : Undisturbed s t) (i : SlotId) : Undisturbed s (t.holdAdmission i) := by
  dsimp only [State.holdAdmission]
  repeat'
    first
      | with_reducible exact h
      | with_reducible rfl
      | exact id
      | exact ⟨rfl, rfl, rfl, rfl, rfl, rfl, id⟩
      | with_reducible apply Undisturbed.updSense
      | assumption
      | split

theorem Undisturbed.placeHeldN (h : Undisturbed s t) (n : Nat) : Undisturbed s (State.placeHeldN n t) := by
  induction n generalizing t with
  | zero => exact h
  | succ n ih =>
    simp only [State.placeHeldN]
    split
    · exact h
    · split
      · rename_i e
        exact ih ((h.updSense _ rfl rfl rfl id).placeRequest _ _ e)
      · exact h


theorem Undisturbed.placeHeld (h : Undisturbed s t) : Undisturbed s t.placeHeld := h.placeHeldN _


theorem Undisturbed.requestAdmission (h : Undisturbed s t) (i : SlotId) : Undisturbed s (t.requestAdmission i) := by
  simp only [State.requestAdmission]
  split
  · rename_i e
    exact h.placeRequest _ _ e
  · exact h.holdAdmission i


theorem insertInjected_length (q : Injected) (l : List Injected) : (insertInjected q l).length = l.length + 1 := by
  induction l with
  | nil => rfl
  | cons x l ih => simp only [insertInjected]; split <;> simp [ih]

theorem Undisturbed.returnRequest (h : Undisturbed s t) (q : Injected) : Undisturbed s (t.returnRequest q) := by
  simp only [State.returnRequest]
  split
  · rename_i later e
    refine h.updSense _ rfl rfl rfl fun k => ?_
    have m : later ∈ t.sense.injected := List.mem_of_find?_eq_some e
    have n : later.slot = q.slot := by simpa using List.find?_some e
    have : (t.sense.injected.filter (·.slot ≠ q.slot)).length < t.sense.injected.length :=
      List.length_filter_lt_length_iff_exists.2 ⟨later, m, by simp [n]⟩
    rw [insertInjected_length]
    omega
  · split
    · rename_i room
      refine h.updSense _ rfl rfl rfl fun _ => ?_
      rw [insertInjected_length]
      simpa [Config.injectedCapacity] using room
    · split
      · exact h.holdAdmission _
      · exact h


theorem Undisturbed.discardConversion (h : Undisturbed s t) : Undisturbed s t.discardConversion := by
  dsimp only [State.discardConversion]
  repeat'
    first
      | with_reducible exact h
      | with_reducible rfl
      | exact id
      | exact ⟨rfl, rfl, rfl, rfl, rfl, rfl, id⟩
      | with_reducible apply Undisturbed.updSense
      | assumption
      | split

theorem Undisturbed.abandonRun (h : Undisturbed s t) : Undisturbed s t.abandonRun := by
  dsimp only [State.abandonRun]
  repeat'
    first
      | with_reducible exact h
      | with_reducible rfl
      | exact id
      | exact ⟨rfl, rfl, rfl, rfl, rfl, rfl, id⟩
      | with_reducible apply Undisturbed.updSense
      | with_reducible apply Undisturbed.discardConversion
      | with_reducible apply Undisturbed.returnRequest
      | assumption
      | split

theorem Undisturbed.goesOnWire (h : Undisturbed s t) (i : SlotId) : Undisturbed s (t.goesOnWire i) := by
  dsimp only [State.goesOnWire]
  repeat'
    first
      | with_reducible exact h
      | with_reducible rfl
      | exact id
      | exact ⟨rfl, rfl, rfl, rfl, rfl, rfl, id⟩
      | with_reducible apply Undisturbed.abandonRun
      | with_reducible apply Undisturbed.discardConversion
      | with_reducible apply Undisturbed.updSense
      | assumption
      | split

theorem Undisturbed.removeSensing (h : Undisturbed s t) (i : SlotId) : Undisturbed s (t.removeSensing i) :=
  (h.updSense _ rfl rfl rfl fun k => Nat.le_trans (List.length_filter_le _ _) k).placeHeld


theorem Undisturbed.dropAdmissionReason (h : Undisturbed s t) (i : SlotId) :
    Undisturbed s (t.dropAdmissionReason i) := by
  simp only [State.dropAdmissionReason]
  apply Undisturbed.placeHeld
  have k : Undisturbed s (t.updSense fun u =>
      { u with
        injected := (u.injected.map fun q =>
            if q.slot = i then { q with reasons := { q.reasons with admission := false } } else q).filter
              fun q => !q.reasons.none
        heldAdmissions := u.heldAdmissions.filter (· ≠ i) }) :=
    h.updSense _ rfl rfl rfl fun k => Nat.le_trans (List.length_filter_le _ _) (by simpa using k)
  split
  · split
    · split
      · exact k.updSense _ rfl rfl rfl id
      · exact (k.updSense _ rfl rfl rfl id).discardConversion
    · exact k
  · exact k


theorem Undisturbed.startConversion (h : Undisturbed s t) (source : Source) (ofRun : Bool) : Undisturbed s (t.startConversion source ofRun) := by
  dsimp only [State.startConversion]
  repeat'
    first
      | with_reducible exact h
      | with_reducible rfl
      | exact id
      | exact ⟨rfl, rfl, rfl, rfl, rfl, rfl, id⟩
      | with_reducible apply Undisturbed.updSense
      | assumption
      | split

theorem Undisturbed.startInjected (h : Undisturbed s t) {u : State} (e : t.startInjected = some u) :
    Undisturbed s u := by
  simp only [State.startInjected] at e
  split at e
  · cases e
  · split at e
    · cases e
      exact ((h.updSense _ rfl rfl rfl fun k => Nat.le_trans (List.length_filter_le _ _) k).startConversion _ _).placeHeld
    · cases e


theorem Undisturbed.endPass (h : Undisturbed s t) : Undisturbed s t.endPass := by
  dsimp only [State.endPass]
  repeat'
    first
      | with_reducible exact h
      | with_reducible rfl
      | exact id
      | exact ⟨rfl, rfl, rfl, rfl, rfl, rfl, id⟩
      | with_reducible apply Undisturbed.updSense
      | assumption
      | split

theorem Undisturbed.scanFrom (h : Undisturbed s t) (l : List Source) : Undisturbed s (State.scanFrom l t) := by
  induction l generalizing t with
  | nil => exact h.endPass
  | cons x l ih =>
    have k := h.updSense (fun u => { u with position := u.position + 1 }) rfl rfl rfl id
    simp only [State.scanFrom]
    split
    · exact (k.updSense _ rfl rfl rfl id).startConversion _ _
    · split
      · exact ih k
      · split
        · exact ih (k.updSense _ rfl rfl rfl id)
        · exact (k.updSense _ rfl rfl rfl id).startConversion _ _


theorem Undisturbed.passOver (h : Undisturbed s t) : Undisturbed s t.passOver := by
  simp only [State.passOver]
  split
  · exact h.endPass
  · exact h

theorem Undisturbed.converterWork (h : Undisturbed s t) : Undisturbed s t.converterWork := by
  simp only [State.converterWork]
  split
  · exact h
  · have k := h.passOver
    split
    · rename_i e
      exact k.startInjected e
    · split
      · exact k.scanFrom _
      · exact k


theorem Undisturbed.beginPass (h : Undisturbed s t) : Undisturbed s t.beginPass := by
  simp only [State.beginPass]
  refine h.updSense _ ?_ ?_ ?_ ?_ <;> split <;> first | rfl | exact id


theorem Undisturbed.resumeScan (h : Undisturbed s t) : Undisturbed s t.resumeScan := by
  dsimp only [State.resumeScan]
  repeat'
    first
      | with_reducible exact h
      | with_reducible rfl
      | exact id
      | exact ⟨rfl, rfl, rfl, rfl, rfl, rfl, id⟩
      | with_reducible apply Undisturbed.updSense
      | assumption
      | split

theorem Undisturbed.takeSample (h : Undisturbed s t) (i : SlotId) (raw : Nat) (offset : Int) (gain : Nat) :
    Undisturbed s (t.takeSample i raw offset gain).1 := by
  simp only [State.takeSample]
  have k (f : SlotSense → SlotSense) (hf : ∀ u, (f u).offset = u.offset ∧ (f u).gain = u.gain ∧ (f u).ring = u.ring) :
      Undisturbed s (t.updSlotSense i f) :=
    h.updSlotSense i f (hf _).1 (hf _).2.1 (by rw [(hf _).2.2]; exact id)
  repeat' split
  · exact k _ fun _ => ⟨rfl, rfl, rfl⟩
  · refine Undisturbed.raise (Undisturbed.updSlot (k _ fun _ => ?_) _ _) _
    exact ⟨rfl, rfl, rfl⟩
  · refine Undisturbed.updSlot (k _ fun _ => ?_) _ _
    exact ⟨rfl, rfl, rfl⟩
  · refine k _ fun _ => ?_
    exact ⟨rfl, rfl, rfl⟩
  · exact h


theorem Undisturbed.countHostSense (h : Undisturbed s t) (i : SlotId) : Undisturbed s (t.countHostSense i) := by
  rw [State.countHostSense]
  split
  · exact h.updSlotSense _ _ rfl rfl id
  · exact Undisturbed.freeDraws (h.updSlotSense _ _ rfl rfl id) _


/-! ## Lanes -/

theorem Undisturbed.commitSent (h : Undisturbed s t) (i : SlotId) : Undisturbed s (t.commitSent i) := by
  dsimp only [State.commitSent]
  repeat'
    first
      | with_reducible exact h
      | with_reducible rfl
      | exact id
      | exact ⟨rfl, rfl, rfl, rfl, rfl, rfl, id⟩
      | with_reducible apply Undisturbed.updCommit
      | assumption
      | split

theorem Undisturbed.startTransaction (h : Undisturbed s t) (l : LaneId) (e : LaneEntry)
    (own : s.Bounded → laneOf e.slot = l) : Undisturbed s (t.startTransaction l e) := by
  have k : Undisturbed s (t.updLane l fun lane => { lane with state := .onWire ⟨e, 0, 0, .replyWait, false⟩ }) :=
    h.updLane l _ fun b k => ⟨k.queue, fun x hx => by cases hx; exact ⟨own b, by simp, by simp⟩, nofun⟩
  simp only [State.startTransaction]
  apply Undisturbed.goesOnWire
  split
  · exact k.commitSent _
  · exact k


theorem Undisturbed.passDone (h : Undisturbed s t) (e : LaneEntry) (status : PassStatus) : Undisturbed s (t.passDone e status) := by
  dsimp only [State.passDone]
  repeat'
    first
      | with_reducible exact h
      | with_reducible rfl
      | exact id
      | exact ⟨rfl, rfl, rfl, rfl, rfl, rfl, id⟩
      | with_reducible apply Undisturbed.raise
      | assumption
      | split

theorem Lane.takeUp_state (lane : Lane) (r : TableId) : (lane.takeUp r).state = lane.state := by
  simp only [Lane.takeUp]
  split <;> rfl

theorem Lane.takeUp_queue (lane : Lane) (r : TableId) : (lane.takeUp r).queue = lane.queue := by
  simp only [Lane.takeUp]
  split <;> rfl

/-- The entry found by a search of a table stands in the queue. -/
theorem searchWheel_mem {n : Nat} {b : Bus} {q : List LaneEntry} {table : TableId} {p : Fin 16} {c : Choice}
    (h : searchWheel n b q table p = some c) : c.entry ∈ q := by
  induction n generalizing table p with
  | zero => cases h
  | succ n ih =>
    simp only [searchWheel] at h
    split at h
    · rename_i e
      cases h
      exact List.mem_of_find?_eq_some e
    · exact ih h

/-- The entry a lane takes stands in its queue. -/
theorem State.chooseEntry_mem {l : LaneId} {c : Choice} (h : t.chooseEntry l = some c) : c.entry ∈ (t.lane l).queue := by
  simp only [State.chooseEntry] at h
  split at h
  · rename_i e
    cases h
    split at e
    · exact List.mem_of_find?_eq_some e
    · cases e
  · exact searchWheel_mem h

theorem Undisturbed.takeEntryN (h : Undisturbed s t) (n : Nat) (l : LaneId) :
    Undisturbed s (State.takeEntryN n t l) := by
  induction n generalizing t with
  | zero => exact h
  | succ n ih =>
    simp only [State.takeEntryN]
    split
    · refine h.updLane l _ fun _ k => ⟨?_, ?_, ?_⟩
      · simpa only [Lane.takeUp_queue] using k.queue
      · simpa only [Lane.takeUp_state] using k.wire
      · simpa only [Lane.takeUp_state] using k.held
    · split
      · exact h
      · rename_i c hc
        have k := h.updLane l (fun lane =>
          { lane with
            queue := lane.queue.eraseP fun e => e.laneClass = c.entry.laneClass
            wheel := c.wheel
            inUse := c.inUse }) (fun _ k => ⟨fun e he => k.queue e (List.mem_of_mem_eraseP he), k.wire, k.held⟩)
        split
        · exact ih (k.passDone _ _)
        · exact k.startTransaction _ _ fun b => ((h.bounded b).lanes l).queue _ (State.chooseEntry_mem hc)


theorem Undisturbed.takeEntry (h : Undisturbed s t) (l : LaneId) : Undisturbed s (t.takeEntry l) := h.takeEntryN _ l


theorem Undisturbed.laneFree (h : Undisturbed s t) (l : LaneId) : Undisturbed s (t.laneFree l) :=
  (h.updLane l _ fun _ k => ⟨k.queue, fun _ hx => (by cases hx), fun _ hx => (by cases hx)⟩).takeEntry l


theorem Undisturbed.enqueue (h : Undisturbed s t) (e : LaneEntry) : Undisturbed s (t.enqueue e) := by
  have k : Undisturbed s (t.updLane (laneOf e.slot) fun lane => { lane with queue := lane.queue ++ [e] }) :=
    h.updLane _ _ fun _ k => ⟨by
      intro x hx
      rcases List.mem_append.1 hx with hx | hx
      · exact k.queue x hx
      · rw [List.mem_singleton.1 hx], k.wire, k.held⟩
  dsimp only [State.enqueue]
  split
  · exact k.takeEntry _
  · exact k

theorem Undisturbed.dropEntries (h : Undisturbed s t) (i : SlotId) (drop : LaneClass → Bool) :
    Undisturbed s (t.dropEntries i drop) :=
  h.updLane _ _ fun _ k => ⟨fun e he => k.queue e (List.mem_filter.1 he).1, k.wire, k.held⟩

theorem Undisturbed.requestMark (h : Undisturbed s t) (i : SlotId) (m : TagMark) : Undisturbed s (t.requestMark i m) := by
  dsimp only [State.requestMark]
  repeat'
    first
      | with_reducible exact h
      | with_reducible rfl
      | exact id
      | exact ⟨rfl, rfl, rfl, rfl, rfl, rfl, id⟩
      | with_reducible apply Undisturbed.enqueue
      | with_reducible apply Undisturbed.setWanted
      | assumption
      | split

theorem Undisturbed.markWritten (h : Undisturbed s t) (i : SlotId) (m : TagMark) : Undisturbed s (t.markWritten i m) := by
  dsimp only [State.markWritten]
  repeat'
    first
      | with_reducible exact h
      | with_reducible rfl
      | exact id
      | exact ⟨rfl, rfl, rfl, rfl, rfl, rfl, id⟩
      | with_reducible apply Undisturbed.updSlot
      | assumption
      | split

theorem Undisturbed.markEnded (h : Undisturbed s t) (i : SlotId) (m : TagMark) : Undisturbed s (t.markEnded i m) := by
  dsimp only [State.markEnded]
  repeat'
    first
      | with_reducible exact h
      | with_reducible rfl
      | exact id
      | exact ⟨rfl, rfl, rfl, rfl, rfl, rfl, id⟩
      | with_reducible apply Undisturbed.setWanted
      | with_reducible apply Undisturbed.enqueue
      | assumption
      | split

/-! ## Commits -/

theorem Undisturbed.takeCommit (h : Undisturbed s t) (i : SlotId) : Undisturbed s (t.takeCommit i) := by
  dsimp only [State.takeCommit]
  repeat'
    first
      | with_reducible exact h
      | with_reducible rfl
      | exact id
      | exact ⟨rfl, rfl, rfl, rfl, rfl, rfl, id⟩
      | with_reducible apply Undisturbed.nonceDrawn
      | with_reducible apply Undisturbed.updCommit
      | with_reducible apply Undisturbed.enqueue
      | assumption
      | split

theorem LaneEntry.enlarged_slot (e : LaneEntry) (i : SlotId) (advance : Nat) : (e.enlarged i advance).slot = e.slot := by
  simp only [LaneEntry.enlarged]
  repeat' split
  all_goals rfl

theorem Undisturbed.enlargeCommit (h : Undisturbed s t) (i : SlotId) : Undisturbed s (t.enlargeCommit i) := by
  dsimp only [State.enlargeCommit]
  refine (h.updCommit i _ id).updLane _ _ fun _ k => ⟨fun e he => ?_, k.wire, k.held⟩
  obtain ⟨x, hx, rfl⟩ := List.mem_map.1 he
  rw [LaneEntry.enlarged_slot]
  exact k.queue x hx

theorem Undisturbed.actTrigger (h : Undisturbed s t) (i : SlotId) (forced : Bool) : Undisturbed s (t.actTrigger i forced) := by
  dsimp only [State.actTrigger]
  repeat'
    first
      | with_reducible exact h
      | with_reducible rfl
      | exact id
      | exact ⟨rfl, rfl, rfl, rfl, rfl, rfl, id⟩
      | with_reducible apply Undisturbed.takeCommit
      | with_reducible apply Undisturbed.enlargeCommit
      | with_reducible apply Undisturbed.updCommit
      | assumption
      | split

theorem Undisturbed.forcedTrigger (h : Undisturbed s t) (i : SlotId) : Undisturbed s (t.forcedTrigger i) := by
  dsimp only [State.forcedTrigger]
  repeat'
    first
      | with_reducible exact h
      | with_reducible rfl
      | exact id
      | exact ⟨rfl, rfl, rfl, rfl, rfl, rfl, id⟩
      | with_reducible apply Undisturbed.actTrigger
      | assumption
      | split

theorem Undisturbed.stepTrigger (h : Undisturbed s t) (i : SlotId) : Undisturbed s (t.stepTrigger i) := by
  dsimp only [State.stepTrigger]
  repeat'
    first
      | with_reducible exact h
      | with_reducible rfl
      | exact id
      | exact ⟨rfl, rfl, rfl, rfl, rfl, rfl, id⟩
      | with_reducible apply Undisturbed.actTrigger
      | assumption
      | split

theorem Undisturbed.withdrawCommit (h : Undisturbed s t) (i : SlotId) : Undisturbed s (t.withdrawCommit i) := by
  dsimp only [State.withdrawCommit]
  repeat'
    first
      | with_reducible exact h
      | with_reducible rfl
      | exact id
      | exact ⟨rfl, rfl, rfl, rfl, rfl, rfl, id⟩
      | with_reducible apply Undisturbed.dropEntries
      | with_reducible apply Undisturbed.updCommit
      | assumption
      | split

theorem Undisturbed.landed (h : Undisturbed s t) (i : SlotId) : Undisturbed s (t.landed i) := by
  dsimp only [State.landed]
  repeat'
    first
      | with_reducible exact h
      | with_reducible rfl
      | exact id
      | exact ⟨rfl, rfl, rfl, rfl, rfl, rfl, id⟩
      | with_reducible apply Undisturbed.updCommit
      | assumption
      | split

theorem Undisturbed.actAgain (h : Undisturbed s t) (i : SlotId) : Undisturbed s (t.actAgain i) := by
  dsimp only [State.actAgain]
  repeat'
    first
      | with_reducible exact h
      | with_reducible rfl
      | exact id
      | exact ⟨rfl, rfl, rfl, rfl, rfl, rfl, id⟩
      | with_reducible apply Undisturbed.updCommit
      | with_reducible apply Undisturbed.stepTrigger
      | with_reducible apply Undisturbed.forcedTrigger
      | assumption
      | split

/-! ## EngineOps -/

theorem Undisturbed.commitChecking (h : Undisturbed s t) (j : Job) : Undisturbed s (t.commitChecking j) := by
  dsimp only [State.commitChecking]
  repeat'
    first
      | with_reducible exact h
      | with_reducible rfl
      | exact id
      | exact ⟨rfl, rfl, rfl, rfl, rfl, rfl, id⟩
      | with_reducible apply Undisturbed.updCommit
      | assumption
      | split

theorem Undisturbed.joinEngine (h : Undisturbed s t) (j : Job) : Undisturbed s (t.joinEngine j) := by
  dsimp only [State.joinEngine]
  repeat'
    first
      | with_reducible exact h
      | with_reducible rfl
      | exact id
      | exact ⟨rfl, rfl, rfl, rfl, rfl, rfl, id⟩
      | with_reducible apply Undisturbed.updEngine
      | with_reducible apply Undisturbed.commitChecking
      | assumption
      | split

theorem Undisturbed.offerJob (h : Undisturbed s t) (l : LaneId) (j : Job) (own : s.Bounded → laneOf j.slot = l) :
    Undisturbed s (t.offerJob l j) := by
  simp only [State.offerJob]
  split
  · exact (h.joinEngine j).laneFree l
  · exact (h.updLane l _ fun b k =>
      ⟨k.queue, fun _ hx => (by cases hx), fun _ hx => by cases hx; exact own b⟩).updEngine _


theorem Undisturbed.placeFreed (h : Undisturbed s t) : Undisturbed s t.placeFreed := by
  dsimp only [State.placeFreed]
  repeat'
    first
      | with_reducible exact h
      | with_reducible rfl
      | exact id
      | exact ⟨rfl, rfl, rfl, rfl, rfl, rfl, id⟩
      | with_reducible apply Undisturbed.updEngine
      | with_reducible apply Undisturbed.joinEngine
      | with_reducible apply Undisturbed.laneFree
      | assumption
      | split

theorem Undisturbed.startNextJob (h : Undisturbed s t) : Undisturbed s t.startNextJob := by
  dsimp only [State.startNextJob]
  repeat'
    first
      | with_reducible exact h
      | with_reducible rfl
      | exact id
      | exact ⟨rfl, rfl, rfl, rfl, rfl, rfl, id⟩
      | with_reducible apply Undisturbed.updEngine
      | with_reducible apply Undisturbed.placeFreed
      | assumption
      | split

theorem Undisturbed.withdrawJobs (h : Undisturbed s t) (i : SlotId) (all : Bool) : Undisturbed s (t.withdrawJobs i all) := by
  dsimp only [State.withdrawJobs]
  repeat'
    first
      | with_reducible exact h
      | with_reducible rfl
      | exact id
      | exact ⟨rfl, rfl, rfl, rfl, rfl, rfl, id⟩
      | with_reducible apply Undisturbed.updEngine
      | with_reducible apply Undisturbed.placeFreed
      | assumption
      | split

theorem Undisturbed.dropHeld (h : Undisturbed s t) (i : SlotId) (all : Bool) : Undisturbed s (t.dropHeld i all) := by
  dsimp only [State.dropHeld]
  repeat'
    first
      | with_reducible exact h
      | with_reducible rfl
      | exact id
      | exact ⟨rfl, rfl, rfl, rfl, rfl, rfl, id⟩
      | with_reducible apply Undisturbed.updEngine
      | with_reducible apply Undisturbed.laneFree
      | assumption
      | split

theorem Undisturbed.abandonTransaction (h : Undisturbed s t) (i : SlotId) :
    Undisturbed s (t.abandonTransaction i) := by
  refine h.updLane _ _ fun _ k => ?_
  split
  · rename_i y e
    split
    · exact ⟨k.queue, fun x hx => by cases hx; exact k.wire y e, nofun⟩
    · exact k
  · exact k


theorem Undisturbed.abandonAdmission (h : Undisturbed s t) (i : SlotId) : Undisturbed s (t.abandonAdmission i) := by
  dsimp only [State.abandonAdmission]
  repeat'
    first
      | with_reducible exact h
      | with_reducible rfl
      | exact id
      | exact ⟨rfl, rfl, rfl, rfl, rfl, rfl, id⟩
      | with_reducible apply Undisturbed.dropEntries
      | with_reducible apply Undisturbed.abandonTransaction
      | with_reducible apply Undisturbed.withdrawJobs
      | with_reducible apply Undisturbed.dropHeld
      | with_reducible apply Undisturbed.dropAdmissionReason
      | assumption
      | split

theorem Undisturbed.abortTransaction (h : Undisturbed s t) (i : SlotId) : Undisturbed s (t.abortTransaction i) := by
  dsimp only [State.abortTransaction]
  repeat'
    first
      | with_reducible exact h
      | with_reducible rfl
      | exact id
      | exact ⟨rfl, rfl, rfl, rfl, rfl, rfl, id⟩
      | with_reducible apply Undisturbed.laneFree
      | assumption
      | split

theorem Undisturbed.removeWork (h : Undisturbed s t) (i : SlotId) : Undisturbed s (t.removeWork i) := by
  simp only [State.removeWork]
  apply Undisturbed.wanted
  apply Undisturbed.withdrawJobs
  apply Undisturbed.dropHeld
  apply Undisturbed.abortTransaction
  apply Undisturbed.foldl
  · exact h.dropEntries _ _
  · exact fun _ _ k => k.passDone _ _


/-! ## Reservations -/

theorem Undisturbed.grantTested (h : Undisturbed s t) (c : ChannelId) (size : Nat) : Undisturbed s (t.grantTested c size) := by
  dsimp only [State.grantTested]
  repeat'
    first
      | with_reducible exact h
      | with_reducible rfl
      | exact id
      | exact ⟨rfl, rfl, rfl, rfl, rfl, rfl, id⟩
      | with_reducible apply Undisturbed.updChannel
      | assumption
      | split

theorem Undisturbed.clearTest (h : Undisturbed s t) (c : ChannelId) : Undisturbed s (t.clearTest c) := by
  refine h.updChannel c _ ?_
  split
  · exact ⟨rfl, rfl, rfl, rfl, rfl, rfl, id⟩
  · exact ChannelKept.refl _


theorem Undisturbed.headTestN (h : Undisturbed s t) (n : Nat) (c : ChannelId) :
    Undisturbed s (State.headTestN n t c) := by
  induction n generalizing t with
  | zero => exact h
  | succ n ih =>
    simp only [State.headTestN]
    split
    · exact h
    · split
      · apply ih
        apply Undisturbed.raise
        exact h.updChannel c _ ⟨rfl, rfl, rfl, rfl, rfl, rfl, id⟩
      · exact h.grantTested c _


theorem Undisturbed.headTest (h : Undisturbed s t) (c : ChannelId) : Undisturbed s (t.headTest c) := h.headTestN _ c


theorem Undisturbed.unreserved (h : Undisturbed s t) (c : ChannelId) (part : Nat) :
    Undisturbed s (t.unreserved c part) := by
  have k : Undisturbed s (t.updVolume c fun v =>
      { v with unreservedDraw := satAdd Config.max48 v.unreservedDraw part }) :=
    h.updChannel c _ ⟨rfl, rfl, rfl, rfl, rfl, rfl, id⟩
  simp only [State.unreserved]
  split
  · exact k
  · exact Undisturbed.raise (k.updChannel c _ ⟨rfl, rfl, rfl, rfl, rfl, rfl, id⟩) _


theorem Undisturbed.draw (h : Undisturbed s t) (c : ChannelId) (amount : Nat) : Undisturbed s (t.draw c amount) := by
  dsimp only [State.draw]
  repeat'
    first
      | with_reducible exact h
      | with_reducible rfl
      | exact id
      | exact ⟨rfl, rfl, rfl, rfl, rfl, rfl, id⟩
      | with_reducible apply Undisturbed.updChannel
      | with_reducible apply Undisturbed.unreserved
      | with_reducible apply Undisturbed.clearTest
      | with_reducible apply Undisturbed.headTest
      | assumption
      | split

theorem Undisturbed.leaveList (h : Undisturbed s t) (c : ChannelId) (id : Nat) : Undisturbed s (t.leaveList c id) :=
  h.updChannel c _ ⟨rfl, rfl, rfl, rfl, rfl, rfl, fun k => k⟩


/-! ## Channels -/

theorem Undisturbed.toServing (h : Undisturbed s t) (i : SlotId) : Undisturbed s (t.toServing i) := by
  dsimp only [State.toServing]
  repeat'
    first
      | with_reducible exact h
      | with_reducible rfl
      | exact id
      | exact ⟨rfl, rfl, rfl, rfl, rfl, rfl, id⟩
      | with_reducible apply Undisturbed.moveSlot
      | assumption
      | split

theorem Undisturbed.toReady (h : Undisturbed s t) (i : SlotId) : Undisturbed s (t.toReady i) := by
  dsimp only [State.toReady]
  repeat'
    first
      | with_reducible exact h
      | with_reducible rfl
      | exact id
      | exact ⟨rfl, rfl, rfl, rfl, rfl, rfl, id⟩
      | with_reducible apply Undisturbed.moveSlot
      | with_reducible apply Undisturbed.forcedTrigger
      | assumption
      | split

theorem Undisturbed.applySplit (h : Undisturbed s t) (c : ChannelId) (drewFrom drawsFrom : Option SlotId) : Undisturbed s (t.applySplit c drewFrom drawsFrom) := by
  refine Undisturbed.foldl _ _ (h.updChannel c _ ⟨rfl, rfl, rfl, rfl, rfl, rfl, id⟩) fun _ _ k => k.raise _


theorem Undisturbed.completeSwitch (h : Undisturbed s t) (c : ChannelId) (old new : SlotId) : Undisturbed s (t.completeSwitch c old new) := by
  refine Undisturbed.headTest (Undisturbed.raise (Undisturbed.updChannel ((h.toReady old).toServing new) c _ ?_) _) c
  exact ⟨rfl, rfl, rfl, rfl, rfl, rfl, fun _ => by simp [Channel.permitLawful, Channel.supplied]⟩


theorem Undisturbed.completionTest (h : Undisturbed s t) (c : ChannelId) : Undisturbed s (t.completionTest c) := by
  dsimp only [State.completionTest]
  repeat'
    first
      | with_reducible exact h
      | with_reducible rfl
      | exact id
      | exact ⟨rfl, rfl, rfl, rfl, rfl, rfl, id⟩
      | with_reducible apply Undisturbed.completeSwitch
      | assumption
      | split

theorem State.switchWanted_supplied {t : State} {c : ChannelId} {j : SlotId} (e : t.switchWanted c = some j) :
    (t.channel c).state = .supplied := by
  simp only [State.switchWanted] at e
  split at e
  · assumption
  · cases e

theorem Undisturbed.plannedSwitch (h : Undisturbed s t) (c : ChannelId) : Undisturbed s (t.plannedSwitch c) := by
  simp only [State.plannedSwitch]
  split
  · rename_i j e
    refine Undisturbed.completionTest (Undisturbed.raise (h.updChannel c _ ?_) _) c
    exact ⟨rfl, rfl, rfl, rfl, rfl, rfl, fun k => by
      simpa [Channel.permitLawful, State.switchWanted_supplied e] using k⟩
  · exact h


theorem Undisturbed.cancelSwitch (h : Undisturbed s t) (c : ChannelId) (hs : (t.channel c).state = .switching) : Undisturbed s (t.cancelSwitch c) := by
  refine Undisturbed.headTest (Undisturbed.raise (h.updChannel c _ ?_) _) c
  exact ⟨rfl, rfl, rfl, rfl, rfl, rfl, fun k => by simpa [Channel.permitLawful, hs] using k⟩


theorem Undisturbed.targetTest (h : Undisturbed s t) (c : ChannelId) : Undisturbed s (t.targetTest c) := by
  simp only [State.targetTest]
  split
  · split
    · exact h
    · rename_i e _ _
      exact h.cancelSwitch c e
  · exact h


theorem Undisturbed.levelCancelTest (h : Undisturbed s t) (c : ChannelId) : Undisturbed s (t.levelCancelTest c) := by
  simp only [State.levelCancelTest]
  split
  · split
    · rename_i e _ _ _
      exact h.cancelSwitch c e
    · exact h
  · exact h


theorem Undisturbed.select (h : Undisturbed s t) (c : ChannelId) : Undisturbed s (t.select c) := by
  simp only [State.select]
  split
  · split
    · refine Undisturbed.plannedSwitch (Undisturbed.headTest (Undisturbed.raise (Undisturbed.applySplit
        (Undisturbed.updChannel (h.toServing _) c _ ?_) c _ _) _) c) c
      exact ⟨rfl, rfl, rfl, rfl, rfl, rfl, fun _ => by simp [Channel.permitLawful, Channel.supplied]⟩
    · exact h
  · exact h


theorem Undisturbed.offerReady (h : Undisturbed s t) (i : SlotId) : Undisturbed s (t.offerReady i) := by
  dsimp only [State.offerReady]
  repeat'
    first
      | with_reducible exact h
      | with_reducible rfl
      | exact id
      | exact ⟨rfl, rfl, rfl, rfl, rfl, rfl, id⟩
      | with_reducible apply Undisturbed.select
      | with_reducible apply Undisturbed.plannedSwitch
      | with_reducible apply Undisturbed.headTest
      | assumption
      | split

theorem Undisturbed.drawNext (h : Undisturbed s t) (c : ChannelId) (pick : Option SlotId) :
    Undisturbed s (t.drawNext c pick) := by
  cases pick with
  | some j =>
    refine Undisturbed.updChannel (h.toServing j) c _ ?_
    exact ⟨rfl, rfl, rfl, rfl, rfl, rfl, fun _ => by simp [Channel.permitLawful, Channel.supplied]⟩
  | none =>
    refine h.updChannel c _ ?_
    exact ⟨rfl, rfl, rfl, rfl, rfl, rfl, fun _ => by simp [Channel.permitLawful, Channel.unsupplied]⟩

theorem Undisturbed.failover (h : Undisturbed s t) (c : ChannelId) (old : SlotId) (reason : LeaveReason) :
    Undisturbed s (t.failover c old reason) :=
  .plannedSwitch (.headTest (.raise ((h.drawNext c _).applySplit c _ _) _) c) c

theorem Undisturbed.slotLeft (h : Undisturbed s t) (i : SlotId) (reason : LeaveReason) : Undisturbed s (t.slotLeft i reason) := by
  dsimp only [State.slotLeft]
  repeat'
    first
      | with_reducible exact h
      | with_reducible rfl
      | exact id
      | exact ⟨rfl, rfl, rfl, rfl, rfl, rfl, id⟩
      | with_reducible apply Undisturbed.failover
      | with_reducible apply Undisturbed.targetTest
      | assumption
      | split

theorem Undisturbed.rejectSlot (h : Undisturbed s t) (i : SlotId) (why : RejectReason) : Undisturbed s (t.rejectSlot i why) := by
  dsimp only [State.rejectSlot]
  repeat'
    first
      | with_reducible exact h
      | with_reducible rfl
      | exact id
      | exact ⟨rfl, rfl, rfl, rfl, rfl, rfl, id⟩
      | with_reducible apply Undisturbed.moveSlot
      | with_reducible apply Undisturbed.withdrawCommit
      | assumption
      | split

theorem Undisturbed.faultSlot (h : Undisturbed s t) (i : SlotId) (why : FaultReason) : Undisturbed s (t.faultSlot i why) := by
  dsimp only [State.faultSlot]
  repeat'
    first
      | with_reducible exact h
      | with_reducible rfl
      | exact id
      | exact ⟨rfl, rfl, rfl, rfl, rfl, rfl, id⟩
      | with_reducible apply Undisturbed.moveSlot
      | with_reducible apply Undisturbed.withdrawCommit
      | assumption
      | split

theorem Undisturbed.inkTest (h : Undisturbed s t) (i : SlotId) : Undisturbed s (t.inkTest i) := by
  dsimp only [State.inkTest]
  repeat'
    first
      | with_reducible exact h
      | with_reducible rfl
      | exact id
      | exact ⟨rfl, rfl, rfl, rfl, rfl, rfl, id⟩
      | with_reducible apply Undisturbed.abandonAdmission
      | with_reducible apply Undisturbed.rejectSlot
      | assumption
      | split

theorem Undisturbed.formBand (h : Undisturbed s t) (i : SlotId) : Undisturbed s (t.formBand i) := by
  dsimp only [State.formBand]
  repeat'
    first
      | with_reducible exact h
      | with_reducible rfl
      | exact id
      | exact ⟨rfl, rfl, rfl, rfl, rfl, rfl, id⟩
      | with_reducible apply Undisturbed.updSlot
      | with_reducible apply Undisturbed.raise
      | assumption
      | split

theorem Undisturbed.slotSpent (h : Undisturbed s t) (i : SlotId) : Undisturbed s (t.slotSpent i) := by
  dsimp only [State.slotSpent]
  repeat'
    first
      | with_reducible exact h
      | with_reducible rfl
      | exact id
      | exact ⟨rfl, rfl, rfl, rfl, rfl, rfl, id⟩
      | with_reducible apply Undisturbed.moveSlot
      | with_reducible apply Undisturbed.forcedTrigger
      | with_reducible apply Undisturbed.requestMark
      | with_reducible apply Undisturbed.slotLeft
      | assumption
      | split

/-! ## Charging -/

theorem Undisturbed.spentTest (h : Undisturbed s t) (i : SlotId) : Undisturbed s (t.spentTest i) := by
  dsimp only [State.spentTest]
  repeat'
    first
      | with_reducible exact h
      | with_reducible rfl
      | exact id
      | exact ⟨rfl, rfl, rfl, rfl, rfl, rfl, id⟩
      | with_reducible apply Undisturbed.slotSpent
      | assumption
      | split

theorem Undisturbed.slotCharged (h : Undisturbed s t) (i : SlotId) : Undisturbed s (t.slotCharged i) := by
  dsimp only [State.slotCharged]
  repeat'
    first
      | with_reducible exact h
      | with_reducible rfl
      | exact id
      | exact ⟨rfl, rfl, rfl, rfl, rfl, rfl, id⟩
      | with_reducible apply Undisturbed.formBand
      | with_reducible apply Undisturbed.stepTrigger
      | with_reducible apply Undisturbed.spentTest
      | assumption
      | split

theorem Undisturbed.channelCharged (h : Undisturbed s t) (c : ChannelId) : Undisturbed s (t.channelCharged c) := by
  dsimp only [State.channelCharged]
  repeat'
    first
      | with_reducible exact h
      | with_reducible rfl
      | exact id
      | exact ⟨rfl, rfl, rfl, rfl, rfl, rfl, id⟩
      | with_reducible apply Undisturbed.completionTest
      | with_reducible apply Undisturbed.plannedSwitch
      | assumption
      | split

/-! ## Admission -/

theorem Undisturbed.enterReading (h : Undisturbed s t) (i : SlotId) : Undisturbed s (t.enterReading i) := by
  dsimp only [State.enterReading]
  repeat'
    first
      | with_reducible exact h
      | with_reducible rfl
      | exact id
      | exact ⟨rfl, rfl, rfl, rfl, rfl, rfl, id⟩
      | with_reducible apply Undisturbed.moveSlot
      | with_reducible apply Undisturbed.enqueue
      | assumption
      | split

theorem Undisturbed.seat (h : Undisturbed s t) (i : SlotId) (f : SlotRecord → SlotRecord) : Undisturbed s (t.seat i f) := by
  dsimp only [State.seat]
  repeat'
    first
      | with_reducible exact h
      | with_reducible rfl
      | exact id
      | exact ⟨rfl, rfl, rfl, rfl, rfl, rfl, id⟩
      | with_reducible apply Undisturbed.moveSlot
      | with_reducible apply Undisturbed.enterReading
      | assumption
      | split

theorem Undisturbed.requestChallenge (h : Undisturbed s t) (i : SlotId) : Undisturbed s (t.requestChallenge i) := by
  dsimp only [State.requestChallenge]
  repeat'
    first
      | with_reducible exact h
      | with_reducible rfl
      | exact id
      | exact ⟨rfl, rfl, rfl, rfl, rfl, rfl, id⟩
      | with_reducible apply Undisturbed.nonceDrawn
      | with_reducible apply Undisturbed.enqueue
      | with_reducible apply Undisturbed.rejectSlot
      | assumption
      | split

theorem Undisturbed.describeReply (h : Undisturbed s t) (i : SlotId) (d : Description) : Undisturbed s (t.describeReply i d) := by
  dsimp only [State.describeReply]
  repeat'
    first
      | with_reducible exact h
      | with_reducible rfl
      | exact id
      | exact ⟨rfl, rfl, rfl, rfl, rfl, rfl, id⟩
      | with_reducible apply Undisturbed.updSlot
      | with_reducible apply Undisturbed.rejectSlot
      | with_reducible apply Undisturbed.moveSlot
      | with_reducible apply Undisturbed.requestChallenge
      | assumption
      | split

theorem Undisturbed.admissionFailed (h : Undisturbed s t) (i : SlotId) (why : FaultReason) : Undisturbed s (t.admissionFailed i why) := by
  dsimp only [State.admissionFailed]
  repeat'
    first
      | with_reducible exact h
      | with_reducible rfl
      | exact id
      | exact ⟨rfl, rfl, rfl, rfl, rfl, rfl, id⟩
      | with_reducible apply Undisturbed.faultSlot
      | assumption
      | split

theorem Undisturbed.rollback (h : Undisturbed s t) (i : SlotId) (d : Description) (p : PlaceId) (e : HistoryEntry) : Undisturbed s (t.rollback i d p e) := by
  dsimp only [State.rollback]
  repeat'
    first
      | with_reducible exact h
      | with_reducible rfl
      | exact id
      | exact ⟨rfl, rfl, rfl, rfl, rfl, rfl, id⟩
      | with_reducible apply Undisturbed.editEntry
      | with_reducible apply Undisturbed.rejectSlot
      | with_reducible apply Undisturbed.raise
      | assumption
      | split

theorem Undisturbed.setReconciled (h : Undisturbed s t) (i : SlotId) (committed uncommitted : Nat) : Undisturbed s (t.setReconciled i committed uncommitted) := by
  dsimp only [State.setReconciled]
  repeat'
    first
      | with_reducible exact h
      | with_reducible rfl
      | exact id
      | exact ⟨rfl, rfl, rfl, rfl, rfl, rfl, id⟩
      | with_reducible apply Undisturbed.updSlot
      | with_reducible apply Undisturbed.stampUsed
      | assumption
      | split

theorem Undisturbed.enterSensing (h : Undisturbed s t) (i : SlotId) : Undisturbed s (t.enterSensing i) := by
  dsimp only [State.enterSensing]
  repeat'
    first
      | with_reducible exact h
      | with_reducible rfl
      | exact id
      | exact ⟨rfl, rfl, rfl, rfl, rfl, rfl, id⟩
      | with_reducible apply Undisturbed.moveSlot
      | with_reducible apply Undisturbed.requestAdmission
      | assumption
      | split

theorem Undisturbed.entryPasses (h : Undisturbed s t) (i : SlotId) (d : Description) (p : PlaceId) (uncommitted : Nat) : Undisturbed s (t.entryPasses i d p uncommitted) := by
  dsimp only [State.entryPasses]
  repeat'
    first
      | with_reducible exact h
      | with_reducible rfl
      | exact id
      | exact ⟨rfl, rfl, rfl, rfl, rfl, rfl, id⟩
      | with_reducible apply Undisturbed.setReconciled
      | with_reducible apply Undisturbed.roomForStamp
      | with_reducible apply Undisturbed.stampTaken
      | with_reducible apply Undisturbed.editEntry
      | with_reducible apply Undisturbed.enterSensing
      | assumption
      | split

theorem Undisturbed.entryMade (h : Undisturbed s t) (i : SlotId) (d : Description) (named : Option PlaceId) :
    Undisturbed s (t.entryMade i d named) := by
  have rest {u : State} (k : Undisturbed s u) (p : PlaceId) (n m : Nat) (e : Option HistoryEntry) :
      Undisturbed s ((((u.setReconciled i n m).roomForStamp.stampTaken).writePlace p e false).enterSensing i) :=
    ((((k.setReconciled i n m).roomForStamp).stampTaken).writePlace p e false).enterSensing i
  rw [State.entryMade]
  split
  rename_i u place e
  have k : Undisturbed s u := by
    split at e
    · cases e
      exact Undisturbed.freeDraws h _
    · have k := h.evict
      rw [e] at k
      exact k
  split
  · exact k
  · exact rest k _ _ _ _


theorem Undisturbed.reconcile (h : Undisturbed s t) (i : SlotId) (d : Description) (named : Option PlaceId) : Undisturbed s (t.reconcile i d named) := by
  dsimp only [State.reconcile]
  repeat'
    first
      | with_reducible exact h
      | with_reducible rfl
      | exact id
      | exact ⟨rfl, rfl, rfl, rfl, rfl, rfl, id⟩
      | with_reducible apply Undisturbed.entryMade
      | with_reducible apply Undisturbed.rollback
      | with_reducible apply Undisturbed.forfeit
      | with_reducible apply Undisturbed.entryPasses
      | assumption
      | split

theorem Undisturbed.challengeResult (h : Undisturbed s t) (i : SlotId) (isMatch : Bool) (named : Option PlaceId) : Undisturbed s (t.challengeResult i isMatch named) := by
  dsimp only [State.challengeResult]
  repeat'
    first
      | with_reducible exact h
      | with_reducible rfl
      | exact id
      | exact ⟨rfl, rfl, rfl, rfl, rfl, rfl, id⟩
      | with_reducible apply Undisturbed.reconcile
      | with_reducible apply Undisturbed.rejectSlot
      | assumption
      | split

theorem Undisturbed.setRefillSeen (h : Undisturbed s t) (i : SlotId) : Undisturbed s (t.setRefillSeen i) := by
  dsimp only [State.setRefillSeen]
  repeat'
    first
      | with_reducible exact h
      | with_reducible rfl
      | exact id
      | exact ⟨rfl, rfl, rfl, rfl, rfl, rfl, id⟩
      | with_reducible apply Undisturbed.editEntry
      | assumption
      | split

theorem Undisturbed.admitSlot (h : Undisturbed s t) (i : SlotId) (q : Quality) : Undisturbed s (t.admitSlot i q) := by
  have tail {u : State} (k : Undisturbed s u) :
      Undisturbed s (if (u.slot i).state = .ready then u.offerReady i else u) := by
    split
    · exact k.offerReady i
    · exact k
  have marks {u : State} (k : Undisturbed s u) :
      Undisturbed s (if q = .refilled then u.requestMark i .refill else u) := by
    split
    · exact k.requestMark _ _
    · exact k
  rw [State.admitSlot]
  refine tail (marks ?_)
  split
  · exact Undisturbed.requestMark (Undisturbed.forcedTrigger (h.moveSlot i _) i) i _
  · exact Undisturbed.stepTrigger (h.moveSlot i _) i


theorem Undisturbed.admissionResult (h : Undisturbed s t) (i : SlotId) (sensed : Option Nat) : Undisturbed s (t.admissionResult i sensed) := by
  dsimp only [State.admissionResult]
  repeat'
    first
      | with_reducible exact h
      | with_reducible rfl
      | exact id
      | exact ⟨rfl, rfl, rfl, rfl, rfl, rfl, id⟩
      | with_reducible apply Undisturbed.updSlot
      | with_reducible apply Undisturbed.setRefillSeen
      | with_reducible apply Undisturbed.admitSlot
      | with_reducible apply Undisturbed.raise
      | with_reducible apply Undisturbed.requestMark
      | with_reducible apply Undisturbed.rejectSlot
      | assumption
      | split

theorem Undisturbed.detection (h : Undisturbed s t) (i : SlotId) (sensed expected : Nat) (policy : RefillPolicy) : Undisturbed s (t.detection i sensed expected policy) := by
  dsimp only [State.detection]
  repeat'
    first
      | with_reducible exact h
      | with_reducible rfl
      | exact id
      | exact ⟨rfl, rfl, rfl, rfl, rfl, rfl, id⟩
      | with_reducible apply Undisturbed.updSlot
      | with_reducible apply Undisturbed.setRefillSeen
      | with_reducible apply Undisturbed.requestMark
      | with_reducible apply Undisturbed.raise
      | with_reducible apply Undisturbed.rejectSlot
      | with_reducible apply Undisturbed.slotLeft
      | assumption
      | split

theorem Undisturbed.deficitCheck (h : Undisturbed s t) (i : SlotId) (c : ChannelId) (sensed : Nat) :
    Undisturbed s (t.deficitCheck i c sensed) := by
  simp only [State.deficitCheck]
  repeat' split
  all_goals
    first
      | exact Undisturbed.raise (Undisturbed.updSlot (h.updSlotSense i _ rfl rfl id) i _) _
      | exact Undisturbed.updSlot (h.updSlotSense i _ rfl rfl id) i _
      | exact h.updSlotSense i _ rfl rfl id


theorem Undisturbed.riseCheck (h : Undisturbed s t) (i : SlotId) (c : ChannelId) (sensed : Nat) : Undisturbed s (t.riseCheck i c sensed) := by
  dsimp only [State.riseCheck]
  repeat'
    first
      | with_reducible exact h
      | with_reducible rfl
      | exact id
      | exact ⟨rfl, rfl, rfl, rfl, rfl, rfl, id⟩
      | with_reducible apply Undisturbed.updSlotSense
      | with_reducible apply Undisturbed.detection
      | assumption
      | split

theorem Undisturbed.windowCheck (h : Undisturbed s t) (i : SlotId) : Undisturbed s (t.windowCheck i) := by
  dsimp only [State.windowCheck]
  repeat'
    first
      | with_reducible exact h
      | with_reducible rfl
      | exact id
      | exact ⟨rfl, rfl, rfl, rfl, rfl, rfl, id⟩
      | with_reducible apply Undisturbed.updSlot
      | with_reducible apply Undisturbed.deficitCheck
      | with_reducible apply Undisturbed.riseCheck
      | assumption
      | split

theorem Undisturbed.runKept (h : Undisturbed s t) (r : Run) (levels : List Nat) :
    Undisturbed s (t.runKept r levels) := by
  rw [State.runKept]
  split
  · rename_i e
    have k := h.updSlotSense r.request.slot (fun u => { u with ring := levels }) rfl rfl
      fun _ => by rw [e]; exact Nat.le_refl 4
    dsimp only
    split
    · exact k.countHostSense _
    · exact k
  · exact h


theorem Undisturbed.runAdmits (h : Undisturbed s t) (i : SlotId) (levels : List Nat) : Undisturbed s (t.runAdmits i levels) := by
  dsimp only [State.runAdmits]
  repeat'
    first
      | with_reducible exact h
      | with_reducible rfl
      | exact id
      | exact ⟨rfl, rfl, rfl, rfl, rfl, rfl, id⟩
      | with_reducible apply Undisturbed.updSlotSense
      | with_reducible apply Undisturbed.admissionResult
      | assumption
      | split

theorem Undisturbed.endRun (h : Undisturbed s t) (r : Run) : Undisturbed s (t.endRun r) := by
  dsimp only [State.endRun]
  repeat'
    first
      | with_reducible exact h
      | with_reducible rfl
      | exact id
      | exact ⟨rfl, rfl, rfl, rfl, rfl, rfl, id⟩
      | with_reducible apply Undisturbed.updSense
      | with_reducible apply Undisturbed.runKept
      | with_reducible apply Undisturbed.runAdmits
      | assumption
      | split

theorem Undisturbed.runSample (h : Undisturbed s t) (i : SlotId) (sample : Option Nat) : Undisturbed s (t.runSample i sample) := by
  dsimp only [State.runSample]
  repeat'
    first
      | with_reducible exact h
      | with_reducible rfl
      | exact id
      | exact ⟨rfl, rfl, rfl, rfl, rfl, rfl, id⟩
      | with_reducible apply Undisturbed.updSense
      | with_reducible apply Undisturbed.startConversion
      | with_reducible apply Undisturbed.endRun
      | assumption
      | split

theorem Undisturbed.referenceSample (h : Undisturbed s t) (raw : Nat) : Undisturbed s (t.referenceSample raw) := by
  dsimp only [State.referenceSample]
  repeat'
    first
      | with_reducible exact h
      | with_reducible rfl
      | exact id
      | exact ⟨rfl, rfl, rfl, rfl, rfl, rfl, id⟩
      | with_reducible apply Undisturbed.updSense
      | with_reducible apply Undisturbed.raise
      | assumption
      | split

theorem pushRing_length (ring : List Nat) (level : Nat) (h : ring.length ≤ 4) : (pushRing ring level).length ≤ 4 := by
  unfold pushRing Config.runSamples
  split
  · simp; omega
  · simp; omega

theorem Undisturbed.conversionDone (h : Undisturbed s t) (c : Conversion) (raw : Nat) :
    Undisturbed s (t.conversionDone c raw) := by
  have k : Undisturbed s (t.updSense fun u => { u with conversion := none }) := h.updSense _ rfl rfl rfl id
  rw [State.conversionDone]
  split
  · exact k
  · split
    · exact k.referenceSample raw
    · rename_i i _
      have m := k.takeSample i raw c.offset c.gain
      split
      rename_i u sample e
      rw [e] at m
      split
      · exact m.runSample _ _
      · split
        · exact (m.updSlotSense i _ rfl rfl (pushRing_length _ _)).windowCheck i
        · exact m


/-! ## Outcomes -/

theorem Undisturbed.commitFailed (h : Undisturbed s t) (i : SlotId) (cause : CommitCause) (advance : Nat) : Undisturbed s (t.commitFailed i cause advance) := by
  dsimp only [State.commitFailed]
  repeat'
    first
      | with_reducible exact h
      | with_reducible rfl
      | exact id
      | exact ⟨rfl, rfl, rfl, rfl, rfl, rfl, id⟩
      | with_reducible apply Undisturbed.raise
      | assumption
      | split

theorem Undisturbed.commitMatch (h : Undisturbed s t) (i : SlotId) (f : Flight) : Undisturbed s (t.commitMatch i f) := by
  have k := ((h.landed i).updCommit i (fun c => { c with failures := 0, doubtful := none }) (by simp)).updSlot i
    fun r => { r with committed := f.advance, uncommitted := r.uncommitted - f.snapshot }
  simp only [State.commitMatch]
  apply Undisturbed.actAgain
  split
  · exact k.editEntry _ _ _
  · exact k


theorem Undisturbed.barEntry (h : Undisturbed s t) (i : SlotId) : Undisturbed s (t.barEntry i) := by
  dsimp only [State.barEntry]
  repeat'
    first
      | with_reducible exact h
      | with_reducible rfl
      | exact id
      | exact ⟨rfl, rfl, rfl, rfl, rfl, rfl, id⟩
      | with_reducible apply Undisturbed.editEntry
      | assumption
      | split

theorem Undisturbed.commitMismatch (h : Undisturbed s t) (i : SlotId) (f : Flight) : Undisturbed s (t.commitMismatch i f) := by
  dsimp only [State.commitMismatch]
  repeat'
    first
      | with_reducible exact h
      | with_reducible rfl
      | exact id
      | exact ⟨rfl, rfl, rfl, rfl, rfl, rfl, id⟩
      | with_reducible apply Undisturbed.landed
      | with_reducible apply Undisturbed.updCommit
      | with_reducible apply Undisturbed.rejectSlot
      | with_reducible apply Undisturbed.barEntry
      | with_reducible apply Undisturbed.slotLeft
      | with_reducible apply Undisturbed.commitFailed
      | with_reducible apply Undisturbed.actAgain
      | assumption
      | split

theorem Undisturbed.commitRefused (h : Undisturbed s t) (i : SlotId) (f : Flight) : Undisturbed s (t.commitRefused i f) := by
  dsimp only [State.commitRefused]
  repeat'
    first
      | with_reducible exact h
      | with_reducible rfl
      | exact id
      | exact ⟨rfl, rfl, rfl, rfl, rfl, rfl, id⟩
      | with_reducible apply Undisturbed.landed
      | with_reducible apply Undisturbed.faultSlot
      | with_reducible apply Undisturbed.slotLeft
      | with_reducible apply Undisturbed.commitFailed
      | with_reducible apply Undisturbed.actAgain
      | assumption
      | split

theorem Undisturbed.commitTransactionFailed (h : Undisturbed s t) (i : SlotId) (f : Flight) (cause : CommitCause) :
    Undisturbed s (t.commitTransactionFailed i f cause) := by
  have k := (h.landed i).updCommit i (fun c =>
    { c with
      doubtful := raisedDoubt c.doubtful f.advance
      failures := min Config.commitFailures (c.failures + 1) }) (fun _ => by simp [Config.commitFailures])
  simp only [State.commitTransactionFailed]
  split
  · exact (((k.faultSlot i _).slotLeft i _).commitFailed i _ _).actAgain i
  · exact (k.commitFailed i _ _).actAgain i


theorem Undisturbed.handFailure (h : Undisturbed s t) (e : LaneEntry) (why : TagFailure) : Undisturbed s (t.handFailure e why) := by
  dsimp only [State.handFailure]
  repeat'
    first
      | with_reducible exact h
      | with_reducible rfl
      | exact id
      | exact ⟨rfl, rfl, rfl, rfl, rfl, rfl, id⟩
      | with_reducible apply Undisturbed.admissionFailed
      | with_reducible apply Undisturbed.commitTransactionFailed
      | with_reducible apply Undisturbed.markEnded
      | with_reducible apply Undisturbed.passDone
      | assumption
      | split

theorem Undisturbed.transactionFailed (h : Undisturbed s t) (l : LaneId) (x : Transaction) (why : TagFailure) : Undisturbed s (t.transactionFailed l x why) := by
  dsimp only [State.transactionFailed]
  repeat'
    first
      | with_reducible exact h
      | with_reducible rfl
      | exact id
      | exact ⟨rfl, rfl, rfl, rfl, rfl, rfl, id⟩
      | with_reducible apply Undisturbed.handFailure
      | with_reducible apply Undisturbed.laneFree
      | assumption
      | split

theorem Undisturbed.handReply (h : Undisturbed s t) (e : LaneEntry) (reply : UsableReply) : Undisturbed s (t.handReply e reply) := by
  dsimp only [State.handReply]
  repeat'
    first
      | with_reducible exact h
      | with_reducible rfl
      | exact id
      | exact ⟨rfl, rfl, rfl, rfl, rfl, rfl, id⟩
      | with_reducible apply Undisturbed.describeReply
      | with_reducible apply Undisturbed.commitRefused
      | with_reducible apply Undisturbed.markWritten
      | with_reducible apply Undisturbed.markEnded
      | with_reducible apply Undisturbed.passDone
      | assumption
      | split

theorem State.jobOf_slot {e : LaneEntry} {w : Word64} {j : Job} (h : t.jobOf e w = some j) : j.slot = e.slot := by
  simp only [State.jobOf] at h
  split at h
  all_goals cases h
  all_goals rfl

theorem Undisturbed.transactionDone (h : Undisturbed s t) (l : LaneId) (x : Transaction) (reply : UsableReply)
    (hx : (t.lane l).state = .onWire x) : Undisturbed s (t.transactionDone l x reply) := by
  dsimp only [State.transactionDone]
  split
  · exact h.laneFree l
  · split
    · split
      · rename_i j hj
        exact h.offerJob l j fun b => by rw [State.jobOf_slot hj]; exact (((h.bounded b).lanes l).wire x hx).1
      · exact h.laneFree l
    · exact (h.handReply _ _).laneFree l

/-- A lane's transaction replaced by one of the same entry that keeps its counts in bounds. -/
theorem Undisturbed.setTransactionOf (h : Undisturbed s t) (l : LaneId) (x y : Transaction)
    (hx : (t.lane l).state = .onWire x) (he : y.entry = x.entry)
    (hy : x.failedAttempts ≤ 2 ∧ x.busyReplies ≤ 8 → y.failedAttempts ≤ 2 ∧ y.busyReplies ≤ 8) :
    Undisturbed s (t.setTransaction l y) :=
  h.updLane l _ fun _ k =>
    ⟨k.queue, fun z hz => by cases hz; exact ⟨he ▸ (k.wire x hx).1, hy (k.wire x hx).2⟩, nofun⟩

theorem Undisturbed.attemptFailed (h : Undisturbed s t) (l : LaneId) (x : Transaction)
    (hx : (t.lane l).state = .onWire x) : Undisturbed s (t.attemptFailed l x) := by
  simp only [State.attemptFailed]
  split
  · rename_i room
    exact h.setTransactionOf l x _ hx rfl fun k => ⟨by simp [Config.attempts] at room ⊢; omega, k.2⟩
  · exact h.transactionFailed l x _


theorem Undisturbed.busyReply (h : Undisturbed s t) (l : LaneId) (x : Transaction)
    (hx : (t.lane l).state = .onWire x) : Undisturbed s (t.busyReply l x) := by
  simp only [State.busyReply]
  split
  · rename_i room
    exact h.setTransactionOf l x _ hx rfl fun k => ⟨k.1, by simp [Config.busyTolerated] at room ⊢; omega⟩
  · exact h.transactionFailed l x _


theorem Undisturbed.handResult (h : Undisturbed s t) (j : Job) (isMatch : Bool) (place : Option PlaceId) : Undisturbed s (t.handResult j isMatch place) := by
  dsimp only [State.handResult]
  repeat'
    first
      | with_reducible exact h
      | with_reducible rfl
      | exact id
      | exact ⟨rfl, rfl, rfl, rfl, rfl, rfl, id⟩
      | with_reducible apply Undisturbed.challengeResult
      | with_reducible apply Undisturbed.commitMatch
      | with_reducible apply Undisturbed.commitMismatch
      | assumption
      | split

theorem Undisturbed.jobDone (h : Undisturbed s t) (r : RunningJob) (place : Option PlaceId) : Undisturbed s (t.jobDone r place) := by
  dsimp only [State.jobDone]
  repeat'
    first
      | with_reducible exact h
      | with_reducible rfl
      | exact id
      | exact ⟨rfl, rfl, rfl, rfl, rfl, rfl, id⟩
      | with_reducible apply Undisturbed.handResult
      | with_reducible apply Undisturbed.startNextJob
      | assumption
      | split

/-! ## HostLinkOps -/

theorem Undisturbed.settle (h : Undisturbed s t) : Undisturbed s t.settle := h.converterWork.startWrite


/-! ## ChannelRequests -/

theorem Undisturbed.inkCodeChanged (h : Undisturbed s t) (c : ChannelId) : Undisturbed s (t.inkCodeChanged c) := by
  dsimp only [State.inkCodeChanged]
  repeat'
    first
      | with_reducible exact h
      | with_reducible rfl
      | exact id
      | exact ⟨rfl, rfl, rfl, rfl, rfl, rfl, id⟩
      | with_reducible apply Undisturbed.targetTest
      | with_reducible apply Undisturbed.failover
      | with_reducible apply Undisturbed.inkTest
      | with_reducible refine Undisturbed.foldl _ _ ?_ fun _ _ _ => ?_
      | assumption
      | split

theorem Undisturbed.levelsChanged (h : Undisturbed s t) (c : ChannelId) : Undisturbed s (t.levelsChanged c) := by
  dsimp only [State.levelsChanged]
  repeat'
    first
      | with_reducible exact h
      | with_reducible rfl
      | exact id
      | exact ⟨rfl, rfl, rfl, rfl, rfl, rfl, id⟩
      | with_reducible apply Undisturbed.formBand
      | with_reducible refine Undisturbed.foldl _ _ ?_ fun _ _ _ => ?_
      | assumption
      | split

theorem Undisturbed.commitStepChanged (h : Undisturbed s t) (c : ChannelId) : Undisturbed s (t.commitStepChanged c) := by
  dsimp only [State.commitStepChanged]
  repeat'
    first
      | with_reducible exact h
      | with_reducible rfl
      | exact id
      | exact ⟨rfl, rfl, rfl, rfl, rfl, rfl, id⟩
      | with_reducible apply Undisturbed.stepTrigger
      | with_reducible refine Undisturbed.foldl _ _ ?_ fun _ _ _ => ?_
      | assumption
      | split

theorem Undisturbed.switchLevelChanged (h : Undisturbed s t) (c : ChannelId) : Undisturbed s (t.switchLevelChanged c) := by
  dsimp only [State.switchLevelChanged]
  repeat'
    first
      | with_reducible exact h
      | with_reducible rfl
      | exact id
      | exact ⟨rfl, rfl, rfl, rfl, rfl, rfl, id⟩
      | with_reducible apply Undisturbed.plannedSwitch
      | with_reducible apply Undisturbed.levelCancelTest
      | assumption
      | split

theorem Undisturbed.thresholdsChanged (h : Undisturbed s t) (c : ChannelId) : Undisturbed s (t.thresholdsChanged c) := by
  dsimp only [State.thresholdsChanged]
  repeat'
    first
      | with_reducible exact h
      | with_reducible rfl
      | exact id
      | exact ⟨rfl, rfl, rfl, rfl, rfl, rfl, id⟩
      | with_reducible apply Undisturbed.clearTest
      | with_reducible apply Undisturbed.headTest
      | assumption
      | split

theorem Undisturbed.settingsAct (h : Undisturbed s t) (c : ChannelId) (old new : ChannelSettings) : Undisturbed s (t.settingsAct c old new) := by
  dsimp only [State.settingsAct]
  repeat'
    first
      | with_reducible exact h
      | with_reducible rfl
      | exact id
      | exact ⟨rfl, rfl, rfl, rfl, rfl, rfl, id⟩
      | with_reducible apply Undisturbed.inkCodeChanged
      | with_reducible apply Undisturbed.levelsChanged
      | with_reducible apply Undisturbed.commitStepChanged
      | with_reducible apply Undisturbed.switchLevelChanged
      | with_reducible apply Undisturbed.thresholdsChanged
      | assumption
      | split

theorem Undisturbed.leavePair (h : Undisturbed s t) (i : SlotId) : Undisturbed s (t.leavePair i) := by
  rw [State.leavePair]
  split
  · exact Undisturbed.moveSlot (Undisturbed.abandonAdmission (h.updSlot i _) i) i _
  · exact h.updSlot i _


theorem Undisturbed.namePair (h : Undisturbed s t) (c : ChannelId) (i : SlotId) : Undisturbed s (t.namePair c i) := by
  dsimp only [State.namePair]
  repeat'
    first
      | with_reducible exact h
      | with_reducible rfl
      | exact id
      | exact ⟨rfl, rfl, rfl, rfl, rfl, rfl, id⟩
      | with_reducible apply Undisturbed.updSlot
      | with_reducible apply Undisturbed.enterReading
      | with_reducible apply Undisturbed.inkTest
      | with_reducible apply Undisturbed.formBand
      | with_reducible apply Undisturbed.stepTrigger
      | assumption
      | split

theorem Undisturbed.afterLeaving (h : Undisturbed s t) (c : ChannelId) : Undisturbed s (t.afterLeaving c) := by
  dsimp only [State.afterLeaving]
  repeat'
    first
      | with_reducible exact h
      | with_reducible rfl
      | exact id
      | exact ⟨rfl, rfl, rfl, rfl, rfl, rfl, id⟩
      | with_reducible apply Undisturbed.completionTest
      | with_reducible apply Undisturbed.clearTest
      | with_reducible apply Undisturbed.headTest
      | assumption
      | split

/-! ## SenseRequests -/

theorem Undisturbed.abandonRunOf (h : Undisturbed s t) (i : SlotId) : Undisturbed s (t.abandonRunOf i) := by
  dsimp only [State.abandonRunOf]
  repeat'
    first
      | with_reducible exact h
      | with_reducible rfl
      | exact id
      | exact ⟨rfl, rfl, rfl, rfl, rfl, rfl, id⟩
      | with_reducible apply Undisturbed.abandonRun
      | assumption
      | split

/-! ## SlotEvents -/

theorem Undisturbed.removeSamples (h : Undisturbed s t) (i : SlotId) : Undisturbed s (t.removeSamples i) :=
  (h.removeSensing i).updSlotSense i _ rfl rfl fun _ => Nat.zero_le _


theorem Undisturbed.removeAccounts (h : Undisturbed s t) (i : SlotId) : Undisturbed s (t.removeAccounts i) := by
  dsimp only [State.removeAccounts]
  repeat'
    first
      | with_reducible exact h
      | with_reducible rfl
      | exact id
      | exact ⟨rfl, rfl, rfl, rfl, rfl, rfl, id⟩
      | with_reducible apply Undisturbed.preserve
      | with_reducible apply Undisturbed.roomForStamp
      | with_reducible apply Undisturbed.stampTaken
      | with_reducible apply Undisturbed.editEntry
      | assumption
      | split

theorem Undisturbed.vacate (h : Undisturbed s t) (i : SlotId) : Undisturbed s (t.vacate i) := by
  have k := (h.updSlot i SlotRecord.removed).updCommit i (fun _ => initialCommit) (by simp [initialCommit])
  simp only [State.vacate]
  split
  · split
    · exact (k.failover _ _ _).raise _
    · exact (k.raise _).targetTest _
  · exact k.raise _


/-! ## StoreRequests -/

theorem Undisturbed.clearPlace (h : Undisturbed s t) (p : PlaceId) (e : HistoryEntry) : Undisturbed s (t.clearPlace p e) := by
  dsimp only [State.clearPlace]
  repeat'
    first
      | with_reducible exact h
      | with_reducible rfl
      | exact id
      | exact ⟨rfl, rfl, rfl, rfl, rfl, rfl, id⟩
      | with_reducible apply Undisturbed.forfeit
      | with_reducible apply Undisturbed.writePlace
      | assumption
      | split

theorem Undisturbed.restartSlot (h : Undisturbed s t) (i : SlotId) : Undisturbed s (t.restartSlot i) := by
  dsimp only [State.restartSlot]
  repeat'
    first
      | with_reducible exact h
      | with_reducible rfl
      | exact id
      | exact ⟨rfl, rfl, rfl, rfl, rfl, rfl, id⟩
      | with_reducible apply Undisturbed.seat
      | assumption
      | split

theorem Undisturbed.roundWritten (h : Undisturbed s t) (p : PlaceId) : Undisturbed s (t.roundWritten p) := by
  dsimp only [State.roundWritten]
  repeat'
    first
      | with_reducible exact h
      | with_reducible rfl
      | exact id
      | exact ⟨rfl, rfl, rfl, rfl, rfl, rfl, id⟩
      | with_reducible apply Undisturbed.updHistory
      | with_reducible apply Undisturbed.raise
      | assumption
      | split

/-! ## Resets -/

theorem Undisturbed.startRound (h : Undisturbed s t) : Undisturbed s t.startRound := by
  dsimp only [State.startRound]
  repeat'
    first
      | with_reducible exact h
      | with_reducible rfl
      | exact id
      | exact ⟨rfl, rfl, rfl, rfl, rfl, rfl, id⟩
      | with_reducible apply Undisturbed.updHistory
      | with_reducible apply Undisturbed.preserveAll
      | with_reducible apply Undisturbed.raise
      | assumption
      | split

theorem Undisturbed.triggerEvery (h : Undisturbed s t) : Undisturbed s t.triggerEvery := by
  dsimp only [State.triggerEvery]
  repeat'
    first
      | with_reducible exact h
      | with_reducible rfl
      | exact id
      | exact ⟨rfl, rfl, rfl, rfl, rfl, rfl, id⟩
      | with_reducible apply Undisturbed.forcedTrigger
      | with_reducible refine Undisturbed.foldl _ _ ?_ fun _ _ _ => ?_
      | assumption
      | split

end Sys2Proof.Machine
end

