-- ==== Sys2Proof/Laws/Accounts.lean ====
section
/-! SUPPORT. What the lane work, the commits' taking, the sensing, the draws and the moves of channels leave of the
slots' accounts and of the History Unit: one lemma per shared operation. -/

set_option linter.unusedTactic false
set_option linter.unreachableTactic false

namespace Sys2Proof.Machine

theorem AccountsKept.refl (s : State) : AccountsKept s s :=
  ⟨rfl, fun _ => rfl, fun _ => rfl, fun _ => rfl, fun _ => rfl, fun _ => rfl, fun _ => rfl⟩

theorem AccountsKept.trans {s t u : State} (h : AccountsKept s t) (k : AccountsKept t u) : AccountsKept s u where
  history := k.history.trans h.history
  committed i := (k.committed i).trans (h.committed i)
  uncommitted i := (k.uncommitted i).trans (h.uncommitted i)
  description i := (k.description i).trans (h.description i)
  quality i := (k.quality i).trans (h.quality i)
  channel i := (k.channel i).trans (h.channel i)
  reconciled i := (k.reconciled i).trans (h.reconciled i)

theorem AccountsKept.foldl {β : Type} {s t : State} (f : State → β → State) (l : List β) (h : AccountsKept s t)
    (hf : ∀ u b, AccountsKept s u → AccountsKept s (f u b)) : AccountsKept s (l.foldl f t) := by
  induction l generalizing t with
  | nil => exact h
  | cons b l ih => exact ih (hf t b h)

variable {s t : State}

/-- An update that leaves the History Unit and the slots. -/
theorem AccountsKept.of_eq (h : AccountsKept s t) {u : State} (hh : u.history = t.history) (hs : u.slots = t.slots) :
    AccountsKept s u := by
  have e (i : SlotId) : u.slot i = t.slot i := by simp only [State.slot, hs]
  exact ⟨hh.trans h.history, fun i => by rw [e]; exact h.committed i, fun i => by rw [e]; exact h.uncommitted i,
    fun i => by rw [e]; exact h.description i, fun i => by rw [e]; exact h.quality i,
    fun i => by rw [e]; exact h.channel i, fun i => by rw [e]; exact h.reconciled i⟩

/-- A change of one slot's record that keeps its accounts, description, quality and channel. -/
theorem AccountsKept.updSlot (h : AccountsKept s t) (i : SlotId) (f : SlotRecord → SlotRecord)
    (hf : (f (t.slot i)).committed = (t.slot i).committed ∧ (f (t.slot i)).uncommitted = (t.slot i).uncommitted ∧
      (f (t.slot i)).description = (t.slot i).description ∧ (f (t.slot i)).quality = (t.slot i).quality ∧
      (f (t.slot i)).channel = (t.slot i).channel ∧ (f (t.slot i)).reconciled = (t.slot i).reconciled) :
    AccountsKept s (t.updSlot i f) := by
  obtain ⟨h1, h2, h3, h4, h5, h6⟩ := hf
  refine ⟨h.history, ?_, ?_, ?_, ?_, ?_, ?_⟩
  all_goals
    intro j
    rw [State.updSlot_slot]
    split
    · rename_i e
      subst e
      first
        | exact h1.trans (h.committed _)
        | exact h2.trans (h.uncommitted _)
        | exact h3.trans (h.description _)
        | exact h4.trans (h.quality _)
        | exact h5.trans (h.channel _)
        | exact h6.trans (h.reconciled _)
    · first
        | exact h.committed j
        | exact h.uncommitted j
        | exact h.description j
        | exact h.quality j
        | exact h.channel j
        | exact h.reconciled j

theorem AccountsKept.moveSlot (h : AccountsKept s t) (i : SlotId) (f : SlotRecord → SlotRecord)
    (hf : (f (t.slot i)).committed = (t.slot i).committed ∧ (f (t.slot i)).uncommitted = (t.slot i).uncommitted ∧
      (f (t.slot i)).description = (t.slot i).description ∧ (f (t.slot i)).quality = (t.slot i).quality ∧
      (f (t.slot i)).channel = (t.slot i).channel ∧ (f (t.slot i)).reconciled = (t.slot i).reconciled) :
    AccountsKept s (t.moveSlot i f) :=
  AccountsKept.of_eq (h.updSlot i f hf) rfl rfl

theorem AccountsKept.freeDraws (h : AccountsKept s t) (n : Nat) : AccountsKept s { t with freeDraws := n } :=
  h.of_eq rfl rfl

theorem AccountsKept.raise (h : AccountsKept s t) (n : Notice) :
    AccountsKept s (t.raise n) := h.of_eq rfl rfl

theorem AccountsKept.updEngine (h : AccountsKept s t) (f : Engine → Engine) :
    AccountsKept s (t.updEngine f) := h.of_eq rfl rfl

theorem AccountsKept.nonceDrawn (h : AccountsKept s t) :
    AccountsKept s (t.nonceDrawn) := h.of_eq rfl rfl

theorem AccountsKept.stampUsed (h : AccountsKept s t) :
    AccountsKept s (t.stampUsed) := h.of_eq rfl rfl

theorem AccountsKept.setWanted (h : AccountsKept s t) (i : SlotId) (m : TagMark) (v : Bool) :
    AccountsKept s (t.setWanted i m v) := h.of_eq rfl rfl

theorem AccountsKept.updCommit (h : AccountsKept s t) (i : SlotId) (f : CommitState → CommitState) :
    AccountsKept s (t.updCommit i f) := h.of_eq rfl rfl

theorem AccountsKept.updLane (h : AccountsKept s t) (l : LaneId) (f : Lane → Lane) :
    AccountsKept s (t.updLane l f) := h.of_eq rfl rfl

theorem AccountsKept.updSense (h : AccountsKept s t) (f : LevelSense → LevelSense) :
    AccountsKept s (t.updSense f) := h.of_eq rfl rfl

theorem AccountsKept.updSlotSense (h : AccountsKept s t) (i : SlotId) (f : SlotSense → SlotSense) :
    AccountsKept s (t.updSlotSense i f) := h.of_eq rfl rfl

theorem AccountsKept.updChannel (h : AccountsKept s t) (c : ChannelId) (f : Channel → Channel) :
    AccountsKept s (t.updChannel c f) := h.of_eq rfl rfl

theorem AccountsKept.updVolume (h : AccountsKept s t) (c : ChannelId) (f : Volume → Volume) :
    AccountsKept s (t.updVolume c f) := h.of_eq rfl rfl

/-! ## Sensing -/

theorem AccountsKept.placeRequest (h : AccountsKept s t) (i : SlotId) (why : Reasons) {u : State}
    (e : t.placeRequest i why = some u) : AccountsKept s u := by
  simp only [State.placeRequest] at e
  split at e
  · cases e
    exact h.updSense _
  · split at e
    · cases e
      exact (h.updSense _).stampUsed
    · cases e

theorem AccountsKept.holdAdmission (h : AccountsKept s t) (i : SlotId) : AccountsKept s (t.holdAdmission i) := by
  dsimp only [State.holdAdmission]
  repeat'
    first
      | with_reducible exact h
      | with_reducible apply AccountsKept.updSense
      | assumption
      | split

theorem AccountsKept.placeHeldN (h : AccountsKept s t) (n : Nat) : AccountsKept s (State.placeHeldN n t) := by
  induction n generalizing t with
  | zero => exact h
  | succ n ih =>
    simp only [State.placeHeldN]
    split
    · exact h
    · split
      · rename_i e
        exact ih ((h.updSense _).placeRequest _ _ e)
      · exact h

theorem AccountsKept.placeHeld (h : AccountsKept s t) : AccountsKept s t.placeHeld := h.placeHeldN _

theorem AccountsKept.requestAdmission (h : AccountsKept s t) (i : SlotId) : AccountsKept s (t.requestAdmission i) := by
  simp only [State.requestAdmission]
  split
  · rename_i e
    exact h.placeRequest _ _ e
  · exact h.holdAdmission i

theorem AccountsKept.returnRequest (h : AccountsKept s t) (q : Injected) : AccountsKept s (t.returnRequest q) := by
  dsimp only [State.returnRequest]
  repeat'
    first
      | with_reducible exact h
      | with_reducible apply AccountsKept.updSense
      | with_reducible apply AccountsKept.holdAdmission
      | assumption
      | split

theorem AccountsKept.discardConversion (h : AccountsKept s t) : AccountsKept s t.discardConversion := by
  dsimp only [State.discardConversion]
  repeat'
    first
      | with_reducible exact h
      | with_reducible apply AccountsKept.updSense
      | assumption
      | split

theorem AccountsKept.abandonRun (h : AccountsKept s t) : AccountsKept s t.abandonRun := by
  dsimp only [State.abandonRun]
  repeat'
    first
      | with_reducible exact h
      | with_reducible apply AccountsKept.updSense
      | with_reducible apply AccountsKept.discardConversion
      | with_reducible apply AccountsKept.returnRequest
      | assumption
      | split

theorem AccountsKept.goesOnWire (h : AccountsKept s t) (i : SlotId) : AccountsKept s (t.goesOnWire i) := by
  dsimp only [State.goesOnWire]
  repeat'
    first
      | with_reducible exact h
      | with_reducible apply AccountsKept.abandonRun
      | with_reducible apply AccountsKept.discardConversion
      | with_reducible apply AccountsKept.updSense
      | assumption
      | split

theorem AccountsKept.removeSensing (h : AccountsKept s t) (i : SlotId) : AccountsKept s (t.removeSensing i) := by
  dsimp only [State.removeSensing]
  repeat'
    first
      | with_reducible exact h
      | with_reducible apply AccountsKept.updSense
      | with_reducible apply AccountsKept.placeHeld
      | assumption
      | split

theorem AccountsKept.dropAdmissionReason (h : AccountsKept s t) (i : SlotId) : AccountsKept s (t.dropAdmissionReason i) := by
  dsimp only [State.dropAdmissionReason]
  repeat'
    first
      | with_reducible exact h
      | with_reducible apply AccountsKept.updSense
      | with_reducible apply AccountsKept.discardConversion
      | with_reducible apply AccountsKept.placeHeld
      | assumption
      | split

theorem AccountsKept.startConversion (h : AccountsKept s t) (source : Source) (ofRun : Bool) : AccountsKept s (t.startConversion source ofRun) := by
  dsimp only [State.startConversion]
  repeat'
    first
      | with_reducible exact h
      | with_reducible apply AccountsKept.updSense
      | assumption
      | split

theorem AccountsKept.startInjected (h : AccountsKept s t) {u : State} (e : t.startInjected = some u) :
    AccountsKept s u := by
  simp only [State.startInjected] at e
  split at e
  · cases e
  · split at e
    · cases e
      exact ((h.updSense _).startConversion _ _).placeHeld
    · cases e

theorem AccountsKept.endPass (h : AccountsKept s t) : AccountsKept s t.endPass := by
  dsimp only [State.endPass]
  repeat'
    first
      | with_reducible exact h
      | with_reducible apply AccountsKept.updSense
      | assumption
      | split

theorem AccountsKept.scanFrom (h : AccountsKept s t) (l : List Source) : AccountsKept s (State.scanFrom l t) := by
  induction l generalizing t with
  | nil => exact h.endPass
  | cons x l ih =>
    have k := h.updSense fun u => { u with position := u.position + 1 }
    simp only [State.scanFrom]
    split
    · exact (k.updSense _).startConversion _ _
    · split
      · exact ih k
      · split
        · exact ih (k.updSense _)
        · exact (k.updSense _).startConversion _ _

theorem AccountsKept.passOver (h : AccountsKept s t) : AccountsKept s t.passOver := by
  simp only [State.passOver]
  split
  · exact h.endPass
  · exact h

theorem AccountsKept.converterWork (h : AccountsKept s t) : AccountsKept s t.converterWork := by
  simp only [State.converterWork]
  split
  · exact h
  · have k := h.passOver
    split
    · rename_i e
      exact k.startInjected e
    · split
      · exact k.scanFrom _
      · exact k

theorem AccountsKept.takeUpScan (h : AccountsKept s t) : AccountsKept s t.takeUpScan := by
  dsimp only [State.takeUpScan]
  repeat'
    first
      | with_reducible exact h
      | with_reducible apply AccountsKept.updSense
      | assumption
      | split

theorem AccountsKept.beginPass (h : AccountsKept s t) : AccountsKept s t.beginPass := by
  dsimp only [State.beginPass]
  repeat'
    first
      | with_reducible exact h
      | with_reducible apply AccountsKept.updSense
      | assumption
      | split

theorem AccountsKept.haltScan (h : AccountsKept s t) : AccountsKept s t.haltScan := by
  dsimp only [State.haltScan]
  repeat'
    first
      | with_reducible exact h
      | with_reducible apply AccountsKept.updSense
      | with_reducible apply AccountsKept.takeUpScan
      | assumption
      | split

theorem AccountsKept.resumeScan (h : AccountsKept s t) : AccountsKept s t.resumeScan := by
  dsimp only [State.resumeScan]
  repeat'
    first
      | with_reducible exact h
      | with_reducible apply AccountsKept.updSense
      | assumption
      | split

theorem AccountsKept.takeSample (h : AccountsKept s t) (i : SlotId) (raw : Nat) (offset : Int) (gain : Nat) :
    AccountsKept s (t.takeSample i raw offset gain).1 := by
  simp only [State.takeSample]
  repeat' split
  · exact h.updSlotSense _ _
  · exact AccountsKept.raise (AccountsKept.updSlot (h.updSlotSense _ _) _ _ ⟨rfl, rfl, rfl, rfl, rfl, rfl⟩) _
  · exact AccountsKept.updSlot (h.updSlotSense _ _) _ _ ⟨rfl, rfl, rfl, rfl, rfl, rfl⟩
  · exact h.updSlotSense _ _
  · exact h

theorem AccountsKept.countHostSense (h : AccountsKept s t) (i : SlotId) : AccountsKept s (t.countHostSense i) := by
  rw [State.countHostSense]
  split
  · exact h.updSlotSense _ _
  · exact AccountsKept.freeDraws (h.updSlotSense _ _) _

/-! ## Lanes -/

theorem AccountsKept.commitSent (h : AccountsKept s t) (i : SlotId) : AccountsKept s (t.commitSent i) := by
  dsimp only [State.commitSent]
  repeat'
    first
      | with_reducible exact h
      | with_reducible apply AccountsKept.updCommit
      | assumption
      | split

theorem AccountsKept.startTransaction (h : AccountsKept s t) (l : LaneId) (e : LaneEntry) : AccountsKept s (t.startTransaction l e) := by
  dsimp only [State.startTransaction]
  repeat'
    first
      | with_reducible exact h
      | with_reducible apply AccountsKept.updLane
      | with_reducible apply AccountsKept.commitSent
      | with_reducible apply AccountsKept.goesOnWire
      | assumption
      | split

theorem AccountsKept.passDone (h : AccountsKept s t) (e : LaneEntry) (status : PassStatus) : AccountsKept s (t.passDone e status) := by
  dsimp only [State.passDone]
  repeat'
    first
      | with_reducible exact h
      | with_reducible apply AccountsKept.raise
      | assumption
      | split

theorem AccountsKept.takeEntryN (h : AccountsKept s t) (n : Nat) (l : LaneId) :
    AccountsKept s (State.takeEntryN n t l) := by
  induction n generalizing t with
  | zero => exact h
  | succ n ih =>
    simp only [State.takeEntryN]
    split
    · exact h.updLane _ _
    · split
      · exact h
      · split
        · exact ih ((h.updLane _ _).passDone _ _)
        · exact (h.updLane _ _).startTransaction _ _

theorem AccountsKept.takeEntry (h : AccountsKept s t) (l : LaneId) : AccountsKept s (t.takeEntry l) := h.takeEntryN _ l

theorem AccountsKept.laneFree (h : AccountsKept s t) (l : LaneId) : AccountsKept s (t.laneFree l) := by
  dsimp only [State.laneFree]
  repeat'
    first
      | with_reducible exact h
      | with_reducible apply AccountsKept.updLane
      | with_reducible apply AccountsKept.takeEntry
      | assumption
      | split

theorem AccountsKept.enqueue (h : AccountsKept s t) (e : LaneEntry) : AccountsKept s (t.enqueue e) := by
  dsimp only [State.enqueue]
  repeat'
    first
      | with_reducible exact h
      | with_reducible apply AccountsKept.updLane
      | with_reducible apply AccountsKept.takeEntry
      | assumption
      | split

theorem AccountsKept.dropEntries (h : AccountsKept s t) (i : SlotId) (drop : LaneClass → Bool) : AccountsKept s (t.dropEntries i drop) := by
  dsimp only [State.dropEntries]
  repeat'
    first
      | with_reducible exact h
      | with_reducible apply AccountsKept.updLane
      | assumption
      | split

theorem AccountsKept.requestMark (h : AccountsKept s t) (i : SlotId) (m : TagMark) : AccountsKept s (t.requestMark i m) := by
  dsimp only [State.requestMark]
  repeat'
    first
      | with_reducible exact h
      | with_reducible apply AccountsKept.enqueue
      | with_reducible apply AccountsKept.setWanted
      | assumption
      | split

theorem AccountsKept.markEnded (h : AccountsKept s t) (i : SlotId) (m : TagMark) : AccountsKept s (t.markEnded i m) := by
  dsimp only [State.markEnded]
  repeat'
    first
      | with_reducible exact h
      | with_reducible apply AccountsKept.setWanted
      | with_reducible apply AccountsKept.enqueue
      | assumption
      | split

/-! ## Commits -/

theorem AccountsKept.takeCommit (h : AccountsKept s t) (i : SlotId) : AccountsKept s (t.takeCommit i) := by
  dsimp only [State.takeCommit]
  repeat'
    first
      | with_reducible exact h
      | with_reducible apply AccountsKept.nonceDrawn
      | with_reducible apply AccountsKept.updCommit
      | with_reducible apply AccountsKept.enqueue
      | assumption
      | split

theorem AccountsKept.enlargeCommit (h : AccountsKept s t) (i : SlotId) : AccountsKept s (t.enlargeCommit i) := by
  dsimp only [State.enlargeCommit]
  repeat'
    first
      | with_reducible exact h
      | with_reducible apply AccountsKept.updCommit
      | with_reducible apply AccountsKept.updLane
      | assumption
      | split

theorem AccountsKept.actTrigger (h : AccountsKept s t) (i : SlotId) (forced : Bool) : AccountsKept s (t.actTrigger i forced) := by
  dsimp only [State.actTrigger]
  repeat'
    first
      | with_reducible exact h
      | with_reducible apply AccountsKept.takeCommit
      | with_reducible apply AccountsKept.enlargeCommit
      | with_reducible apply AccountsKept.updCommit
      | assumption
      | split

theorem AccountsKept.forcedTrigger (h : AccountsKept s t) (i : SlotId) : AccountsKept s (t.forcedTrigger i) := by
  dsimp only [State.forcedTrigger]
  repeat'
    first
      | with_reducible exact h
      | with_reducible apply AccountsKept.actTrigger
      | assumption
      | split

theorem AccountsKept.stepTrigger (h : AccountsKept s t) (i : SlotId) : AccountsKept s (t.stepTrigger i) := by
  dsimp only [State.stepTrigger]
  repeat'
    first
      | with_reducible exact h
      | with_reducible apply AccountsKept.actTrigger
      | assumption
      | split

theorem AccountsKept.withdrawCommit (h : AccountsKept s t) (i : SlotId) : AccountsKept s (t.withdrawCommit i) := by
  dsimp only [State.withdrawCommit]
  repeat'
    first
      | with_reducible exact h
      | with_reducible apply AccountsKept.dropEntries
      | with_reducible apply AccountsKept.updCommit
      | assumption
      | split

theorem AccountsKept.landed (h : AccountsKept s t) (i : SlotId) : AccountsKept s (t.landed i) := by
  dsimp only [State.landed]
  repeat'
    first
      | with_reducible exact h
      | with_reducible apply AccountsKept.updCommit
      | assumption
      | split

theorem AccountsKept.actAgain (h : AccountsKept s t) (i : SlotId) : AccountsKept s (t.actAgain i) := by
  dsimp only [State.actAgain]
  repeat'
    first
      | with_reducible exact h
      | with_reducible apply AccountsKept.updCommit
      | with_reducible apply AccountsKept.stepTrigger
      | with_reducible apply AccountsKept.forcedTrigger
      | assumption
      | split

/-! ## EngineOps -/

theorem AccountsKept.commitChecking (h : AccountsKept s t) (j : Job) : AccountsKept s (t.commitChecking j) := by
  dsimp only [State.commitChecking]
  repeat'
    first
      | with_reducible exact h
      | with_reducible apply AccountsKept.updCommit
      | assumption
      | split

theorem AccountsKept.joinEngine (h : AccountsKept s t) (j : Job) : AccountsKept s (t.joinEngine j) := by
  dsimp only [State.joinEngine]
  repeat'
    first
      | with_reducible exact h
      | with_reducible apply AccountsKept.updEngine
      | with_reducible apply AccountsKept.commitChecking
      | assumption
      | split

theorem AccountsKept.offerJob (h : AccountsKept s t) (l : LaneId) (j : Job) : AccountsKept s (t.offerJob l j) := by
  dsimp only [State.offerJob]
  repeat'
    first
      | with_reducible exact h
      | with_reducible apply AccountsKept.joinEngine
      | with_reducible apply AccountsKept.laneFree
      | with_reducible apply AccountsKept.updLane
      | with_reducible apply AccountsKept.updEngine
      | assumption
      | split

theorem AccountsKept.placeFreed (h : AccountsKept s t) : AccountsKept s t.placeFreed := by
  dsimp only [State.placeFreed]
  repeat'
    first
      | with_reducible exact h
      | with_reducible apply AccountsKept.updEngine
      | with_reducible apply AccountsKept.joinEngine
      | with_reducible apply AccountsKept.laneFree
      | assumption
      | split

theorem AccountsKept.startNextJob (h : AccountsKept s t) : AccountsKept s t.startNextJob := by
  dsimp only [State.startNextJob]
  repeat'
    first
      | with_reducible exact h
      | with_reducible apply AccountsKept.updEngine
      | with_reducible apply AccountsKept.placeFreed
      | assumption
      | split

theorem AccountsKept.withdrawJobs (h : AccountsKept s t) (i : SlotId) (all : Bool) : AccountsKept s (t.withdrawJobs i all) := by
  dsimp only [State.withdrawJobs]
  repeat'
    first
      | with_reducible exact h
      | with_reducible apply AccountsKept.updEngine
      | with_reducible apply AccountsKept.placeFreed
      | assumption
      | split

theorem AccountsKept.dropHeld (h : AccountsKept s t) (i : SlotId) (all : Bool) : AccountsKept s (t.dropHeld i all) := by
  dsimp only [State.dropHeld]
  repeat'
    first
      | with_reducible exact h
      | with_reducible apply AccountsKept.updEngine
      | with_reducible apply AccountsKept.laneFree
      | assumption
      | split

theorem AccountsKept.abandonTransaction (h : AccountsKept s t) (i : SlotId) : AccountsKept s (t.abandonTransaction i) := by
  dsimp only [State.abandonTransaction]
  repeat'
    first
      | with_reducible exact h
      | with_reducible apply AccountsKept.updLane
      | assumption
      | split

theorem AccountsKept.abandonAdmission (h : AccountsKept s t) (i : SlotId) : AccountsKept s (t.abandonAdmission i) := by
  dsimp only [State.abandonAdmission]
  repeat'
    first
      | with_reducible exact h
      | with_reducible apply AccountsKept.dropEntries
      | with_reducible apply AccountsKept.abandonTransaction
      | with_reducible apply AccountsKept.withdrawJobs
      | with_reducible apply AccountsKept.dropHeld
      | with_reducible apply AccountsKept.dropAdmissionReason
      | assumption
      | split

theorem AccountsKept.abortTransaction (h : AccountsKept s t) (i : SlotId) : AccountsKept s (t.abortTransaction i) := by
  dsimp only [State.abortTransaction]
  repeat'
    first
      | with_reducible exact h
      | with_reducible apply AccountsKept.laneFree
      | assumption
      | split

theorem AccountsKept.wanted (h : AccountsKept s t) (w : Vector WantedMarks 16) :
    AccountsKept s { t with bus := { t.bus with wanted := w } } :=
  h.of_eq rfl rfl

theorem AccountsKept.removeWork (h : AccountsKept s t) (i : SlotId) : AccountsKept s (t.removeWork i) := by
  simp only [State.removeWork]
  apply AccountsKept.wanted
  apply AccountsKept.withdrawJobs
  apply AccountsKept.dropHeld
  apply AccountsKept.abortTransaction
  apply AccountsKept.foldl
  · exact h.dropEntries _ _
  · exact fun _ _ k => k.passDone _ _

/-! ## Reservations -/

theorem AccountsKept.grantTested (h : AccountsKept s t) (c : ChannelId) (size : Nat) : AccountsKept s (t.grantTested c size) := by
  dsimp only [State.grantTested]
  repeat'
    first
      | with_reducible exact h
      | with_reducible apply AccountsKept.updChannel
      | assumption
      | split

theorem AccountsKept.clearTest (h : AccountsKept s t) (c : ChannelId) : AccountsKept s (t.clearTest c) := by
  dsimp only [State.clearTest]
  repeat'
    first
      | with_reducible exact h
      | with_reducible apply AccountsKept.updChannel
      | assumption
      | split

theorem AccountsKept.headTestN (h : AccountsKept s t) (n : Nat) (c : ChannelId) :
    AccountsKept s (State.headTestN n t c) := by
  induction n generalizing t with
  | zero => exact h
  | succ n ih =>
    simp only [State.headTestN]
    split
    · exact h
    · split
      · exact ih ((h.updChannel _ _).raise _)
      · exact h.grantTested c _

theorem AccountsKept.headTest (h : AccountsKept s t) (c : ChannelId) : AccountsKept s (t.headTest c) := h.headTestN _ c

theorem AccountsKept.unreserved (h : AccountsKept s t) (c : ChannelId) (part : Nat) : AccountsKept s (t.unreserved c part) := by
  dsimp only [State.unreserved]
  repeat'
    first
      | with_reducible exact h
      | with_reducible apply AccountsKept.updVolume
      | with_reducible apply AccountsKept.updChannel
      | with_reducible apply AccountsKept.raise
      | assumption
      | split

theorem AccountsKept.draw (h : AccountsKept s t) (c : ChannelId) (amount : Nat) : AccountsKept s (t.draw c amount) := by
  dsimp only [State.draw]
  repeat'
    first
      | with_reducible exact h
      | with_reducible apply AccountsKept.updChannel
      | with_reducible apply AccountsKept.unreserved
      | with_reducible apply AccountsKept.clearTest
      | with_reducible apply AccountsKept.headTest
      | assumption
      | split

theorem AccountsKept.leaveList (h : AccountsKept s t) (c : ChannelId) (id : Nat) : AccountsKept s (t.leaveList c id) := by
  dsimp only [State.leaveList]
  repeat'
    first
      | with_reducible exact h
      | with_reducible apply AccountsKept.updChannel
      | assumption
      | split

/-! ## Channels -/

theorem AccountsKept.toServing (h : AccountsKept s t) (i : SlotId) : AccountsKept s (t.toServing i) := by
  dsimp only [State.toServing]
  repeat'
    first
      | with_reducible exact h
      | exact ⟨rfl, rfl, rfl, rfl, rfl, rfl⟩
      | with_reducible apply AccountsKept.moveSlot
      | assumption
      | split

theorem AccountsKept.toReady (h : AccountsKept s t) (i : SlotId) : AccountsKept s (t.toReady i) := by
  dsimp only [State.toReady]
  repeat'
    first
      | with_reducible exact h
      | exact ⟨rfl, rfl, rfl, rfl, rfl, rfl⟩
      | with_reducible apply AccountsKept.moveSlot
      | with_reducible apply AccountsKept.forcedTrigger
      | assumption
      | split

theorem AccountsKept.applySplit (h : AccountsKept s t) (c : ChannelId) (drewFrom drawsFrom : Option SlotId) : AccountsKept s (t.applySplit c drewFrom drawsFrom) := by
  dsimp only [State.applySplit]
  repeat'
    first
      | with_reducible exact h
      | with_reducible apply AccountsKept.updChannel
      | with_reducible apply AccountsKept.raise
      | with_reducible refine AccountsKept.foldl _ _ ?_ fun _ _ _ => ?_
      | assumption
      | split

theorem AccountsKept.completeSwitch (h : AccountsKept s t) (c : ChannelId) (old new : SlotId) : AccountsKept s (t.completeSwitch c old new) := by
  dsimp only [State.completeSwitch]
  repeat'
    first
      | with_reducible exact h
      | with_reducible apply AccountsKept.toReady
      | with_reducible apply AccountsKept.toServing
      | with_reducible apply AccountsKept.updChannel
      | with_reducible apply AccountsKept.raise
      | with_reducible apply AccountsKept.headTest
      | assumption
      | split

theorem AccountsKept.completionTest (h : AccountsKept s t) (c : ChannelId) : AccountsKept s (t.completionTest c) := by
  dsimp only [State.completionTest]
  repeat'
    first
      | with_reducible exact h
      | with_reducible apply AccountsKept.completeSwitch
      | assumption
      | split

theorem AccountsKept.plannedSwitch (h : AccountsKept s t) (c : ChannelId) : AccountsKept s (t.plannedSwitch c) := by
  dsimp only [State.plannedSwitch]
  repeat'
    first
      | with_reducible exact h
      | with_reducible apply AccountsKept.updChannel
      | with_reducible apply AccountsKept.raise
      | with_reducible apply AccountsKept.completionTest
      | assumption
      | split

theorem AccountsKept.cancelSwitch (h : AccountsKept s t) (c : ChannelId) : AccountsKept s (t.cancelSwitch c) := by
  dsimp only [State.cancelSwitch]
  repeat'
    first
      | with_reducible exact h
      | with_reducible apply AccountsKept.updChannel
      | with_reducible apply AccountsKept.raise
      | with_reducible apply AccountsKept.headTest
      | assumption
      | split

theorem AccountsKept.targetTest (h : AccountsKept s t) (c : ChannelId) : AccountsKept s (t.targetTest c) := by
  dsimp only [State.targetTest]
  repeat'
    first
      | with_reducible exact h
      | with_reducible apply AccountsKept.cancelSwitch
      | assumption
      | split

theorem AccountsKept.levelCancelTest (h : AccountsKept s t) (c : ChannelId) : AccountsKept s (t.levelCancelTest c) := by
  dsimp only [State.levelCancelTest]
  repeat'
    first
      | with_reducible exact h
      | with_reducible apply AccountsKept.cancelSwitch
      | assumption
      | split

theorem AccountsKept.select (h : AccountsKept s t) (c : ChannelId) : AccountsKept s (t.select c) := by
  dsimp only [State.select]
  repeat'
    first
      | with_reducible exact h
      | with_reducible apply AccountsKept.toServing
      | with_reducible apply AccountsKept.updChannel
      | with_reducible apply AccountsKept.applySplit
      | with_reducible apply AccountsKept.raise
      | with_reducible apply AccountsKept.headTest
      | with_reducible apply AccountsKept.plannedSwitch
      | assumption
      | split

theorem AccountsKept.offerReady (h : AccountsKept s t) (i : SlotId) : AccountsKept s (t.offerReady i) := by
  dsimp only [State.offerReady]
  repeat'
    first
      | with_reducible exact h
      | with_reducible apply AccountsKept.select
      | with_reducible apply AccountsKept.plannedSwitch
      | with_reducible apply AccountsKept.headTest
      | assumption
      | split

theorem AccountsKept.drawNext (h : AccountsKept s t) (c : ChannelId) (pick : Option SlotId) :
    AccountsKept s (t.drawNext c pick) := by
  cases pick with
  | some j => exact (h.toServing j).updChannel c _
  | none => exact h.updChannel c _

theorem AccountsKept.failover (h : AccountsKept s t) (c : ChannelId) (old : SlotId) (reason : LeaveReason) :
    AccountsKept s (t.failover c old reason) :=
  .plannedSwitch (.headTest (.raise ((h.drawNext c _).applySplit c _ _) _) c) c

theorem AccountsKept.slotLeft (h : AccountsKept s t) (i : SlotId) (reason : LeaveReason) : AccountsKept s (t.slotLeft i reason) := by
  dsimp only [State.slotLeft]
  repeat'
    first
      | with_reducible exact h
      | with_reducible apply AccountsKept.failover
      | with_reducible apply AccountsKept.targetTest
      | assumption
      | split

theorem AccountsKept.rejectSlot (h : AccountsKept s t) (i : SlotId) (why : RejectReason) : AccountsKept s (t.rejectSlot i why) := by
  dsimp only [State.rejectSlot]
  repeat'
    first
      | with_reducible exact h
      | exact ⟨rfl, rfl, rfl, rfl, rfl, rfl⟩
      | with_reducible apply AccountsKept.moveSlot
      | with_reducible apply AccountsKept.withdrawCommit
      | assumption
      | split

theorem AccountsKept.faultSlot (h : AccountsKept s t) (i : SlotId) (why : FaultReason) : AccountsKept s (t.faultSlot i why) := by
  dsimp only [State.faultSlot]
  repeat'
    first
      | with_reducible exact h
      | exact ⟨rfl, rfl, rfl, rfl, rfl, rfl⟩
      | with_reducible apply AccountsKept.moveSlot
      | with_reducible apply AccountsKept.withdrawCommit
      | assumption
      | split

theorem AccountsKept.inkTest (h : AccountsKept s t) (i : SlotId) : AccountsKept s (t.inkTest i) := by
  dsimp only [State.inkTest]
  repeat'
    first
      | with_reducible exact h
      | with_reducible apply AccountsKept.abandonAdmission
      | with_reducible apply AccountsKept.rejectSlot
      | assumption
      | split

theorem AccountsKept.formBand (h : AccountsKept s t) (i : SlotId) : AccountsKept s (t.formBand i) := by
  dsimp only [State.formBand]
  repeat'
    first
      | with_reducible exact h
      | exact ⟨rfl, rfl, rfl, rfl, rfl, rfl⟩
      | with_reducible apply AccountsKept.updSlot
      | with_reducible apply AccountsKept.raise
      | assumption
      | split

theorem AccountsKept.slotSpent (h : AccountsKept s t) (i : SlotId) : AccountsKept s (t.slotSpent i) := by
  dsimp only [State.slotSpent]
  repeat'
    first
      | with_reducible exact h
      | exact ⟨rfl, rfl, rfl, rfl, rfl, rfl⟩
      | with_reducible apply AccountsKept.moveSlot
      | with_reducible apply AccountsKept.forcedTrigger
      | with_reducible apply AccountsKept.requestMark
      | with_reducible apply AccountsKept.slotLeft
      | assumption
      | split

/-! ## Charging -/

theorem AccountsKept.spentTest (h : AccountsKept s t) (i : SlotId) : AccountsKept s (t.spentTest i) := by
  dsimp only [State.spentTest]
  repeat'
    first
      | with_reducible exact h
      | with_reducible apply AccountsKept.slotSpent
      | assumption
      | split

theorem AccountsKept.slotCharged (h : AccountsKept s t) (i : SlotId) : AccountsKept s (t.slotCharged i) := by
  dsimp only [State.slotCharged]
  repeat'
    first
      | with_reducible exact h
      | with_reducible apply AccountsKept.formBand
      | with_reducible apply AccountsKept.stepTrigger
      | with_reducible apply AccountsKept.spentTest
      | assumption
      | split

theorem AccountsKept.channelCharged (h : AccountsKept s t) (c : ChannelId) : AccountsKept s (t.channelCharged c) := by
  dsimp only [State.channelCharged]
  repeat'
    first
      | with_reducible exact h
      | with_reducible apply AccountsKept.completionTest
      | with_reducible apply AccountsKept.plannedSwitch
      | assumption
      | split

end Sys2Proof.Machine
end

