-- ==== Sys2Proof/Laws/Records.lean ====
section
/-! SUPPORT. What the lane work, the commits' taking, the jobs' joining and the sensing leave of the records of slots,
channels and history: one lemma per shared operation. -/

set_option linter.unusedTactic false
set_option linter.unreachableTactic false

namespace Sys2Proof.Machine

theorem RecordsKept.refl (s : State) : RecordsKept s s := ⟨rfl, rfl, rfl⟩

theorem RecordsKept.trans {s t u : State} (h : RecordsKept s t) (k : RecordsKept t u) : RecordsKept s u :=
  ⟨k.slots.trans h.slots, k.channels.trans h.channels, k.history.trans h.history⟩

theorem RecordsKept.foldl {β : Type} {s t : State} (f : State → β → State) (l : List β) (h : RecordsKept s t)
    (hf : ∀ u b, RecordsKept s u → RecordsKept s (f u b)) : RecordsKept s (l.foldl f t) := by
  induction l generalizing t with
  | nil => exact h
  | cons b l ih => exact ih (hf t b h)

variable {s t : State}

/-- An update that leaves the three. -/
theorem RecordsKept.of_eq (h : RecordsKept s t) {u : State} (hs : u.slots = t.slots) (hc : u.channels = t.channels)
    (hh : u.history = t.history) : RecordsKept s u :=
  ⟨hs.trans h.slots, hc.trans h.channels, hh.trans h.history⟩

theorem RecordsKept.slot (h : RecordsKept s t) (i : SlotId) : t.slot i = s.slot i := by
  simp only [State.slot, h.slots]

theorem RecordsKept.channel (h : RecordsKept s t) (c : ChannelId) : t.channel c = s.channel c := by
  simp only [State.channel, h.channels]

theorem RecordsKept.place (h : RecordsKept s t) (p : PlaceId) : t.place p = s.place p := by
  simp only [State.place, h.history]

theorem RecordsKept.freeDraws (h : RecordsKept s t) (n : Nat) : RecordsKept s { t with freeDraws := n } :=
  h.of_eq rfl rfl rfl

theorem RecordsKept.raise (h : RecordsKept s t) (n : Notice) :
    RecordsKept s (t.raise n) := h.of_eq rfl rfl rfl

theorem RecordsKept.updEngine (h : RecordsKept s t) (f : Engine → Engine) :
    RecordsKept s (t.updEngine f) := h.of_eq rfl rfl rfl

theorem RecordsKept.nonceDrawn (h : RecordsKept s t) :
    RecordsKept s (t.nonceDrawn) := h.of_eq rfl rfl rfl

theorem RecordsKept.stampUsed (h : RecordsKept s t) :
    RecordsKept s (t.stampUsed) := h.of_eq rfl rfl rfl

theorem RecordsKept.setWanted (h : RecordsKept s t) (i : SlotId) (m : TagMark) (v : Bool) :
    RecordsKept s (t.setWanted i m v) := h.of_eq rfl rfl rfl

theorem RecordsKept.updCommit (h : RecordsKept s t) (i : SlotId) (f : CommitState → CommitState) :
    RecordsKept s (t.updCommit i f) := h.of_eq rfl rfl rfl

theorem RecordsKept.updLane (h : RecordsKept s t) (l : LaneId) (f : Lane → Lane) :
    RecordsKept s (t.updLane l f) := h.of_eq rfl rfl rfl

theorem RecordsKept.updSense (h : RecordsKept s t) (f : LevelSense → LevelSense) :
    RecordsKept s (t.updSense f) := h.of_eq rfl rfl rfl

theorem RecordsKept.updSlotSense (h : RecordsKept s t) (i : SlotId) (f : SlotSense → SlotSense) :
    RecordsKept s (t.updSlotSense i f) := h.of_eq rfl rfl rfl

/-! ## Sensing -/

theorem RecordsKept.placeRequest (h : RecordsKept s t) (i : SlotId) (why : Reasons) {u : State}
    (e : t.placeRequest i why = some u) : RecordsKept s u := by
  simp only [State.placeRequest] at e
  split at e
  · cases e
    exact h.updSense _
  · split at e
    · cases e
      exact (h.updSense _).stampUsed
    · cases e

theorem RecordsKept.holdAdmission (h : RecordsKept s t) (i : SlotId) : RecordsKept s (t.holdAdmission i) := by
  dsimp only [State.holdAdmission]
  repeat'
    first
      | with_reducible exact h
      | with_reducible apply RecordsKept.updSense
      | assumption
      | split

theorem RecordsKept.placeHeldN (h : RecordsKept s t) (n : Nat) : RecordsKept s (State.placeHeldN n t) := by
  induction n generalizing t with
  | zero => exact h
  | succ n ih =>
    simp only [State.placeHeldN]
    split
    · exact h
    · split
      · rename_i e
        exact ih ((h.updSense _).placeRequest _ _ e)
      · exact h

theorem RecordsKept.placeHeld (h : RecordsKept s t) : RecordsKept s t.placeHeld := h.placeHeldN _

theorem RecordsKept.requestAdmission (h : RecordsKept s t) (i : SlotId) : RecordsKept s (t.requestAdmission i) := by
  simp only [State.requestAdmission]
  split
  · rename_i e
    exact h.placeRequest _ _ e
  · exact h.holdAdmission i

theorem RecordsKept.returnRequest (h : RecordsKept s t) (q : Injected) : RecordsKept s (t.returnRequest q) := by
  dsimp only [State.returnRequest]
  repeat'
    first
      | with_reducible exact h
      | with_reducible apply RecordsKept.updSense
      | with_reducible apply RecordsKept.holdAdmission
      | assumption
      | split

theorem RecordsKept.discardConversion (h : RecordsKept s t) : RecordsKept s t.discardConversion := by
  dsimp only [State.discardConversion]
  repeat'
    first
      | with_reducible exact h
      | with_reducible apply RecordsKept.updSense
      | assumption
      | split

theorem RecordsKept.abandonRun (h : RecordsKept s t) : RecordsKept s t.abandonRun := by
  dsimp only [State.abandonRun]
  repeat'
    first
      | with_reducible exact h
      | with_reducible apply RecordsKept.updSense
      | with_reducible apply RecordsKept.discardConversion
      | with_reducible apply RecordsKept.returnRequest
      | assumption
      | split

theorem RecordsKept.goesOnWire (h : RecordsKept s t) (i : SlotId) : RecordsKept s (t.goesOnWire i) := by
  dsimp only [State.goesOnWire]
  repeat'
    first
      | with_reducible exact h
      | with_reducible apply RecordsKept.abandonRun
      | with_reducible apply RecordsKept.discardConversion
      | with_reducible apply RecordsKept.updSense
      | assumption
      | split

theorem RecordsKept.removeSensing (h : RecordsKept s t) (i : SlotId) : RecordsKept s (t.removeSensing i) := by
  dsimp only [State.removeSensing]
  repeat'
    first
      | with_reducible exact h
      | with_reducible apply RecordsKept.updSense
      | with_reducible apply RecordsKept.placeHeld
      | assumption
      | split

theorem RecordsKept.dropAdmissionReason (h : RecordsKept s t) (i : SlotId) : RecordsKept s (t.dropAdmissionReason i) := by
  dsimp only [State.dropAdmissionReason]
  repeat'
    first
      | with_reducible exact h
      | with_reducible apply RecordsKept.updSense
      | with_reducible apply RecordsKept.discardConversion
      | with_reducible apply RecordsKept.placeHeld
      | assumption
      | split

theorem RecordsKept.startConversion (h : RecordsKept s t) (source : Source) (ofRun : Bool) : RecordsKept s (t.startConversion source ofRun) := by
  dsimp only [State.startConversion]
  repeat'
    first
      | with_reducible exact h
      | with_reducible apply RecordsKept.updSense
      | assumption
      | split

theorem RecordsKept.startInjected (h : RecordsKept s t) {u : State} (e : t.startInjected = some u) :
    RecordsKept s u := by
  simp only [State.startInjected] at e
  split at e
  · cases e
  · split at e
    · cases e
      exact ((h.updSense _).startConversion _ _).placeHeld
    · cases e

theorem RecordsKept.endPass (h : RecordsKept s t) : RecordsKept s t.endPass := by
  dsimp only [State.endPass]
  repeat'
    first
      | with_reducible exact h
      | with_reducible apply RecordsKept.updSense
      | assumption
      | split

theorem RecordsKept.scanFrom (h : RecordsKept s t) (l : List Source) : RecordsKept s (State.scanFrom l t) := by
  induction l generalizing t with
  | nil => exact h.endPass
  | cons x l ih =>
    have k := h.updSense fun u => { u with position := u.position + 1 }
    simp only [State.scanFrom]
    split
    · exact (k.updSense _).startConversion _ _
    · split
      · exact ih k
      · split
        · exact ih (k.updSense _)
        · exact (k.updSense _).startConversion _ _

theorem RecordsKept.passOver (h : RecordsKept s t) : RecordsKept s t.passOver := by
  simp only [State.passOver]
  split
  · exact h.endPass
  · exact h

theorem RecordsKept.converterWork (h : RecordsKept s t) : RecordsKept s t.converterWork := by
  simp only [State.converterWork]
  split
  · exact h
  · have k := h.passOver
    split
    · rename_i e
      exact k.startInjected e
    · split
      · exact k.scanFrom _
      · exact k

theorem RecordsKept.takeUpScan (h : RecordsKept s t) : RecordsKept s t.takeUpScan := by
  dsimp only [State.takeUpScan]
  repeat'
    first
      | with_reducible exact h
      | with_reducible apply RecordsKept.updSense
      | assumption
      | split

theorem RecordsKept.beginPass (h : RecordsKept s t) : RecordsKept s t.beginPass := by
  dsimp only [State.beginPass]
  repeat'
    first
      | with_reducible exact h
      | with_reducible apply RecordsKept.updSense
      | assumption
      | split

theorem RecordsKept.haltScan (h : RecordsKept s t) : RecordsKept s t.haltScan := by
  dsimp only [State.haltScan]
  repeat'
    first
      | with_reducible exact h
      | with_reducible apply RecordsKept.updSense
      | with_reducible apply RecordsKept.takeUpScan
      | assumption
      | split

theorem RecordsKept.resumeScan (h : RecordsKept s t) : RecordsKept s t.resumeScan := by
  dsimp only [State.resumeScan]
  repeat'
    first
      | with_reducible exact h
      | with_reducible apply RecordsKept.updSense
      | assumption
      | split

theorem RecordsKept.countHostSense (h : RecordsKept s t) (i : SlotId) : RecordsKept s (t.countHostSense i) := by
  rw [State.countHostSense]
  split
  · exact h.updSlotSense _ _
  · exact RecordsKept.freeDraws (h.updSlotSense _ _) _

/-! ## Lanes -/

theorem RecordsKept.commitSent (h : RecordsKept s t) (i : SlotId) : RecordsKept s (t.commitSent i) := by
  dsimp only [State.commitSent]
  repeat'
    first
      | with_reducible exact h
      | with_reducible apply RecordsKept.updCommit
      | assumption
      | split

theorem RecordsKept.startTransaction (h : RecordsKept s t) (l : LaneId) (e : LaneEntry) : RecordsKept s (t.startTransaction l e) := by
  dsimp only [State.startTransaction]
  repeat'
    first
      | with_reducible exact h
      | with_reducible apply RecordsKept.updLane
      | with_reducible apply RecordsKept.commitSent
      | with_reducible apply RecordsKept.goesOnWire
      | assumption
      | split

theorem RecordsKept.passDone (h : RecordsKept s t) (e : LaneEntry) (status : PassStatus) : RecordsKept s (t.passDone e status) := by
  dsimp only [State.passDone]
  repeat'
    first
      | with_reducible exact h
      | with_reducible apply RecordsKept.raise
      | assumption
      | split

theorem RecordsKept.takeEntryN (h : RecordsKept s t) (n : Nat) (l : LaneId) :
    RecordsKept s (State.takeEntryN n t l) := by
  induction n generalizing t with
  | zero => exact h
  | succ n ih =>
    simp only [State.takeEntryN]
    split
    · exact h.updLane _ _
    · split
      · exact h
      · split
        · exact ih ((h.updLane _ _).passDone _ _)
        · exact (h.updLane _ _).startTransaction _ _

theorem RecordsKept.takeEntry (h : RecordsKept s t) (l : LaneId) : RecordsKept s (t.takeEntry l) := h.takeEntryN _ l

theorem RecordsKept.laneFree (h : RecordsKept s t) (l : LaneId) : RecordsKept s (t.laneFree l) := by
  dsimp only [State.laneFree]
  repeat'
    first
      | with_reducible exact h
      | with_reducible apply RecordsKept.updLane
      | with_reducible apply RecordsKept.takeEntry
      | assumption
      | split

theorem RecordsKept.enqueue (h : RecordsKept s t) (e : LaneEntry) : RecordsKept s (t.enqueue e) := by
  dsimp only [State.enqueue]
  repeat'
    first
      | with_reducible exact h
      | with_reducible apply RecordsKept.updLane
      | with_reducible apply RecordsKept.takeEntry
      | assumption
      | split

theorem RecordsKept.dropEntries (h : RecordsKept s t) (i : SlotId) (drop : LaneClass → Bool) : RecordsKept s (t.dropEntries i drop) := by
  dsimp only [State.dropEntries]
  repeat'
    first
      | with_reducible exact h
      | with_reducible apply RecordsKept.updLane
      | assumption
      | split

theorem RecordsKept.requestMark (h : RecordsKept s t) (i : SlotId) (m : TagMark) : RecordsKept s (t.requestMark i m) := by
  dsimp only [State.requestMark]
  repeat'
    first
      | with_reducible exact h
      | with_reducible apply RecordsKept.enqueue
      | with_reducible apply RecordsKept.setWanted
      | assumption
      | split

theorem RecordsKept.markEnded (h : RecordsKept s t) (i : SlotId) (m : TagMark) : RecordsKept s (t.markEnded i m) := by
  dsimp only [State.markEnded]
  repeat'
    first
      | with_reducible exact h
      | with_reducible apply RecordsKept.setWanted
      | with_reducible apply RecordsKept.enqueue
      | assumption
      | split

/-! ## Commits -/

theorem RecordsKept.takeCommit (h : RecordsKept s t) (i : SlotId) : RecordsKept s (t.takeCommit i) := by
  dsimp only [State.takeCommit]
  repeat'
    first
      | with_reducible exact h
      | with_reducible apply RecordsKept.nonceDrawn
      | with_reducible apply RecordsKept.updCommit
      | with_reducible apply RecordsKept.enqueue
      | assumption
      | split

theorem RecordsKept.enlargeCommit (h : RecordsKept s t) (i : SlotId) : RecordsKept s (t.enlargeCommit i) := by
  dsimp only [State.enlargeCommit]
  repeat'
    first
      | with_reducible exact h
      | with_reducible apply RecordsKept.updCommit
      | with_reducible apply RecordsKept.updLane
      | assumption
      | split

theorem RecordsKept.actTrigger (h : RecordsKept s t) (i : SlotId) (forced : Bool) : RecordsKept s (t.actTrigger i forced) := by
  dsimp only [State.actTrigger]
  repeat'
    first
      | with_reducible exact h
      | with_reducible apply RecordsKept.takeCommit
      | with_reducible apply RecordsKept.enlargeCommit
      | with_reducible apply RecordsKept.updCommit
      | assumption
      | split

theorem RecordsKept.forcedTrigger (h : RecordsKept s t) (i : SlotId) : RecordsKept s (t.forcedTrigger i) := by
  dsimp only [State.forcedTrigger]
  repeat'
    first
      | with_reducible exact h
      | with_reducible apply RecordsKept.actTrigger
      | assumption
      | split

theorem RecordsKept.stepTrigger (h : RecordsKept s t) (i : SlotId) : RecordsKept s (t.stepTrigger i) := by
  dsimp only [State.stepTrigger]
  repeat'
    first
      | with_reducible exact h
      | with_reducible apply RecordsKept.actTrigger
      | assumption
      | split

theorem RecordsKept.withdrawCommit (h : RecordsKept s t) (i : SlotId) : RecordsKept s (t.withdrawCommit i) := by
  dsimp only [State.withdrawCommit]
  repeat'
    first
      | with_reducible exact h
      | with_reducible apply RecordsKept.dropEntries
      | with_reducible apply RecordsKept.updCommit
      | assumption
      | split

theorem RecordsKept.landed (h : RecordsKept s t) (i : SlotId) : RecordsKept s (t.landed i) := by
  dsimp only [State.landed]
  repeat'
    first
      | with_reducible exact h
      | with_reducible apply RecordsKept.updCommit
      | assumption
      | split

theorem RecordsKept.actAgain (h : RecordsKept s t) (i : SlotId) : RecordsKept s (t.actAgain i) := by
  dsimp only [State.actAgain]
  repeat'
    first
      | with_reducible exact h
      | with_reducible apply RecordsKept.updCommit
      | with_reducible apply RecordsKept.stepTrigger
      | with_reducible apply RecordsKept.forcedTrigger
      | assumption
      | split

/-! ## EngineOps -/

theorem RecordsKept.commitChecking (h : RecordsKept s t) (j : Job) : RecordsKept s (t.commitChecking j) := by
  dsimp only [State.commitChecking]
  repeat'
    first
      | with_reducible exact h
      | with_reducible apply RecordsKept.updCommit
      | assumption
      | split

theorem RecordsKept.joinEngine (h : RecordsKept s t) (j : Job) : RecordsKept s (t.joinEngine j) := by
  dsimp only [State.joinEngine]
  repeat'
    first
      | with_reducible exact h
      | with_reducible apply RecordsKept.updEngine
      | with_reducible apply RecordsKept.commitChecking
      | assumption
      | split

theorem RecordsKept.offerJob (h : RecordsKept s t) (l : LaneId) (j : Job) : RecordsKept s (t.offerJob l j) := by
  dsimp only [State.offerJob]
  repeat'
    first
      | with_reducible exact h
      | with_reducible apply RecordsKept.joinEngine
      | with_reducible apply RecordsKept.laneFree
      | with_reducible apply RecordsKept.updLane
      | with_reducible apply RecordsKept.updEngine
      | assumption
      | split

theorem RecordsKept.placeFreed (h : RecordsKept s t) : RecordsKept s t.placeFreed := by
  dsimp only [State.placeFreed]
  repeat'
    first
      | with_reducible exact h
      | with_reducible apply RecordsKept.updEngine
      | with_reducible apply RecordsKept.joinEngine
      | with_reducible apply RecordsKept.laneFree
      | assumption
      | split

theorem RecordsKept.startNextJob (h : RecordsKept s t) : RecordsKept s t.startNextJob := by
  dsimp only [State.startNextJob]
  repeat'
    first
      | with_reducible exact h
      | with_reducible apply RecordsKept.updEngine
      | with_reducible apply RecordsKept.placeFreed
      | assumption
      | split

theorem RecordsKept.withdrawJobs (h : RecordsKept s t) (i : SlotId) (all : Bool) : RecordsKept s (t.withdrawJobs i all) := by
  dsimp only [State.withdrawJobs]
  repeat'
    first
      | with_reducible exact h
      | with_reducible apply RecordsKept.updEngine
      | with_reducible apply RecordsKept.placeFreed
      | assumption
      | split

theorem RecordsKept.dropHeld (h : RecordsKept s t) (i : SlotId) (all : Bool) : RecordsKept s (t.dropHeld i all) := by
  dsimp only [State.dropHeld]
  repeat'
    first
      | with_reducible exact h
      | with_reducible apply RecordsKept.updEngine
      | with_reducible apply RecordsKept.laneFree
      | assumption
      | split

theorem RecordsKept.abandonTransaction (h : RecordsKept s t) (i : SlotId) : RecordsKept s (t.abandonTransaction i) := by
  dsimp only [State.abandonTransaction]
  repeat'
    first
      | with_reducible exact h
      | with_reducible apply RecordsKept.updLane
      | assumption
      | split

theorem RecordsKept.abandonAdmission (h : RecordsKept s t) (i : SlotId) : RecordsKept s (t.abandonAdmission i) := by
  dsimp only [State.abandonAdmission]
  repeat'
    first
      | with_reducible exact h
      | with_reducible apply RecordsKept.dropEntries
      | with_reducible apply RecordsKept.abandonTransaction
      | with_reducible apply RecordsKept.withdrawJobs
      | with_reducible apply RecordsKept.dropHeld
      | with_reducible apply RecordsKept.dropAdmissionReason
      | assumption
      | split

theorem RecordsKept.abortTransaction (h : RecordsKept s t) (i : SlotId) : RecordsKept s (t.abortTransaction i) := by
  dsimp only [State.abortTransaction]
  repeat'
    first
      | with_reducible exact h
      | with_reducible apply RecordsKept.laneFree
      | assumption
      | split

theorem RecordsKept.wanted (h : RecordsKept s t) (w : Vector WantedMarks 16) :
    RecordsKept s { t with bus := { t.bus with wanted := w } } :=
  h.of_eq rfl rfl rfl

theorem RecordsKept.removeWork (h : RecordsKept s t) (i : SlotId) : RecordsKept s (t.removeWork i) := by
  simp only [State.removeWork]
  apply RecordsKept.wanted
  apply RecordsKept.withdrawJobs
  apply RecordsKept.dropHeld
  apply RecordsKept.abortTransaction
  apply RecordsKept.foldl
  · exact h.dropEntries _ _
  · exact fun _ _ k => k.passDone _ _

end Sys2Proof.Machine
end

