-- ==== Sys2Proof/Laws/Settle.lean ====
section
/-! SUPPORT. What the end of an event does: the converter's next work touches the Level Sense Unit alone, the History
Unit's next write its queue and the write in progress. -/

namespace Sys2Proof.Machine

variable {s t : State}

/-! ## The Level Sense Unit's own work -/

/-- Only the Level Sense Unit and the order of joining differ. -/
def SenseOnly (s t : State) : Prop := t = { s with sense := t.sense, joinStamps := t.joinStamps }

theorem SenseOnly.refl (s : State) : SenseOnly s s := rfl

theorem SenseOnly.trans {u : State} (h : SenseOnly s t) (k : SenseOnly t u) : SenseOnly s u := by
  simp only [SenseOnly] at *
  rw [k, h]

theorem SenseOnly.updSense (h : SenseOnly s t) (f : LevelSense → LevelSense) : SenseOnly s (t.updSense f) :=
  h.trans rfl

theorem SenseOnly.stampUsed (h : SenseOnly s t) : SenseOnly s t.stampUsed := h.trans rfl

theorem SenseOnly.startConversion (h : SenseOnly s t) (source : Source) (ofRun : Bool) :
    SenseOnly s (t.startConversion source ofRun) := h.trans rfl

theorem SenseOnly.placeRequest (h : SenseOnly s t) {i : SlotId} {why : Reasons} {u : State}
    (e : t.placeRequest i why = some u) : SenseOnly s u := by
  simp only [State.placeRequest] at e
  split at e
  · cases e; exact h.updSense _
  · split at e
    · cases e; exact (h.updSense _).stampUsed
    · cases e

theorem SenseOnly.placeHeldN (h : SenseOnly s t) (n : Nat) : SenseOnly s (State.placeHeldN n t) := by
  induction n generalizing t with
  | zero => exact h
  | succ n ih =>
    simp only [State.placeHeldN]
    split
    · exact h
    · split
      · rename_i e
        exact ih ((h.updSense _).placeRequest e)
      · exact h

theorem SenseOnly.startInjected (h : SenseOnly s t) {u : State} (e : t.startInjected = some u) : SenseOnly s u := by
  simp only [State.startInjected] at e
  split at e
  · cases e
  · split at e
    · cases e
      exact ((h.updSense _).startConversion _ _).placeHeldN _
    · cases e

theorem SenseOnly.scanFrom (h : SenseOnly s t) (l : List Source) : SenseOnly s (State.scanFrom l t) := by
  induction l generalizing t with
  | nil =>
    rw [State.scanFrom, State.endPass]
    exact h.updSense _
  | cons x l ih =>
    have k := h.updSense fun u => { u with position := u.position + 1 }
    simp only [State.scanFrom]
    split
    · exact (k.updSense _).startConversion _ _
    · split
      · exact ih k
      · split
        · exact ih (k.updSense _)
        · exact (k.updSense _).startConversion _ _

/-- The converter's next work leaves every slot's sensing items. -/
def SlotItemsKept (s t : State) : Prop := t.sense.slots = s.sense.slots

theorem SlotItemsKept.placeHeldN (h : SlotItemsKept s t) (n : Nat) : SlotItemsKept s (State.placeHeldN n t) := by
  induction n generalizing t with
  | zero => exact h
  | succ n ih =>
    simp only [State.placeHeldN]
    split
    · exact h
    · split
      · rename_i e
        apply ih
        simp only [State.placeRequest] at e
        split at e
        · cases e; exact h
        · split at e
          · cases e; exact h
          · cases e
      · exact h

theorem SlotItemsKept.scanFrom (h : SlotItemsKept s t) (l : List Source) : SlotItemsKept s (State.scanFrom l t) := by
  induction l generalizing t with
  | nil => exact h
  | cons x l ih =>
    simp only [State.scanFrom]
    split
    · exact h
    · split
      · exact ih h
      · split
        · exact ih h
        · exact h

theorem State.passOver_only (s : State) : SenseOnly s s.passOver := by
  simp only [State.passOver]
  split
  · exact (SenseOnly.refl s).updSense _
  · exact .refl s

theorem State.passOver_items (s : State) : s.passOver.sense.slots = s.sense.slots := by
  simp only [State.passOver]
  split <;> rfl

theorem State.converterWork_only (s : State) : SenseOnly s s.converterWork := by
  simp only [State.converterWork]
  split
  · exact .refl s
  · split
    · rename_i e
      exact s.passOver_only.startInjected e
    · split
      · exact s.passOver_only.scanFrom _
      · exact s.passOver_only

theorem State.converterWork_items (s : State) : s.converterWork.sense.slots = s.sense.slots := by
  simp only [State.converterWork]
  split
  · rfl
  · split
    · rename_i e
      simp only [State.startInjected] at e
      split at e
      · cases e
      · split at e
        · cases e
          refine SlotItemsKept.placeHeldN (s := s) (t := State.startConversion (State.updSense _ _) _ _) ?_ _
          exact s.passOver_items
        · cases e
    · split
      · exact SlotItemsKept.scanFrom (s := s) (t := s.passOver) s.passOver_items _
      · exact s.passOver_items

/-! ## The History Unit's next write -/

/-- Only the store queue, the write in progress and the places a reset waits for differ. -/
def WriteOnly (s t : State) : Prop :=
  t = { s with
    history := { s.history with
      urgent := t.history.urgent
      ordinary := t.history.ordinary
      writing := t.history.writing }
    preparation := t.preparation }

theorem State.startWrite_only (s : State) : WriteOnly s s.startWrite := by
  simp only [State.startWrite]
  split
  · rfl
  · split <;> rfl

/-! ## The end of an event -/

theorem State.settle_only (s : State) :
    s.settle = { s with
      sense := s.settle.sense
      joinStamps := s.settle.joinStamps
      history := { s.history with
        urgent := s.settle.history.urgent
        ordinary := s.settle.history.ordinary
        writing := s.settle.history.writing }
      preparation := s.settle.preparation } := by
  have h := s.converterWork_only
  have k := s.converterWork.startWrite_only
  simp only [SenseOnly] at h
  simp only [WriteOnly] at k
  simp only [State.settle]
  rw [k, h]

@[simp] theorem State.settle_pins (s : State) : s.settle.pins = s.pins := by rw [settle_only]
@[simp] theorem State.settle_host (s : State) : s.settle.host = s.host := by rw [settle_only]
@[simp] theorem State.settle_notices (s : State) : s.settle.notices = s.notices := by rw [settle_only]
@[simp] theorem State.settle_cause (s : State) : s.settle.cause = s.cause := by rw [settle_only]
@[simp] theorem State.settle_store (s : State) : s.settle.store = s.store := by rw [settle_only]
@[simp] theorem State.settle_slots (s : State) : s.settle.slots = s.slots := by rw [settle_only]
@[simp] theorem State.settle_debounce (s : State) : s.settle.debounce = s.debounce := by rw [settle_only]
@[simp] theorem State.settle_debounceTime (s : State) : s.settle.debounceTime = s.debounceTime := by rw [settle_only]
@[simp] theorem State.settle_bus (s : State) : s.settle.bus = s.bus := by rw [settle_only]
@[simp] theorem State.settle_engine (s : State) : s.settle.engine = s.engine := by rw [settle_only]
@[simp] theorem State.settle_keys (s : State) : s.settle.keys = s.keys := by rw [settle_only]
@[simp] theorem State.settle_tally (s : State) : s.settle.tally = s.tally := by rw [settle_only]
@[simp] theorem State.settle_channels (s : State) : s.settle.channels = s.channels := by rw [settle_only]
@[simp] theorem State.settle_commits (s : State) : s.settle.commits = s.commits := by rw [settle_only]
@[simp] theorem State.settle_clockMs (s : State) : s.settle.clockMs = s.clockMs := by rw [settle_only]
@[simp] theorem State.settle_nonceDraws (s : State) : s.settle.nonceDraws = s.nonceDraws := by rw [settle_only]
@[simp] theorem State.settle_freeDraws (s : State) : s.settle.freeDraws = s.freeDraws := by rw [settle_only]
@[simp] theorem State.settle_pending (s : State) : s.settle.pending = s.pending := by rw [settle_only]

@[simp] theorem State.settle_slot (s : State) (i : SlotId) : s.settle.slot i = s.slot i := by
  simp only [State.slot, State.settle_slots]
@[simp] theorem State.settle_channel (s : State) (c : ChannelId) : s.settle.channel c = s.channel c := by
  simp only [State.channel, State.settle_channels]
@[simp] theorem State.settle_commit (s : State) (i : SlotId) : s.settle.commit i = s.commit i := by
  simp only [State.commit, State.settle_commits]
@[simp] theorem State.settle_lane (s : State) (l : LaneId) : s.settle.lane l = s.lane l := by
  simp only [State.lane, State.settle_bus]
@[simp] theorem State.settle_history_places (s : State) : s.settle.history.places = s.history.places := by
  rw [settle_only]
@[simp] theorem State.settle_history_image (s : State) : s.settle.history.image = s.history.image := by
  rw [settle_only]
@[simp] theorem State.settle_history_recency (s : State) : s.settle.history.recency = s.history.recency := by
  rw [settle_only]
@[simp] theorem State.settle_history_forfeited (s : State) : s.settle.history.forfeited = s.history.forfeited := by
  rw [settle_only]
@[simp] theorem State.settle_history_round (s : State) : s.settle.history.round = s.history.round := by
  rw [settle_only]
@[simp] theorem State.settle_place (s : State) (p : PlaceId) : s.settle.place p = s.place p := by
  simp only [State.place, State.settle_history_places]

theorem State.settle_items (s : State) : s.settle.sense.slots = s.sense.slots := by
  have k := s.converterWork.startWrite_only
  simp only [WriteOnly] at k
  simp only [State.settle]
  rw [k]
  exact s.converterWork_items

@[simp] theorem State.settle_slotSense (s : State) (i : SlotId) : s.settle.slotSense i = s.slotSense i := by
  simp only [State.slotSense, State.settle_items]

end Sys2Proof.Machine
end

