-- ==== Sys2Proof/Laws/Requests.lean ====
section
/-! SUPPORT. What taking a request does, by the link's state and the body: one lemma each, and the two ways of writing the
state after a reply. -/

namespace Sys2Proof.Machine

variable {α : Type} {s : State} {kind tag : Byte}

@[simp] theorem State.beginRequest_working (s : State) : s.beginRequest.host.working = true := rfl

theorem HostLink.answerBusy_eq (s : State) (kind tag : Byte) : s.host.answerBusy kind tag = s.hostBusy kind tag := by
  unfold HostLink.answerBusy HostLink.answer State.hostBusy
  split
  · rfl
  · rename_i k
    exact if_neg k

/-- A frame that completes while the link is WORKING. -/
theorem State.request_working (body : Body α) (serve : α → State → State × Answer) (h : s.host.working = true) :
    s.request kind tag body serve = { s with host := s.hostBusy kind tag } := by
  simp only [State.request, h, if_true, State.updHost, HostLink.answerBusy_eq]

/-- A request of the right length, taken while the link is READY. -/
theorem State.request_ready (f : α) (serve : α → State → State × Answer) (h : s.host.working = false) :
    s.request kind tag (.fields f) serve =
      (serve f s.beginRequest).1.sendReply kind tag (serve f s.beginRequest).2 := by
  simp [State.request, h, serveBody]

/-- A request of the wrong length, taken while the link is READY. -/
theorem State.request_wrongLength (serve : α → State → State × Answer) (h : s.host.working = false) :
    s.request kind tag .wrongLength serve = s.answering kind tag .badArgument .none := by
  simp [State.request, h, serveBody, State.sendReply, State.updHost, State.beginRequest, State.answering,
    State.hostReplying, only]

/-- A reply to a request that changed nothing but what `u` says. -/
theorem State.sendReply_answering {u : State} (a : Answer) (h : u.host.working = true) :
    u.sendReply kind tag a = u.answering kind tag a.status a.fields := by
  have e : ({ u.host with working := true } : HostLink) = u.host := by rw [← h]
  simp only [State.sendReply, State.updHost, State.answering, State.hostReplying, e]

theorem State.answering_beginRequest (status : Status) (fields : ReplyFields) :
    s.beginRequest.answering kind tag status fields = s.answering kind tag status fields := rfl

/-- What was not disturbed while a request was served is answered as the request is. -/
theorem Undisturbed.answering {u : State} (h : Undisturbed s.beginRequest u) (a : Answer) :
    u.sendReply kind tag a = u.answering kind tag a.status a.fields :=
  State.sendReply_answering a (by rw [h.host]; rfl)

end Sys2Proof.Machine
end

