-- ==== Sys2Proof/Laws/Commands.lean ====
section
/-! SUPPORT. The operations of the commands that change what `Undisturbed` names: from the state with that change made,
the rest of the operation disturbs nothing. -/

namespace Sys2Proof.Machine

variable {s t : State}

/-! ## Slots -/

theorem Undisturbed.removal (s : State) (i : SlotId) : Undisturbed (s.setPresence i false) (s.removal i) :=
  ((((Undisturbed.refl _).removeWork i).removeSamples i).removeAccounts i).vacate i

/-! ## Charges -/

theorem Undisturbed.charge (s : State) (c : ChannelId) (amount : Nat) :
    Undisturbed (s.book c amount (s.booking c amount)) (s.charge c amount) := by
  have k := (Undisturbed.refl (s.book c amount (s.booking c amount))).draw c amount
  simp only [State.charge]
  split
  · split
    · exact (k.slotCharged _).channelCharged c
    · exact k.channelCharged c
  · exact k.channelCharged c

theorem AccountsKept.charge (s : State) (c : ChannelId) (amount : Nat) :
    AccountsKept (s.book c amount (s.booking c amount)) (s.charge c amount) := by
  have k := (AccountsKept.refl (s.book c amount (s.booking c amount))).draw c amount
  simp only [State.charge]
  split
  · split
    · exact (k.slotCharged _).channelCharged c
    · exact k.channelCharged c
  · exact k.channelCharged c

/-- The counters of the channel charged, and every other channel as it was. -/
theorem State.book_channel (s : State) (c d : ChannelId) (amount : Nat) (b : Booking) :
    (s.book c amount b).channel d =
      if c = d then { s.channel d with volume := (s.channel d).volume.charged amount b } else s.channel d := by
  simp only [State.book]
  split <;> simp [State.updVolume_channel]

/-- The serving slot takes its part, and every other slot is as it was. -/
theorem State.book_slot (s : State) (c : ChannelId) (i : SlotId) (amount : Nat) (b : Booking) :
    (s.book c amount b).slot i =
      if (s.channel c).serving = some i then { s.slot i with uncommitted := (s.slot i).uncommitted + b.toSlot }
      else s.slot i := by
  simp only [State.book, State.updVolume_channel_same]
  split <;> rename_i e <;> simp [e, State.updSlot_slot]

/-- A booking changes the channels and the slots alone. -/
theorem State.book_only (s : State) (c : ChannelId) (amount : Nat) (b : Booking) :
    s.book c amount b =
      { s with channels := (s.book c amount b).channels, slots := (s.book c amount b).slots } := by
  simp only [State.book]
  split <;> rfl

/-- The parts of a booking are the whole amount. -/
theorem State.booking_sum (s : State) (c : ChannelId) (amount : Nat) :
    (s.booking c amount).toSlot + (s.booking c amount).overdraw + (s.booking c amount).unattributed = amount := by
  simp only [State.booking]
  split <;> simp <;> omega

/-! ## Channels -/

theorem Undisturbed.takeSettings (s : State) (c : ChannelId) (new : ChannelSettings) :
    Undisturbed (s.updChannel c fun ch => { ch with settings := new }) (s.takeSettings c new) :=
  (Undisturbed.refl _).settingsAct c _ new

theorem Undisturbed.enableChannel (s : State) (c : ChannelId) :
    Undisturbed
      (s.updChannel c fun ch =>
        { ch with
          state := .unsupplied
          volume := { ch.volume with windowSum := 0, windowLength := ch.settings.flowWindow } })
      (s.enableChannel c) :=
  (((Undisturbed.refl _).select c).headTest c).raise _

/-- The serving slot of a channel returns to READY. -/
def State.servingReturned (s : State) (c : ChannelId) : State :=
  match (s.channel c).serving with
  | some i => s.toReady i
  | none => s

theorem Undisturbed.servingReturned (h : Undisturbed s t) (c : ChannelId) : Undisturbed s (t.servingReturned c) := by
  simp only [State.servingReturned]
  split
  · exact h.toReady _
  · exact h

/-- A disabled channel: its serving slot returned, its record closed, and nothing else disturbed. -/
theorem Undisturbed.disableChannel (s : State) (c : ChannelId) :
    Undisturbed ((s.servingReturned c).updChannel c Channel.disabled) (s.disableChannel c) :=
  ((Undisturbed.refl _).headTest c).raise _

theorem Undisturbed.setPair (s : State) (c : ChannelId) (pair : Option SupplyPair) :
    Undisturbed (s.updChannel c fun ch => { ch with pair := pair }) (s.setPair c pair) := by
  simp only [State.setPair]
  refine Undisturbed.foldl _ _ ?_ fun _ _ k => k.namePair c _
  exact (Undisturbed.refl _).foldl _ _ fun _ _ k => k.leavePair _

/-! ## Tally frames -/

/-- An entry that reaches the Volume Unit: its arithmetic, and the booking of a charge above 0, are all that is
disturbed. -/
theorem Undisturbed.takeEntryVolume (s : State) (e : TallyEntry) :
    ∃ v, v = s.updVolume e.channel (fun v => v.afterEntry e (s.channel e.channel).settings) ∧
      (entryCharge e (s.channel e.channel).settings (s.channel e.channel).volume = 0 ∧ s.takeEntryVolume e = v ∨
        ∃ amount, 0 < amount ∧ amount = entryCharge e (s.channel e.channel).settings (s.channel e.channel).volume ∧
          Undisturbed (v.book e.channel amount (v.booking e.channel amount)) (s.takeEntryVolume e)) := by
  refine ⟨_, rfl, ?_⟩
  simp only [State.takeEntryVolume]
  split
  · exact .inl ⟨‹_›, rfl⟩
  · exact .inr ⟨_, Nat.pos_of_ne_zero ‹_›, rfl, Undisturbed.charge _ _ _⟩

/-! ## Keys -/

theorem Undisturbed.provision (s : State) (key : Word128) :
    Undisturbed { s with keys := { s.keys with state := .provisioned key, writing := some key } } (s.provision key) := by
  simp only [State.provision]
  exact (Undisturbed.refl _).foldl _ _ fun _ _ k => k.restartSlot _

/-! ## The tally link -/

theorem byteOfBits_eq : ∀ b7 b6 b5 b4 b3 b2 b1 b0 : Bool, byteOfBits [b7, b6, b5, b4, b3, b2, b1, b0] =
    BitVec.ofBoolListBE [b7, b6, b5, b4, b3, b2, b1, b0] := by decide

/-- R68: each eight bits are a byte. -/
theorem gatherBytes_cons (n : Nat) (b7 b6 b5 b4 b3 b2 b1 b0 : Bool) (levels : List Bool) :
    gatherBytes (n + 1) (b7 :: b6 :: b5 :: b4 :: b3 :: b2 :: b1 :: b0 :: levels) =
      BitVec.ofBoolListBE [b7, b6, b5, b4, b3, b2, b1, b0] :: gatherBytes n levels := by
  rw [gatherBytes, if_neg (by simp)]
  exact congrArg (· :: _) (byteOfBits_eq ..)

theorem gatherBytes_length (n : Nat) (levels : List Bool) :
    (gatherBytes n levels).length = min n (levels.length / 8) := by
  induction n generalizing levels with
  | zero => simp [gatherBytes]
  | succ n ih =>
    rw [gatherBytes]
    split
    · next h => rw [Nat.div_eq_of_lt h]; simp
    · next h => simp only [List.length_cons, ih, List.length_drop]; omega

/-- Handing an entry on changes no waiting entry and not the skipping. -/
theorem State.routeEntry_waiting (s : State) (e : TallyEntry) :
    (s.routeEntry e).tally.waiting = s.tally.waiting ∧
      (s.routeEntry e).tally.skippingPartial = s.tally.skippingPartial := by
  unfold State.routeEntry
  split
  · exact ⟨rfl, rfl⟩
  · obtain ⟨v, rfl, ⟨-, h⟩ | ⟨amount, -, -, h⟩⟩ := Undisturbed.takeEntryVolume
        (s.updTally fun t => { t with handedOn := satAdd Config.maxU32 t.handedOn 1 }) e
    · rw [h]; exact ⟨rfl, rfl⟩
    · rw [h.tally, State.book_only]; exact ⟨rfl, rfl⟩

/-- R68: all waiting entries handed on, none waits. -/
theorem State.handOn_all (n : Nat) (s : State) (h : s.tally.waiting.length = n) :
    (State.handOn n s).tally.waiting = [] ∧
      (State.handOn n s).tally.skippingPartial = s.tally.skippingPartial := by
  induction n generalizing s with
  | zero => exact ⟨List.eq_nil_of_length_eq_zero h, rfl⟩
  | succ n ih =>
    rw [State.handOn]
    split
    · next k => rw [k] at h; cases h
    · next e rest k =>
      have := ih ((s.updTally fun t => { t with waiting := rest }).routeEntry e) (by
        rw [(State.routeEntry_waiting _ e).1]; show rest.length = n; rw [k] at h; exact Nat.succ.inj h)
      exact ⟨this.1, this.2.trans (State.routeEntry_waiting _ e).2⟩

/-! ## Notices -/

/-- The law of the queue and ATTN outlasts a raise (R198, R199). -/
theorem NoticeUnit.lawful.raise {u : NoticeUnit} (h : u.lawful) (n : Notice) : (u.raise n).lawful := by
  obtain ⟨hq, ha⟩ := h
  unfold NoticeUnit.raise
  by_cases hm : u.mask.getLsbD n.maskBit = true
  · by_cases hl : u.queue.length < Config.noticeCapacity
    · rw [if_pos hm, if_pos hl]
      simp only [Config.noticeCapacity] at hl
      exact ⟨by simp; omega, by simp⟩
    · rw [if_pos hm, if_neg hl]
      exact ⟨hq, ha⟩
  · rw [if_neg hm]
    exact ⟨hq, ha⟩

theorem Raises.lawful {u v : NoticeUnit} (r : Raises u v) (h : u.lawful) : v.lawful := by
  induction r with
  | refl => exact h
  | raise n _ ih => exact ih.raise n

/-- What was not disturbed keeps the laws. -/
theorem Undisturbed.noticesLawful (h : Undisturbed s t) (k : s.noticesLawful) : t.noticesLawful := h.notices.lawful k

theorem Undisturbed.permitsLawful (h : Undisturbed s t) (k : s.permitsLawful) : t.permitsLawful :=
  fun c => (h.channel c).permit (k c)

theorem Undisturbed.remaindersLawful (h : Undisturbed s t) (k : s.remaindersLawful) : t.remaindersLawful := by
  intro c
  rw [Volume.remaindersLawful, (h.channel c).volume]
  exact k c

theorem Undisturbed.totalsLawful (h : Undisturbed s t) (k : s.totalsLawful) : t.totalsLawful := by
  intro c
  rw [Volume.totalLawful, (h.channel c).volume]
  exact k c

theorem Undisturbed.tablesLawful (h : Undisturbed s t) (k : s.tablesLawful) : t.tablesLawful := by
  obtain ⟨h1, h2, h3, h4, h5⟩ := k
  refine ⟨?_, ?_, ?_, ?_, ?_⟩
  · rw [h.windows]; exact h1
  · rw [h.tableA]; exact h2
  · rw [h.tableB]; exact h3
  · rw [h.store]; exact h4
  · rw [h.store]; exact h5

end Sys2Proof.Machine
end

