-- ==== Sys2Proof/Laws/Switching.lean ====
section
/-! SUPPORT. What the Channel Controller's operations do to a channel and its slots, said once: the head test (R143,
R144), the completion and the cancelling of a switch (R130, R131), the planned switch (R129), failover (R132) with its
split marking (R133), and selection (R128). -/

namespace Sys2Proof.Machine

variable {s t u : State} {c : ChannelId} {i j : SlotId}

/-! ## The head test -/

/-- A reservation but for its wait timer. -/
def Reservation.unwaited (r : Reservation) : Reservation := { r with wait := none }

/-- What a head test leaves: only the channel's list, its stall flag and UNRESERVED_DRAW, and the notices, can differ, a
granted reservation stays as it is, and of a waiting one only the wait can end. -/
structure HeadTested (s t : State) (c : ChannelId) : Prop where
  only : t = { s with channels := t.channels, notices := t.notices }
  others : ∀ d, d ≠ c → t.channel d = s.channel d
  self : t.channel c = { s.channel c with
    reservations := (t.channel c).reservations
    stall := (t.channel c).stall
    unreservedDraw := (t.channel c).unreservedDraw }
  granted : ∀ r ∈ (s.channel c).reservations, r.isGranted = true → r ∈ (t.channel c).reservations
  items : (t.channel c).reservations.map Reservation.unwaited = (s.channel c).reservations.map Reservation.unwaited
  notices : Raises s.notices t.notices

theorem HeadTested.refl (s : State) (c : ChannelId) : HeadTested s s c :=
  ⟨rfl, fun _ _ => rfl, rfl, fun _ h _ => h, rfl, .refl⟩

theorem HeadTested.trans (h : HeadTested s t c) (k : HeadTested t u c) : HeadTested s u c where
  only := by rw [k.only, h.only]
  others d hd := by rw [k.others d hd, h.others d hd]
  self := by rw [k.self, h.self]
  granted r hr hg := k.granted r (h.granted r hr hg) hg
  items := k.items.trans h.items
  notices := h.notices.trans k.notices

theorem mem_grantFirst {r : Reservation} {l : List Reservation} (h : r ∈ l) (g : r.isGranted = true) :
    r ∈ grantFirst l := by
  induction l with
  | nil => cases h
  | cons x l ih =>
    rw [grantFirst]
    split
    · rcases List.mem_cons.1 h with rfl | h
      · exact List.mem_cons_self
      · exact List.mem_cons_of_mem _ (ih h)
    · rename_i hx
      rcases List.mem_cons.1 h with rfl | h
      · exact absurd g hx
      · exact List.mem_cons_of_mem _ h

theorem grantFirst_items (l : List Reservation) :
    (grantFirst l).map Reservation.unwaited = l.map Reservation.unwaited := by
  induction l with
  | nil => rfl
  | cons x l ih =>
    rw [grantFirst]
    split
    · rw [List.map_cons, ih, List.map_cons]
    · rfl

/-- A change of a channel's list, stall flag and UNRESERVED_DRAW that keeps the granted ones. -/
theorem HeadTested.updChannel (s : State) (c : ChannelId) (f : Channel → Channel)
    (hf : ∀ ch, f ch = { ch with
      reservations := (f ch).reservations, stall := (f ch).stall, unreservedDraw := (f ch).unreservedDraw })
    (hg : ∀ r ∈ (s.channel c).reservations, r.isGranted = true → r ∈ (f (s.channel c)).reservations)
    (hi : (f (s.channel c)).reservations.map Reservation.unwaited =
      (s.channel c).reservations.map Reservation.unwaited) :
    HeadTested s (s.updChannel c f) c where
  only := rfl
  others d hd := State.updChannel_channel_other _ _ _ _ (Ne.symm hd)
  self := by rw [State.updChannel_channel_same]; exact hf _
  granted := by rw [State.updChannel_channel_same]; exact hg
  items := by rw [State.updChannel_channel_same]; exact hi
  notices := .refl

theorem HeadTested.raise (s : State) (c : ChannelId) (n : Notice) : HeadTested s (s.raise n) c :=
  ⟨rfl, fun _ _ => rfl, rfl, fun _ h _ => h, rfl, .raise n .refl⟩

theorem State.grantTested_tested (s : State) (c : ChannelId) (size : Nat) : HeadTested s (s.grantTested c size) c :=
  .updChannel s c _ (fun _ => rfl) (fun _ h _ => h) rfl

theorem State.clearTest_tested (s : State) (c : ChannelId) : HeadTested s (s.clearTest c) c :=
  .updChannel s c _ (fun ch => by split <;> rfl) (fun _ h _ => by split <;> exact h) (by split <;> rfl)

theorem State.headTestN_tested (n : Nat) (s : State) (c : ChannelId) : HeadTested s (State.headTestN n s c) c := by
  induction n generalizing s with
  | zero => exact .refl s c
  | succ n ih =>
    rw [State.headTestN]
    split
    · exact .refl s c
    · split
      · refine .trans ?_ (ih _)
        refine .trans (.updChannel s c _ (fun _ => rfl) (fun r h g => mem_grantFirst h g) (grantFirst_items _)) (.raise _ c _)
      · exact s.grantTested_tested c _

theorem State.headTest_tested (s : State) (c : ChannelId) : HeadTested s (s.headTest c) c := s.headTestN_tested _ c

theorem HeadTested.slot (h : HeadTested s t c) (i : SlotId) : t.slot i = s.slot i := by
  rw [h.only]; rfl

theorem HeadTested.slots (h : HeadTested s t c) : t.slots = s.slots := by
  rw [h.only]

theorem State.updChannel_eq (s : State) (c : ChannelId) (f : Channel → Channel) :
    s.updChannel c f = s.withChannel c (f (s.channel c)) := rfl

/-! ## The grant test, the clear test and the head test -/

theorem State.grantPasses_iff (s : State) (c : ChannelId) (size : Nat) :
    s.grantPasses c size = true ↔ s.Grantable c size := by
  simp only [State.grantPasses, Channel.underCeiling, Bool.and_eq_true, Bool.or_eq_true, decide_eq_true_eq,
    Bool.not_eq_true', Config.openCapacity]
  constructor
  · rintro ⟨⟨⟨⟨a, b⟩, d⟩, e⟩, f⟩; exact ⟨a, b, of_decide_eq_true d, e, f⟩
  · rintro ⟨a, b, d, e, f⟩; exact ⟨⟨⟨⟨a, b⟩, decide_eq_true d⟩, e⟩, f⟩

theorem State.clearTest_eq (s : State) (c : ChannelId) : s.clearTest c = s.cleared c := by
  unfold State.clearTest State.cleared
  rw [State.updChannel_eq]
  congr 1
  by_cases h : (s.channel c).outstanding ≤ (s.channel c).settings.lowerThreshold
  · rw [if_pos h]; simp [Nat.not_lt.2 h]
  · rw [if_neg h]; simp [Nat.lt_of_not_le h]

theorem waiting_split {l : List Reservation} {r : Reservation} {rest : List Reservation}
    (h : (l.filter fun x => !x.isGranted) = r :: rest) :
    ∃ before after w, l = before ++ r :: after ∧ (∀ x ∈ before, x.wait = .none) ∧ r.wait = some w ∧
      grantFirst l = before ++ { r with wait := none } :: after ∧ (after.filter fun x => !x.isGranted) = rest := by
  induction l with
  | nil => cases h
  | cons x l ih =>
    by_cases g : x.isGranted = true
    · rw [List.filter_cons_of_neg (by simp [g])] at h
      obtain ⟨b, a, w, e, hb, hw, hg, hr⟩ := ih h
      refine ⟨x :: b, a, w, by rw [e]; rfl, ?_, hw, ?_, hr⟩
      · intro y hy
        rcases List.mem_cons.1 hy with rfl | hy
        · exact Option.isNone_iff_eq_none.1 g
        · exact hb y hy
      · rw [grantFirst, if_pos g, hg]; rfl
    · rw [List.filter_cons_of_pos (by simp [g])] at h
      obtain ⟨rfl, rfl⟩ := List.cons.inj h
      match hw : x.wait with
      | none => exact absurd (by rw [Reservation.isGranted, hw]; rfl) g
      | some w =>
        exact ⟨[], l, w, rfl, nofun, by first | exact hw | rfl, by rw [grantFirst, if_neg g]; rfl, rfl⟩

theorem grantFirst_waiting {l : List Reservation} {r : Reservation} {rest : List Reservation}
    (h : (l.filter fun x => !x.isGranted) = r :: rest) : ((grantFirst l).filter fun x => !x.isGranted) = rest := by
  obtain ⟨b, a, w, -, hb, -, hg, hr⟩ := waiting_split h
  rw [hg, List.filter_append, List.filter_cons_of_neg (by simp [Reservation.isGranted])]
  rw [hr, List.filter_eq_nil_iff.2, List.nil_append]
  intro x hx
  simp [Reservation.isGranted, hb x hx]

/-- R143, R144: what the head test does. -/
theorem State.headTest_tests (s : State) (c : ChannelId) : HeadTests c s (s.headTest c) := by
  unfold State.headTest
  generalize hn : (s.channel c).waiting.length = n
  induction n generalizing s with
  | zero => exact .none (List.eq_nil_of_length_eq_zero hn)
  | succ n ih =>
    rw [State.headTestN]
    split
    · next h => exact .none h
    · next r rest h =>
      by_cases g : s.grantPasses c r.size = true
      · rw [if_pos g]
        obtain ⟨b, a, w, e, hb, hw, hg, hr⟩ := waiting_split h
        have e1 : (s.updChannel c fun ch =>
            { ch with reservations := grantFirst ch.reservations, unreservedDraw := false }) =
            s.withChannel c { s.channel c with
              reservations := b ++ { r with wait := .none } :: a
              unreservedDraw := false } := by rw [← hg]; rfl
        dsimp only
        rw [e1]
        have ch1 : (s.withChannel c { s.channel c with
              reservations := b ++ { r with wait := .none } :: a
              unreservedDraw := false }).channel c = { s.channel c with
              reservations := b ++ { r with wait := .none } :: a
              unreservedDraw := false } := by rw [← e1, State.updChannel_channel_same, hg]
        refine .grants b a r w _ e hb hw ((s.grantPasses_iff c r.size).1 g) rfl ?_
        have hwaited : r.waited s.clockMs = s.clockMs - w.startedAt := by rw [Reservation.waited, hw]
        have hclock : (s.withChannel c { s.channel c with
              reservations := b ++ { r with wait := .none } :: a
              unreservedDraw := false }).clockMs = s.clockMs := rfl
        rw [hclock, hwaited, ch1]
        apply ih
        show ((s.withChannel c _).channel c).waiting.length = n
        rw [ch1]
        have := grantFirst_waiting h
        rw [hg] at this
        show ((b ++ { r with wait := .none } :: a).filter fun x => !x.isGranted).length = n
        rw [this]
        rw [h] at hn
        exact Nat.succ.inj hn
      · rw [if_neg g]
        have := HeadTests.waits (c := c) r rest h (fun k => g ((s.grantPasses_iff c r.size).2 k))
        rw [State.grantTested, State.updChannel_eq]
        convert this using 4
        simp [Channel.underCeiling, ← decide_not]
/-! ## A channel that draws from a slot, or from none -/

theorem DrawsFrom.tested (h : DrawsFrom s c j) (k : HeadTested s t c) : DrawsFrom t c j where
  state := by rw [k.self]; exact h.state
  serving := by rw [k.self]; exact h.serving
  target := by rw [k.self]; exact h.target
  permit := by rw [k.self]; exact h.permit
  slot := by rw [k.slot]; exact h.slot

theorem Undrawn.tested (h : Undrawn s c) (k : HeadTested s t c) : Undrawn t c where
  state := by rw [k.self]; exact h.state
  serving := by rw [k.self]; exact h.serving
  target := by rw [k.self]; exact h.target
  permit := by rw [k.self]; exact h.permit

/-! ## Notices -/

theorem Announced.trans {u v w : NoticeUnit} {n : Notice} (h : Announced u v n) (k : Raises v w) : Announced u w n :=
  let ⟨x, a, b⟩ := h
  ⟨x, a, b.trans k⟩

theorem Announced.after {u v w : NoticeUnit} {n : Notice} (h : Raises u v) (k : Announced v w n) : Announced u w n :=
  let ⟨x, a, b⟩ := k
  ⟨x, h.trans a, b⟩

theorem Announced.now (u : NoticeUnit) (n : Notice) : Announced u (u.raise n) n := ⟨u, .refl, .refl⟩

/-- A notice for each item of a list: only the notices differ. -/
theorem State.foldl_raise {β : Type} (s : State) (n : β → Notice) (l : List β) :
    l.foldl (fun s r => s.raise (n r)) s = { s with notices := (l.foldl (fun s r => s.raise (n r)) s).notices } := by
  induction l generalizing s with
  | nil => rfl
  | cons x l ih => rw [List.foldl_cons, ih]; rfl

theorem State.foldl_raise_raises {β : Type} (s : State) (n : β → Notice) (l : List β) :
    Raises s.notices (l.foldl (fun s r => s.raise (n r)) s).notices := by
  induction l generalizing s with
  | nil => exact .refl
  | cons x l ih => exact (Raises.raise (n x) .refl).trans (ih (s.raise (n x)))

theorem State.foldl_raise_each {β : Type} (s : State) (n : β → Notice) (l : List β) :
    ∀ r ∈ l, Announced s.notices (l.foldl (fun s r => s.raise (n r)) s).notices (n r) := by
  induction l generalizing s with
  | nil => nofun
  | cons x l ih =>
    intro r h
    rcases List.mem_cons.1 h with rfl | h
    · exact (Announced.now _ _).trans (State.foldl_raise_raises (s.raise (n r)) n l)
    · exact .after (Raises.raise (n x) .refl) (ih (s.raise (n x)) r h)

/-! ## Split marking -/

theorem isGranted_of_isDrawing {r : Reservation} (h : r.isDrawing = true) : r.isGranted = true := by
  unfold Reservation.isDrawing Reservation.state at h
  by_cases g : r.isGranted = true
  · exact g
  · simp [g] at h

/-- R133: what the split marking leaves. -/
theorem State.applySplit_spec (s : State) (c : ChannelId) (a b : Option SlotId) :
    (s.applySplit c a b) = { s with
      channels := (s.updChannel c fun ch => { ch with
        reservations := markSplit ch.reservations
        splitLast := (s.channel c).reservations.any (·.isDrawing) }).channels
      notices := (s.applySplit c a b).notices } ∧
    Raises s.notices (s.applySplit c a b).notices ∧
    ∀ r ∈ (s.channel c).reservations, r.isDrawing = true →
      Announced s.notices (s.applySplit c a b).notices (.reservationSplit c r.id r.size r.drawn a b) := by
  have e : (!((s.channel c).reservations.filter fun r => r.isDrawing).isEmpty) =
      (s.channel c).reservations.any (·.isDrawing) := by
    induction (s.channel c).reservations with
    | nil => rfl
    | cons x l ih => by_cases hx : x.isDrawing = true <;> simp_all
  have raises := State.foldl_raise_raises
    (s.updChannel c fun ch => { ch with
      reservations := markSplit ch.reservations
      splitLast := (s.channel c).reservations.any (·.isDrawing) })
    (fun r : Reservation => .reservationSplit c r.id r.size r.drawn a b)
    ((s.channel c).reservations.filter fun r => r.isDrawing)
  have each := State.foldl_raise_each
    (s.updChannel c fun ch => { ch with
      reservations := markSplit ch.reservations
      splitLast := (s.channel c).reservations.any (·.isDrawing) })
    (fun r : Reservation => .reservationSplit c r.id r.size r.drawn a b)
    ((s.channel c).reservations.filter fun r => r.isDrawing)
  dsimp only [State.applySplit]
  rw [e]
  refine ⟨?_, raises, fun r hr hd => each r (List.mem_filter.2 ⟨hr, hd⟩)⟩
  exact State.foldl_raise _ _ _

theorem mem_markSplit {r : Reservation} {l : List Reservation} (h : r ∈ l) (d : r.isDrawing = true) :
    { r with split := true } ∈ markSplit l :=
  List.mem_map.2 ⟨r, h, if_pos d⟩

/-! ## The pair -/

theorem Channel.otherSlot_eq {ch : Channel} {i j : SlotId} (h : i ∈ ch.pairSlots) :
    ch.otherSlot i = some j ↔ ch.paired i j := by
  unfold Channel.otherSlot Channel.paired
  unfold Channel.pairSlots at h ⊢
  match hp : ch.pair with
  | none => rw [hp] at h; cases h
  | some ⟨p, none⟩ =>
    rw [hp] at h
    have : i = p := by simpa [SupplyPair.slots] using h
    subst this
    simp [SupplyPair.slots]
  | some ⟨p, some a⟩ =>
    rw [hp] at h
    have h : i = p ∨ i = a := by simpa [SupplyPair.slots] using h
    by_cases hpa : p = a
    · subst hpa
      have : i = p := by simpa using h
      subst this
      simp [SupplyPair.slots]
    · rcases h with rfl | rfl
      · simp [SupplyPair.slots]
        constructor
        · rintro ⟨hne, rfl⟩; exact ⟨hpa, .inl rfl⟩
        · rintro ⟨hij, (rfl | ⟨rfl, _⟩)⟩
          · exact ⟨Ne.symm hpa, rfl⟩
          · exact absurd rfl hij
      · simp [SupplyPair.slots, hpa]
        rintro rfl rfl
        exact hpa rfl

theorem State.qualifies_iff (s : State) (j : SlotId) : s.qualifies j = true ↔ s.CanServe j := by
  simp [State.qualifies, State.CanServe]

/-! ## Failover -/

theorem State.plannedSwitch_of_none (h : s.switchWanted c = none) : s.plannedSwitch c = s := by
  rw [State.plannedSwitch, h]

theorem State.standIn_eq (hp : i ∈ (s.channel c).pairSlots) :
    s.standIn c i = some j ↔ (s.channel c).paired i j ∧ s.CanServe j := by
  rw [State.standIn, Option.filter_eq_some_iff, Channel.otherSlot_eq hp, State.qualifies_iff]

theorem State.drawNext_channel (s : State) (c : ChannelId) (pick : Option SlotId) :
    (s.drawNext c pick).channel c = match pick with
      | some j => (s.channel c).supplied j
      | none => (s.channel c).unsupplied := by
  cases pick with
  | some j => exact State.updChannel_channel_same _ _ _
  | none => exact State.updChannel_channel_same _ _ _

theorem State.drawNext_raises (s : State) (c : ChannelId) (pick : Option SlotId) :
    Raises s.notices (s.drawNext c pick).notices := by
  cases pick with
  | some j => exact .raise _ .refl
  | none => exact .refl

theorem State.drawNext_slot (s : State) (c : ChannelId) (pick : Option SlotId) (k : SlotId) (h : pick ≠ some k) :
    (s.drawNext c pick).slot k = s.slot k := by
  cases pick with
  | some j => exact State.updSlot_slot_other _ _ _ _ fun e => h (by rw [e])
  | none => rfl

theorem State.drawNext_serving (s : State) (c : ChannelId) (j : SlotId) :
    ((s.drawNext c (some j)).slot j).state = .serving := by
  show ((s.updSlot j fun r => { r with state := .serving }).slot j).state = .serving
  rw [State.updSlot_slot_same]

/-- R132, R133: what a failover does. -/
theorem State.failover_failedOver (s : State) (c : ChannelId) (i : SlotId) (reason : LeaveReason)
    (hserving : (s.channel c).serving = some i) (hp : i ∈ (s.channel c).pairSlots) (hi : (s.slot i).state ≠ .ready) :
    FailedOver s (s.failover c i reason) c i reason (s.channel c).reservations ∧
      (∀ k, ¬((s.channel c).paired i k ∧ s.CanServe k) → (s.failover c i reason).slot k = s.slot k) := by
  unfold State.failover
  have hpick : ∀ j, s.standIn c i = some j ↔ (s.channel c).paired i j ∧ s.CanServe j := fun j => s.standIn_eq hp
  generalize s.standIn c i = pick at hpick ⊢
  dsimp only
  have ch1 := s.drawNext_channel c pick
  have raises1 := s.drawNext_raises c pick
  have slots1 := s.drawNext_slot c pick
  have serving1 : ∀ j, pick = some j → ((s.drawNext c pick).slot j).state = .serving := by
    rintro j rfl; exact s.drawNext_serving c j
  generalize s.drawNext c pick = s1 at ch1 raises1 slots1 serving1 ⊢
  obtain ⟨only, splitRaises, each⟩ := s1.applySplit_spec c (some i) pick
  generalize s1.applySplit c (some i) pick = s2 at only splitRaises each ⊢
  have ch2 : s2.channel c = { s1.channel c with
      reservations := markSplit (s1.channel c).reservations
      splitLast := (s1.channel c).reservations.any (·.isDrawing) } := by
    rw [only]; exact State.updChannel_channel_same _ _ _
  have slot2 : ∀ k, s2.slot k = s1.slot k := by intro k; rw [only]; rfl
  generalize hn : Notice.channelChanged c
    (channelMove .failover (s.channel c) (s2.channel c) (some reason)) = n
  have tested := (s2.raise n).headTest_tested c
  generalize (s2.raise n).headTest c = s4 at tested ⊢
  have ch4 : s4.channel c = { s2.channel c with
      reservations := (s4.channel c).reservations
      stall := (s4.channel c).stall
      unreservedDraw := (s4.channel c).unreservedDraw } := tested.self
  have slot4 : ∀ k, s4.slot k = s1.slot k := fun k => (tested.slot k).trans (slot2 k)
  have res1 : (s1.channel c).reservations = (s.channel c).reservations := by rw [ch1]; cases pick <;> rfl
  have serving4 : (s4.channel c).serving = pick := by rw [ch4, ch2, ch1]; cases pick <;> rfl
  have target4 : (s4.channel c).target = none := by rw [ch4, ch2, ch1]; cases pick <;> rfl
  have pair4 : (s4.channel c).pair = (s.channel c).pair := by rw [ch4, ch2, ch1]; cases pick <;> rfl
  have drawn : ∀ j, pick = some j → DrawsFrom s4 c j := by
    rintro j rfl
    refine ⟨?_, serving4, target4, ?_, ?_⟩
    · rw [ch4, ch2, ch1]; rfl
    · rw [ch4, ch2, ch1]; rfl
    · rw [slot4]; exact serving1 j rfl
  have undrawn : pick = none → Undrawn s4 c := by
    rintro rfl
    refine ⟨?_, serving4, target4, ?_⟩ <;> rw [ch4, ch2, ch1] <;> rfl
  have noSwitch : s4.plannedSwitch c = s4 := by
    apply State.plannedSwitch_of_none
    unfold State.switchWanted
    dsimp only
    cases hk : pick with
    | none => rw [(undrawn hk).state]
    | some j =>
      have hj := (hpick j).1 hk
      have mem : j ∈ (s4.channel c).pairSlots := by
        unfold Channel.pairSlots
        rw [pair4]
        rcases hj.1.2 with h | h <;> rw [h] <;> simp [SupplyPair.slots]
      have other : (s4.channel c).otherSlot j = some i := by
        rw [Channel.otherSlot_eq mem]
        refine ⟨Ne.symm hj.1.1, ?_⟩
        rw [pair4]; exact hj.1.2.symm
      have : (s4.slot i).state ≠ .ready := by
        rw [slot4, slots1]
        · exact hi
        · rw [hk]; intro h; exact hj.1.1 (Option.some.inj h).symm
      rw [(drawn j hk).state, (drawn j hk).serving]
      simp only [other]
      exact if_neg fun h => this h.2.1
  rw [noSwitch]
  refine ⟨⟨?_, ?_, ⟨?_, ?_, ?_⟩, ?_⟩, ?_⟩
  · exact fun j hp hs => drawn j ((hpick j).2 ⟨hp, hs⟩)
  · intro h
    apply undrawn
    cases hk : pick with
    | none => rfl
    | some j => exact absurd ((hpick j).1 hk).2 (h j ((hpick j).1 hk).1)
  · intro r hr hd
    apply tested.granted { r with split := true } _ (isGranted_of_isDrawing hd)
    show { r with split := true } ∈ (s2.channel c).reservations
    rw [ch2, res1]
    exact mem_markSplit hr hd
  · rw [ch4, ch2, res1]
  · intro r hr hd
    rw [serving4]
    exact .after raises1 ((each r (by rw [res1]; exact hr) hd).trans ((Raises.raise n .refl).trans tested.notices))
  · have e : n = .channelChanged c
        ⟨.failover, (s.channel c).state, (s4.channel c).state, some i, (s4.channel c).serving, none, some reason⟩ := by
      rw [← hn, channelMove, hserving]
      have a : (s4.channel c).state = (s2.channel c).state := by rw [ch4]
      have b : (s4.channel c).serving = (s2.channel c).serving := by rw [ch4]
      have d : (s2.channel c).target = none := by rw [ch4] at target4; exact target4
      rw [a, b, d]
    rw [← e]
    exact .after raises1 (.after splitRaises ((Announced.now _ n).trans tested.notices))
  · intro k hk
    rw [slot4]
    exact slots1 k fun h => hk ((hpick k).1 h)
/-! ## The planned switch -/

/-- The slot moves to READY; the trigger that follows touches no slot and no channel. -/
theorem State.toReady_records (s : State) (i : SlotId) :
    RecordsKept (s.updSlot i fun r => { r with state := .ready }) (s.toReady i) :=
  RecordsKept.forcedTrigger (.raise (.refl _) _) i

theorem State.toReady_raises (s : State) (i : SlotId) : Raises s.notices (s.toReady i).notices :=
  (Undisturbed.refl s).toReady i |>.notices

theorem State.withChannel_channel (s : State) (c : ChannelId) (ch : Channel) : (s.withChannel c ch).channel c = ch :=
  s.updChannel_channel_same c fun _ => ch

/-- R130: what the completion of a switch does. -/
theorem State.completeSwitch_switchedOver (hs : (s.channel c).state = .switching)
    (hi : (s.channel c).serving = some i) : SwitchedOver s (s.completeSwitch c i j) c i j := by
  unfold State.completeSwitch
  dsimp only
  have kept := s.toReady_records i
  have raises0 := s.toReady_raises i
  generalize s.toReady i = s1 at kept raises0 ⊢
  have back : (s1.slot i).state = .ready := by
    rw [kept.slot, State.updSlot_slot_same]
  rw [State.updChannel_eq]
  generalize hch : ({ ((s1.toServing j).channel c).supplied j with splitLast := false } : Channel) = ch
  generalize hs3 : (s1.toServing j).withChannel c ch = s3
  have ch3 : s3.channel c = ch := by rw [← hs3, State.withChannel_channel]
  have slot3 : ∀ k, s3.slot k = (s1.toServing j).slot k := by rw [← hs3]; intro k; rfl
  have notices3 : Raises s.notices s3.notices := by rw [← hs3]; exact .raise _ raises0
  generalize hn : Notice.channelChanged c (channelMove .switchDone (s.channel c) (s3.channel c) none) = n
  have tested := (s3.raise n).headTest_tested c
  generalize (s3.raise n).headTest c = s4 at tested ⊢
  have drawn : DrawsFrom (s3.raise n) c j := by
    refine ⟨?_, ?_, ?_, ?_, ?_⟩
    · show (s3.channel c).state = _; rw [ch3, ← hch]; rfl
    · show (s3.channel c).serving = _; rw [ch3, ← hch]; rfl
    · show (s3.channel c).target = _; rw [ch3, ← hch]; rfl
    · show (s3.channel c).permit = _; rw [ch3, ← hch]; rfl
    · show (s3.slot j).state = _
      rw [slot3]
      show ((s1.updSlot j fun r => { r with state := .serving }).slot j).state = .serving
      rw [State.updSlot_slot_same]
  refine ⟨drawn.tested tested, ?_, ?_, ?_⟩
  · intro hij
    rw [tested.slot]
    show (s3.slot i).state = _
    rw [slot3]
    show ((s1.updSlot j fun r => { r with state := .serving }).slot i).state = .ready
    rw [State.updSlot_slot_other _ _ _ _ (Ne.symm hij)]
    exact back
  · rw [tested.self]; show (s3.channel c).splitLast = _; rw [ch3, ← hch]
  · have e : n = .channelChanged c ⟨.switchDone, .switching, .supplied, some i, some j, none, none⟩ := by
      rw [← hn, channelMove, hs, hi, ch3, ← hch]; rfl
    rw [← e]
    exact .after notices3 ((Announced.now _ n).trans tested.notices)

/-- R129: when no slot is to be switched to, nothing happens. -/
theorem State.switchWanted_iff (hs : (s.channel c).state = .supplied) (hi : (s.channel c).serving = some i)
    (hp : i ∈ (s.channel c).pairSlots) : s.switchWanted c = some j ↔ s.SwitchDue c i j := by
  unfold State.switchWanted
  dsimp only
  rw [hs, hi]
  dsimp only
  constructor
  · intro h
    split at h
    · next k hk =>
      split at h
      · next a =>
        cases h
        exact ⟨(Channel.otherSlot_eq hp).1 hk, a.1, a.2.1, a.2.2⟩
      · cases h
    · cases h
  · intro h
    rw [(Channel.otherSlot_eq hp).2 h.pair]
    exact if_pos ⟨h.low, h.ready, h.above⟩

theorem State.SwitchDue.mem (h : s.SwitchDue c i j) : i ∈ (s.channel c).pairSlots := by
  unfold Channel.pairSlots
  rcases h.pair.2 with e | e <;> rw [e] <;> simp [SupplyPair.slots]

/-- R129: the switch begins, and waits for a DRAWING reservation. -/
theorem State.plannedSwitch_begins (hs : (s.channel c).state = .supplied) (hi : (s.channel c).serving = some i)
    (h : s.SwitchDue c i j) (hd : (s.channel c).hasDrawing = true) :
    s.plannedSwitch c =
      (s.withChannel c { s.channel c with state := .switching, target := some j }).raise
        (.channelChanged c ⟨.switchBegin, .supplied, .switching, some i, some i, some j, none⟩) := by
  rw [State.plannedSwitch, (State.switchWanted_iff hs hi h.mem).2 h]
  dsimp only
  rw [State.updChannel_eq]
  rw [State.withChannel_channel, channelMove, hs, hi]
  unfold State.completionTest
  simp only [State.raise_channel, State.withChannel_channel]
  exact if_pos hd

/-- R129, R130: with no DRAWING reservation the switch completes at once. -/
theorem State.plannedSwitch_completes (hs : (s.channel c).state = .supplied) (hi : (s.channel c).serving = some i)
    (h : s.SwitchDue c i j) (hd : (s.channel c).hasDrawing = false) :
    SwitchedOver s (s.plannedSwitch c) c i j := by
  rw [State.plannedSwitch, (State.switchWanted_iff hs hi h.mem).2 h]
  dsimp only
  rw [State.updChannel_eq]
  rw [State.withChannel_channel]
  generalize hn : Notice.channelChanged c _ = n
  generalize hv : (s.withChannel c { s.channel c with state := .switching, target := some j }).raise n = v
  have chv : v.channel c = { s.channel c with state := .switching, target := some j } := by
    rw [← hv, State.raise_channel, State.withChannel_channel]
  have e : v.completionTest c = v.completeSwitch c i j := by
    unfold State.completionTest
    simp only [chv, hi]
    exact if_neg (fun h => Bool.false_ne_true (hd.symm.trans h))
  rw [e]
  have := State.completeSwitch_switchedOver (s := v) (c := c) (i := i) (j := j) (by rw [chv]) (by rw [chv]; exact hi)
  refine ⟨this.drawn, this.back, this.split, .after ?_ this.notice⟩
  rw [← hv]
  exact .raise n .refl

/-- R130: the completion test of a channel in SWITCHING. -/
theorem State.completionTest_completes (hs : (s.channel c).state = .switching) (hi : (s.channel c).serving = some i)
    (hj : (s.channel c).target = some j) (hd : (s.channel c).hasDrawing = false) :
    SwitchedOver s (s.completionTest c) c i j := by
  have e : s.completionTest c = s.completeSwitch c i j := by
    unfold State.completionTest
    simp only [hs, hi, hj, hd]
    rfl
  rw [e]
  exact State.completeSwitch_switchedOver hs hi

theorem State.completionTest_waits (h : (s.channel c).state = .switching → (s.channel c).hasDrawing = true) :
    s.completionTest c = s := by
  unfold State.completionTest
  dsimp only
  split
  · next a b d => rw [if_pos (h a)]
  · rfl

/-- R131: what the cancelling of a switch does. -/
theorem State.cancelSwitch_tests (hs : (s.channel c).state = .switching) (hi : (s.channel c).serving = some i) :
    HeadTests c
      ((s.withChannel c { s.channel c with state := .supplied, target := none }).raise
        (.channelChanged c ⟨.switchCancelled, .switching, .supplied, some i, some i, none, none⟩))
      (s.cancelSwitch c) := by
  unfold State.cancelSwitch
  rw [State.updChannel_eq]
  dsimp only
  rw [State.withChannel_channel, channelMove, hs, hi]
  exact State.headTest_tests _ c
/-! ## Selection -/

theorem State.selectionChoice_eq {before after : List SlotId} (h : (s.channel c).pairSlots = before ++ j :: after)
    (hj : s.CanServe j) (hb : ∀ i ∈ before, ¬s.CanServe i) : s.selectionChoice c = some j := by
  rw [State.selectionChoice, h, List.find?_append, List.find?_eq_none.2]
  · simp [(s.qualifies_iff j).2 hj]
  · intro x hx; simpa [State.qualifies_iff] using hb x hx

theorem State.selectionChoice_none (h : ∀ i ∈ (s.channel c).pairSlots, ¬s.CanServe i) : s.selectionChoice c = none := by
  rw [State.selectionChoice, List.find?_eq_none]
  intro x hx; simpa [State.qualifies_iff] using h x hx

theorem hasDrawing_of_items {a b : List Reservation} (h : a.map Reservation.unwaited = b.map Reservation.unwaited)
    (k : ∀ r ∈ b, r.drawn = 0 ∨ r.size ≤ r.drawn) : a.any (·.isDrawing) = false := by
  rw [List.any_eq_false]
  intro r hr hd
  have : r.unwaited ∈ b.map Reservation.unwaited := h ▸ List.mem_map_of_mem hr
  obtain ⟨x, hx, e⟩ := List.mem_map.1 this
  have e1 : x.drawn = r.drawn := (by rw [e] : x.unwaited.drawn = r.unwaited.drawn)
  have e2 : x.size = r.size := (by rw [e] : x.unwaited.size = r.unwaited.size)
  have := k x hx
  rw [e1, e2] at this
  have g := isGranted_of_isDrawing hd
  simp only [Reservation.isDrawing, Reservation.state, g, Bool.not_true, Bool.false_eq_true, if_false,
    decide_eq_true_eq] at hd
  split at hd
  · cases hd
  · next h1 =>
    split at hd
    · cases hd
    · next h2 => exact this.elim h2 h1

theorem markSplit_small {l : List Reservation} (k : ∀ r ∈ l, r.drawn = 0 ∨ r.size ≤ r.drawn) :
    ∀ r ∈ markSplit l, r.drawn = 0 ∨ r.size ≤ r.drawn := by
  intro r hr
  obtain ⟨x, hx, rfl⟩ := List.mem_map.1 hr
  split <;> exact k x hx

/-- R128: what a selection leaves before the planned-switch condition is tested. -/
structure Selected (s v : State) (c : ChannelId) (j : SlotId) : Prop where
  drawn : DrawsFrom v c j
  split : SplitMarked s v c (s.channel c).reservations none
  notice : Announced s.notices v.notices
    (.channelChanged c ⟨.select, .unsupplied, .supplied, (s.channel c).serving, some j, none, none⟩)
  others : ∀ k, k ≠ j → v.slot k = s.slot k
  slot : v.slot j = { s.slot j with state := .serving }
  settings : (v.channel c).settings = (s.channel c).settings
  pair : (v.channel c).pair = (s.channel c).pair
  items : (v.channel c).reservations.map Reservation.unwaited =
    (markSplit (s.channel c).reservations).map Reservation.unwaited

theorem State.select_selected (hs : (s.channel c).state = .unsupplied) (hc : s.selectionChoice c = some j) :
    ∃ v, s.select c = v.plannedSwitch c ∧ Selected s v c j := by
  unfold State.select
  rw [if_pos hs, hc]
  dsimp only
  refine ⟨_, rfl, ?_⟩
  rw [State.updChannel_eq]
  generalize hs1 : (s.toServing j).withChannel c (((s.toServing j).channel c).supplied j) = s1
  have ch1 : s1.channel c = (s.channel c).supplied j := by rw [← hs1, State.withChannel_channel]; rfl
  have raises1 : Raises s.notices s1.notices := by rw [← hs1]; exact .raise _ .refl
  have slot1 : ∀ k, s1.slot k = (s.updSlot j fun r => { r with state := .serving }).slot k := by rw [← hs1]; intro k; rfl
  obtain ⟨only, splitRaises, each⟩ := s1.applySplit_spec c none (some j)
  generalize s1.applySplit c none (some j) = s2 at only splitRaises each ⊢
  have ch2 : s2.channel c = { s1.channel c with
      reservations := markSplit (s1.channel c).reservations
      splitLast := (s1.channel c).reservations.any (·.isDrawing) } := by
    rw [only]; exact State.updChannel_channel_same _ _ _
  have slot2 : ∀ k, s2.slot k = s1.slot k := by intro k; rw [only]; rfl
  generalize hn : Notice.channelChanged c (channelMove .select (s.channel c) (s2.channel c) none) = n
  have tested := (s2.raise n).headTest_tested c
  generalize (s2.raise n).headTest c = s4 at tested ⊢
  have ch4 : s4.channel c = { s2.channel c with
      reservations := (s4.channel c).reservations
      stall := (s4.channel c).stall
      unreservedDraw := (s4.channel c).unreservedDraw } := tested.self
  have slot4 : ∀ k, s4.slot k = s1.slot k := fun k => (tested.slot k).trans (slot2 k)
  have res1 : (s1.channel c).reservations = (s.channel c).reservations := by rw [ch1]; rfl
  have sj : s4.slot j = { s.slot j with state := .serving } := by
    rw [slot4, slot1, State.updSlot_slot_same]
  have serving4 : (s4.channel c).serving = some j := by rw [ch4, ch2, ch1]; rfl
  refine ⟨⟨?_, ?_, ?_, ?_, ?_⟩, ⟨?_, ?_, ?_⟩, ?_, ?_, sj, ?_, ?_, ?_⟩
  · rw [ch4, ch2, ch1]; rfl
  · exact serving4
  · rw [ch4, ch2, ch1]; rfl
  · rw [ch4, ch2, ch1]; rfl
  · rw [sj]
  · intro r hr hd
    apply tested.granted { r with split := true } _ (isGranted_of_isDrawing hd)
    show { r with split := true } ∈ (s2.channel c).reservations
    rw [ch2, res1]
    exact mem_markSplit hr hd
  · rw [ch4, ch2, res1]
  · intro r hr hd
    rw [serving4]
    exact .after raises1 ((each r (by rw [res1]; exact hr) hd).trans ((Raises.raise n .refl).trans tested.notices))
  · have e : n = .channelChanged c ⟨.select, .unsupplied, .supplied, (s.channel c).serving, some j, none, none⟩ := by
      rw [← hn, channelMove, hs, ch2, ch1]; rfl
    rw [← e]
    exact .after raises1 (.after splitRaises ((Announced.now _ n).trans tested.notices))
  · intro k hk
    rw [slot4, slot1, State.updSlot_slot_other _ _ _ _ (Ne.symm hk)]
  · rw [ch4, ch2, ch1]; rfl
  · rw [ch4, ch2, ch1]; rfl
  · rw [tested.items]
    show (s2.channel c).reservations.map _ = _
    rw [ch2, res1]
/-! ## A reservation leaves -/

theorem SwitchedOver.tested (h : SwitchedOver s t c i j) (k : HeadTested t u c) : SwitchedOver s u c i j where
  drawn := h.drawn.tested k
  back hij := by rw [k.slot]; exact h.back hij
  split := by rw [k.self]; exact h.split
  notice := h.notice.trans k.notices

theorem State.completeSwitch_items (s : State) (c : ChannelId) (i j : SlotId) :
    ((s.completeSwitch c i j).channel c).reservations.map Reservation.unwaited =
        (s.channel c).reservations.map Reservation.unwaited ∧
      ∀ r ∈ (s.channel c).reservations, r.isGranted = true → r ∈ ((s.completeSwitch c i j).channel c).reservations := by
  unfold State.completeSwitch
  dsimp only
  rw [State.updChannel_eq]
  generalize hs3 : ((s.toReady i).toServing j).withChannel c _ = s3
  have r3 : (s3.channel c).reservations = (s.channel c).reservations := by
    rw [← hs3, State.withChannel_channel]
    show ((s.toReady i).channel c).reservations = _
    rw [(s.toReady_records i).channel]; rfl
  generalize Notice.channelChanged c _ = n
  have tested := (s3.raise n).headTest_tested c
  rw [← r3]
  exact ⟨tested.items, tested.granted⟩

theorem State.afterLeaving_spec (s : State) (c : ChannelId) (l : List Reservation) :
    AfterLeaving s ((s.withChannel c { s.channel c with reservations := l }).afterLeaving c) c l := by
  unfold State.afterLeaving
  generalize hv : s.withChannel c { s.channel c with reservations := l } = v
  have chv : v.channel c = { s.channel c with reservations := l } := by rw [← hv, State.withChannel_channel]
  have tail := ((v.completionTest c).clearTest_tested c).trans (State.headTest_tested _ c)
  have head : ((v.completionTest c).channel c).reservations.map Reservation.unwaited = l.map Reservation.unwaited ∧
      ∀ r ∈ l, r.isGranted = true → r ∈ ((v.completionTest c).channel c).reservations := by
    have base : (v.channel c).reservations = l := by rw [chv]
    unfold State.completionTest
    dsimp only
    split
    · split
      · rw [base]; exact ⟨rfl, fun _ h _ => h⟩
      · rename_i a b _ _ _ _
        have := v.completeSwitch_items c a b
        rwa [base] at this
    · rw [base]; exact ⟨rfl, fun _ h _ => h⟩
  refine ⟨?_, ?_, ?_, ?_⟩
  · have := tail.items.trans head.1
    have := congrArg (List.map fun r : Reservation => r.id) this
    rwa [List.map_map, List.map_map] at this
  · intro r hr hw
    exact tail.granted r (head.2 r hr (by rw [Reservation.isGranted, hw]; rfl)) (by rw [Reservation.isGranted, hw]; rfl)
  · intro h
    have e : v.completionTest c = v := by
      apply State.completionTest_waits
      rw [chv]
      intro hs
      rcases h with h | ⟨r, hr, hd⟩
      · exact absurd hs h
      · exact List.any_eq_true.2 ⟨r, hr, hd⟩
    rw [e, State.clearTest_eq, hv]
    exact State.headTest_tests _ c
  · intro hs hd i j hi hj
    have := State.completionTest_completes (s := v) (c := c) (i := i) (j := j) (by rw [chv]; exact hs)
      (by rw [chv]; exact hi) (by rw [chv]; exact hj) (by
        rw [chv]; exact List.any_eq_false.2 fun r hr => by rw [hd r hr]; exact Bool.false_ne_true)
    have k := this.tested tail
    refine ⟨k.drawn, k.back, k.split, ?_⟩
    have n : v.notices = s.notices := by rw [← hv]; rfl
    have := k.notice
    rwa [n] at this
end Sys2Proof.Machine
end

