-- ==== Sys2Proof/WellFormed.lean ====
section
/-! DEFINITION. The operands a command can come with: what the wire formats (R206), the converter (R154) and the tally
link (R68) can give. The meanings of the commands do not rest on these checks. -/

namespace Sys2Proof

/-- A number of one, two and four bytes. -/
def fits1 (n : Nat) : Bool := n < 256
def fits2 (n : Nat) : Bool := n < 65536
def fits4 (n : Nat) : Bool := n < 4294967296

/-- A signed number of one and two bytes. -/
def signed1 (n : Int) : Bool := -128 ≤ n && n ≤ 127
def signed2 (n : Int) : Bool := -32768 ≤ n && n ≤ 32767

/-- The fields of a body, when it has them. -/
def Body.all {α : Type} (check : α → Bool) : Body α → Bool
  | .fields f => check f
  | .wrongLength => true

def optionalFits : Option Nat → Bool
  | some n => fits1 n
  | none => true

def HistoryName.wellFormed : HistoryName → Bool
  | .index n => fits1 n
  | .serial _ | .badSelector => true

def RawSettings.wellFormed (r : RawSettings) : Bool :=
  fits1 r.inkCode && fits2 r.weightSmall && fits2 r.weightMedium && fits2 r.weightLarge && signed1 r.beta &&
    fits1 r.referenceCode && fits2 r.lowLevel && fits2 r.veryLowLevel && fits2 r.switchLevel && fits4 r.commitStep &&
    fits2 r.flowWindow && fits4 r.flowCeiling && fits4 r.upperThreshold && fits4 r.lowerThreshold &&
    fits2 r.waitLimit && fits2 r.refillTolerance && fits2 r.deficitTolerance && fits1 r.persistence &&
    fits1 r.refillPolicy

/-- A frame has one to eight entries (R69): no more of them are handed on, and a handing on hands on one at least. -/
def tallyWellFormed : Option (List Bool) → Nat → Bool
  | some _, now => now ≤ 8
  | none, now => 1 ≤ now && now ≤ 8

/-- A kind that Table 11-3 names. -/
def namedKind (kind : Byte) : Bool := 0x01 ≤ kind.toNat && kind.toNat ≤ 0x1C

def Instr.wellFormed : Instr → Bool
  | .powerOnReset _ | .pinReset _ | .hostReset _ | .powerWarnAssert | .powerWarnDeassert => true
  | .presenceGain _ | .removal _ | .seatDebounceExpiry _ | .presenceLossDuringDebounce _ => true
  | .badFrame | .oversizedLength | .partialFrameGapExpiry | .missingStopBit _ => true
  | .busyAnswer _ _ => true
  | .unknownKind kind _ => !namedKind kind
  | .hostFrameTransmitted => true
  | .statusGet _ _ | .protectionGet _ _ | .policyLock _ _ | .settingsSave _ _ | .reset _ _ => true
  | .slotGet _ b | .channelGet _ b | .channelEnable _ b | .channelDisable _ b => b.all fits1
  | .sense _ b | .scheduleSelect _ b | .noticeGet _ b => b.all fits1
  | .historyGet _ b | .historyClear _ b => b.all HistoryName.wellFormed
  | .channelSet _ b => b.all fun f => fits1 f.channel && f.settings.wellFormed
  | .supplyMapSet _ b => b.all fun f => fits1 f.channel && optionalFits f.primary && optionalFits f.alternate
  | .reserve _ b => b.all fun f => fits1 f.channel && fits4 f.size
  | .release _ b => b.all fun f => fits1 f.channel && fits1 f.id
  | .serviceDraw _ b => b.all fun f => fits1 f.channel && fits4 f.amount
  | .commitNow _ b => b.all optionalFits
  | .scanSet _ b =>
    b.all fun f => fits1 f.sources.length && f.sources.all fits1 && fits2 f.pause && fits1 f.debounce
  | .sensorCal _ b => b.all fun f => fits1 f.slot && signed2 f.offset && fits2 f.gain
  | .scheduleLoad _ b => b.all fun f => fits1 f.table && f.phases.toList.all fits1
  | .windowSet _ b => b.all fun f => fits1 f.window && fits1 f.low && fits1 f.high
  | .tagRead _ b => b.all fun f => fits1 f.slot && fits1 f.address && fits1 f.length
  | .tagWrite _ b => b.all fun f => fits1 f.slot && fits1 f.address && fits1 f.data.length
  | .keyProvision _ _ | .noticeMaskSet _ _ => true
  | .settingsSaveWriteDone | .keyCellWriteDone | .historyWriteDone => true
  | .tallyFrame levels now => tallyWellFormed levels now
  | .laneReply _ frame => fits2 frame.length
  | .replyTimeout _ | .busyHoldOffExpiry _ | .digestJobComplete _ => true
  | .conversionComplete raw => raw < 4096
  | .scanPauseExpiry | .flowWindowExpiry _ | .tstrobeDeassertedAfterReset => true
  | .waitTimerExpiry _ id => 1 ≤ id && id ≤ 255

end Sys2Proof
end

