-- ==== Sys2Proof/Tests/Slice0.lean ====
section
/-! SUPPORT. Tests on fixed values, and a witness for the hypotheses of every statement. Expected values are the manual's
own worked cases or are worked out by hand from its rules; each test names its source. -/

namespace Sys2Proof.Tests

set_option Elab.async false

open Sys2Proof.Machine

/-! ## Helpers -/

/-- The state after a command. -/
def after (c : Instr) (s : State) : State :=
  match exec c s with
  | .next t => t
  | .fault f => nomatch f
  | .refused _ => s

/-- The reply in transmission. -/
def reply (s : State) : Option (Status × ReplyFields) :=
  match s.host.transmitting with
  | some (.reply r) => some (r.status, r.fields)
  | _ => none

/-- The notices queued, oldest first. -/
def notices (s : State) : List Notice := s.notices.queue.map fun n => n.notice

/-- The part as delivered with its notice collected. -/
def plain : State := { State.reset with notices := ⟨BitVec.allOnes 18, [], 1, 0, false⟩ }

/-- The cartridge of the manual's examples, but for its serial and ink code (sections 1.9, 6.7, 10.9). -/
def ink (serial : Word64) : Description := ⟨serial, 1, 1000000000, 2, .inUse, false, 412000000, 7⟩

/-- Its History Entry of section 10.9. -/
def entry (serial : Word64) : HistoryEntry := ⟨serial, 1, 2, 412000000, some 500870, some 500750, false, false, 3, 1204⟩

/-- An admitted slot of channel 0. -/
def seated (state : SlotState) (serial : Word64) : SlotRecord :=
  { vacantSlot (some 0) with
    state := state
    description := some (ink serial)
    quality := some .genuine
    committed := 412000000
    uncommitted := 3500
    reconciled := true }

/-- Channel 0 drawing from slot 0, with slot 1 READY beside it, reservations on (section 8.9's thresholds), the weights
of section 5.2.1, and the key present. -/
def part : State :=
  { ((plain.updSlot 0 fun _ => seated .serving 10).updSlot 1 fun _ => seated .ready 11).updChannel 0 fun ch =>
      { ch with
        state := .supplied
        pair := some ⟨0, some 1⟩
        serving := some 0
        permit := true
        lastId := 254
        settings :=
          { ch.settings with
            weightSmall := 3200
            weightMedium := 7500
            weightLarge := 18000
            beta := 41
            upperThreshold := 100000
            lowerThreshold := 40000 } } with
    keys := ⟨.provisioned 5, .written 5, none, false⟩
    history :=
      { plain.history with
        places := (plain.history.places.set 21 (some (entry 10))).set 22 (some (entry 11))
        recency := 1376 } }

/-- Lane 0 waiting for the reply to a command of a slot. -/
def waitingFor (s : State) (i : SlotId) (command : TagCommand) : State :=
  s.updLane (laneOf i) fun lane => { lane with state := .onWire ⟨⟨i, command, none⟩, 0, 0, .replyWait, false⟩ }

/-- A reply frame of a tag (Table 11-9). -/
def tagFrame (i : SlotId) (command kind : Byte) (data : List Byte) : List Byte :=
  let body := [BitVec.ofNat 8 (laneAddress i), command, kind, BitVec.ofNat 8 data.length] ++ data
  body ++ [crc8 body]

/-- The levels of TDATA that send some bytes, first bit most significant (R68). -/
def bitsOf (bytes : List Byte) : List Bool := bytes.flatMap fun b => [7, 6, 5, 4, 3, 2, 1, 0].map b.getLsbD

/-- A tally frame (Table 11-8), its entries handed on at once. -/
def tally (head flags sequence : Byte) (entries : List (List Byte)) : Instr :=
  let body := [head, flags, sequence, BitVec.ofNat 8 entries.length] ++ entries.flatten
  .tallyFrame (some (bitsOf (body ++ crc16Bytes body))) 8

/-! ## WellFormed refuses each ill-formed operand -/

def rawSettings : RawSettings := ⟨1, 0, 0, 0, 0, 80, 150, 50, 30, 500000, 1000, 0, 0, 0, 2000, 150, 200, 4, 0⟩

theorem test_wellFormed_accepts : rawSettings.wellFormed = true ∧ (Instr.channelSet 0 (.fields ⟨0, rawSettings⟩)).wellFormed := by
  decide

theorem test_wellFormed_settings :
    ([{ rawSettings with inkCode := 256 }, { rawSettings with weightSmall := 65536 },
      { rawSettings with weightMedium := 65536 }, { rawSettings with weightLarge := 65536 },
      { rawSettings with beta := 128 }, { rawSettings with beta := -129 }, { rawSettings with referenceCode := 256 },
      { rawSettings with lowLevel := 65536 }, { rawSettings with veryLowLevel := 65536 },
      { rawSettings with switchLevel := 65536 }, { rawSettings with commitStep := 4294967296 },
      { rawSettings with flowWindow := 65536 }, { rawSettings with flowCeiling := 4294967296 },
      { rawSettings with upperThreshold := 4294967296 }, { rawSettings with lowerThreshold := 4294967296 },
      { rawSettings with waitLimit := 65536 }, { rawSettings with refillTolerance := 65536 },
      { rawSettings with deficitTolerance := 65536 }, { rawSettings with persistence := 256 },
      { rawSettings with refillPolicy := 256 }].all fun r => !r.wellFormed) = true := by
  decide

theorem test_wellFormed_requests :
    ([.unknownKind 0x01 0, .unknownKind 0x1C 0, .slotGet 0 (.fields 256), .channelGet 0 (.fields 256),
      .channelEnable 0 (.fields 256), .channelDisable 0 (.fields 256), .sense 0 (.fields 256),
      .scheduleSelect 0 (.fields 256), .noticeGet 0 (.fields 256), .historyGet 0 (.fields (.index 256)),
      .historyClear 0 (.fields (.index 256)), .channelSet 0 (.fields ⟨256, rawSettings⟩),
      .supplyMapSet 0 (.fields ⟨256, none, none⟩), .supplyMapSet 0 (.fields ⟨0, some 256, none⟩),
      .supplyMapSet 0 (.fields ⟨0, none, some 256⟩), .reserve 0 (.fields ⟨256, 0⟩),
      .reserve 0 (.fields ⟨0, 4294967296⟩), .release 0 (.fields ⟨256, 0⟩), .release 0 (.fields ⟨0, 256⟩),
      .serviceDraw 0 (.fields ⟨256, 0⟩), .serviceDraw 0 (.fields ⟨0, 4294967296⟩), .commitNow 0 (.fields (some 256)),
      .scanSet 0 (.fields ⟨List.replicate 256 0, 0, 0⟩), .scanSet 0 (.fields ⟨[256], 0, 0⟩),
      .scanSet 0 (.fields ⟨[], 65536, 0⟩), .scanSet 0 (.fields ⟨[], 0, 256⟩), .sensorCal 0 (.fields ⟨256, 0, 0⟩),
      .sensorCal 0 (.fields ⟨0, 32768, 0⟩), .sensorCal 0 (.fields ⟨0, 0, 65536⟩),
      .scheduleLoad 0 (.fields ⟨256, Vector.replicate 16 0⟩), .scheduleLoad 0 (.fields ⟨0, Vector.replicate 16 256⟩),
      .windowSet 0 (.fields ⟨256, 0, 0, false, false⟩), .windowSet 0 (.fields ⟨0, 256, 0, false, false⟩),
      .windowSet 0 (.fields ⟨0, 0, 256, false, false⟩), .tagRead 0 (.fields ⟨256, 0, 0⟩),
      .tagRead 0 (.fields ⟨0, 256, 0⟩), .tagRead 0 (.fields ⟨0, 0, 256⟩), .tagWrite 0 (.fields ⟨256, 0, []⟩),
      .tagWrite 0 (.fields ⟨0, 256, []⟩), .tagWrite 0 (.fields ⟨0, 0, List.replicate 256 0⟩),
      .tallyFrame (some []) 9, .tallyFrame none 0, .tallyFrame none 9, .conversionComplete 4096, .waitTimerExpiry 0 0,
      .waitTimerExpiry 0 256, .laneReply 0 (List.replicate 65536 0)].all fun c : Instr => !c.wellFormed) = true := by
  decide +kernel

/-! ## The wire formats (R206) -/

/-- The two CRCs of the digits 1 to 9: the published check values of polynomial 0x1021 from 0xFFFF, and of 0x07 from 0. -/
theorem test_crcs :
    crc16 [0x31, 0x32, 0x33, 0x34, 0x35, 0x36, 0x37, 0x38, 0x39] = 0x29B1#16 ∧
      crc8 [0x31, 0x32, 0x33, 0x34, 0x35, 0x36, 0x37, 0x38, 0x39] = 0xF4#8 := by
  decide +kernel

/-- The command frames of Table 11-9, bytes written from the table; slot 6 has lane address 2. -/
theorem test_command_frames :
    (LaneEntry.frame ⟨6, .challenge 0x0102030405060708, none⟩).take 11 = [2, 2, 8, 1, 2, 3, 4, 5, 6, 7, 8] ∧
      (LaneEntry.frame ⟨6, .odoAdvance 412500100 2 1, none⟩).take 16 =
        [2, 3, 13, 0x18, 0x96, 0x40, 0x84, 2, 0, 0, 0, 0, 0, 0, 0, 1] ∧
      (LaneEntry.frame ⟨5, .memWrite 64 [9, 8], none⟩).take 6 = [1, 6, 3, 64, 9, 8] := by
  decide +kernel

/-- A description's 22 bytes (Table 11-9): serial 10, ink 1, fill 1,000,000,000, generation 2, IN_USE, unmarked, odometer
412,000,000, lot 7. -/
theorem test_description_bytes :
    readDescription
      [0, 0, 0, 0, 0, 0, 0, 10, 1, 0x3B, 0x9A, 0xCA, 0, 2, 1, 0, 0x18, 0x8E, 0x9F, 0, 0, 7] = some (ink 10) := by
  decide +kernel

/-- The bytes of a SLOT_GET of slot 6 with tag 0x21 (Tables 11-3, 11-7), read by a HUNTING receiver. -/
theorem test_host_frame_read :
    hostFrame 0x02 0x21 [6] = [0xA5, 0, 1, 0x02, 0x21, 6] ++ crc16Bytes [0, 1, 0x02, 0x21, 6] ∧
      readRequest 0x02 0x21 [6] = .slotGet 0x21 (.fields 6) ∧
      readRequest 0x0A 0 [1, 0, 0, 0xAF, 0xC8] = .reserve 0 (.fields ⟨1, 45000⟩) ∧
      readRequest 0x1D 0 [] = .unknownKind 0x1D 0 := by
  decide +kernel

/-- R206: a value of Table 9-2's list ADMISSION, HOST, or both is one byte; R45: ticket, slot and status. -/
theorem test_named_values :
    [⟨true, false⟩, ⟨false, true⟩, ⟨true, true⟩].map Reasons.bytes = [[0], [1], [2]] ∧
      (Notice.details (.passthroughDone 6 17 .aborted)).take 3 = [17, 6, 2] := by
  decide

/-- A busy answer and a bad-frame answer (R194 to R196): kind with 0x80 added, status; tag 0. -/
theorem test_answer_frames :
    OutFrame.bytes (.answer (.busy 0x02 0x21)) = hostFrame 0x82 0x21 [5] ∧
      (OutFrame.bytes (.answer .badFrame)).take 6 = [0xA5, 0, 1, 0xFF, 0, 6] := by
  decide +kernel

/-! ## Arithmetic of the manual's worked cases -/

/-- Section 5.2.1: Cases 1, 1b and 2, residue, accumulator and charge. -/
theorem test_entry_cases :
    let c : ChannelSettings := (part.channel 0).settings
    let v : Volume := { resetVolume 1000 with residue := 12345, accumulator := 950000 }
    let e : TallyEntry := ⟨0, 12000, 5000, 2500, 90⟩
    let small : TallyEntry := ⟨0, 1, 0, 0, 90⟩
    let clampedCase : ChannelSettings := { c with beta := -128, referenceCode := 0 }
    let w : Volume := { resetVolume 1000 with residue := 20000, accumulator := 999000 }
    let hot : TallyEntry := ⟨0, 1000, 0, 2000, 254⟩
    entryCharge e c v = 123 ∧ (v.afterEntry e c).residue = 6777 ∧ (v.afterEntry e c).accumulator = 362726 ∧
      entryCharge small c (v.afterEntry e c) = 0 ∧ ((v.afterEntry e c).afterEntry small c).residue = 8057 ∧
      entryCharge hot clampedCase w = 20 ∧ (w.afterEntry hot clampedCase).accumulator = 599000 ∧
      (w.afterEntry hot clampedCase).clamped = 1 := by
  decide +kernel

/-- Table 9-3. -/
theorem test_levels :
    levelOf 2640 40 1200 = 762 ∧ levelOf 4000 (-300) 1200 = 1000 ∧ levelOf 4079 0 1000 = 996 ∧ levelOf 300 350 1000 = 0 := by
  decide

/-- R173: three entries, two of them loaded with one stamp; each takes a stamp of its own and is queued. -/
theorem test_renumber :
    let places := (((plain.history.places.set 5 (some { entry 1 with stamp := 9 })).set 2
      (some { entry 2 with stamp := 9 })).set 60 (some { entry 3 with stamp := 4 }))
    let t := { plain with history := { plain.history with places := places } }.renumber
    [60, 2, 5].map (fun p => (t.place p).map fun e => e.stamp) = [some 1, some 2, some 3] ∧ t.history.recency = 3 ∧
      t.history.ordinary = [60, 2, 5] := by
  decide +kernel

/-- Table 10-6, its seven rows against the entry of section 10.9. -/
theorem test_reconciliation_rows :
    let tag (g o : Nat) := reconcileWith { ink 10 with fillGeneration := g, odometerAtRead := o } (entry 10)
    tag 2 412500750 = .passed 120 ∧ tag 2 412500350 = .passed 500870 ∧ tag 2 412000000 = .passed 500870 ∧
      tag 2 430000000 = .passed 120 ∧ tag 2 411990000 = .rollback ∧ tag 1 0 = .rollback ∧ tag 3 0 = .newFill := by
  decide

/-! ## Resets and POWER_WARN -/

def inputs : ResetInputs :=
  ⟨(Vector.replicate 16 false).set 3 true, true, true, true, true, false, Vector.replicate 2 true⟩

/-- R24, R59, R67, R161, R171, R186, R193, R205: a cartridge present, POWER_WARN and TSTROBE asserted, straps 11, the
History image's check failing. -/
theorem test_powerOnReset :
    let t := after (.powerOnReset inputs) part
    t.debounceOf 3 = some 50 ∧ t.debounceOf 4 = none ∧ t.sense.scan = .halted ∧ t.tally.skippingPartial = true ∧
      t.host.rate = 3000000 ∧ t.place 21 = none ∧ t.cause = ⟨.powerOn, true, true⟩ ∧
      t.keys.state = .provisioned 5 := by
  decide +kernel

/-- R59, R63: a pin reset cuts off the cell's write and clears the lock. -/
theorem test_pinReset :
    let t := after (.pinReset inputs) { plain with keys := ⟨.provisioned 9, .blank, some 9, true⟩ }
    t.keys = ⟨.unprovisioned, .blank, none, false⟩ ∧ t.cause.kind = .pin := by
  decide +kernel

/-- R65, R205: a host reset keeps the Key Store and the lock. -/
theorem test_hostReset :
    let t := after (.hostReset inputs)
      { plain with keys := ⟨.provisioned 9, .written 9, none, true⟩, preparation := some ⟨true, []⟩ }
    t.keys = ⟨.provisioned 9, .written 9, none, true⟩ ∧ t.cause.kind = .host ∧ t.preparation = none := by
  decide +kernel

/-- R116, R189: both admitted slots take a commit of their 3,500 nl; the entry takes the account, the scan halts. -/
theorem test_powerWarnAssert :
    let t := after .powerWarnAssert part
    ((t.commit 0).flight.map fun f => (f.snapshot, f.advance)) = some (3500, 412003500) ∧
      (t.commit 1).flight.isSome = true ∧
      t.place 21 = some { entry 10 with pendingCharge := some 3500, uncertain := none } ∧ t.sense.scan = .halted ∧
      t.history.round = some ⟨[21, 22], 2⟩ := by
  decide +kernel

/-- R161: the scan resumes at its position. -/
theorem test_powerWarnDeassert :
    let t := after .powerWarnDeassert (after .powerWarnAssert plain)
    t.sense.scan = .running ∧ t.pins.powerWarn = false ∧ notices t = [.powerPreserved 0] := by
  decide +kernel

/-! ## Slots -/

/-- R8. -/
theorem test_presenceGain : (after (.presenceGain 6) plain).debounceOf 6 = some 50 := by decide +kernel

/-- R8: the loss cancels. -/
theorem test_presenceLossDuringDebounce :
    let t := after (.presenceLossDuringDebounce 6) (after (.presenceGain 6) plain)
    t.debounceOf 6 = none ∧ (t.slot 6).state = .vacant := by
  decide +kernel

/-- R10, R14, R25: SEATING, READING, and the DESCRIBE on the wire. -/
theorem test_seatDebounceExpiry :
    let s := plain.updSlot 6 fun r => { r with channel := some 3 }
    let t := after (.seatDebounceExpiry 6) (after (.presenceGain 6) s)
    (t.slot 6).state = .reading ∧ (t.lane 1).state = .onWire ⟨⟨6, .describe, none⟩, 0, 0, .replyWait, false⟩ ∧
      notices t = [.slotChanged 6 .vacant .seating none none none, .slotChanged 6 .seating .reading none none none] := by
  decide +kernel

/-- Section 6.7's removal in CHECKING (Table 6-5), and failover to slot 1 (R132). -/
theorem test_removal :
    let s := (part.updSlot 0 fun r => { r with uncommitted := 500870 }).updCommit 0 fun _ =>
      ⟨some ⟨.checking, 500750, 412500750, 1⟩, .step, 1, some 412500350⟩
    let t := after (.removal 0) s
    t.place 21 = some { entry 10 with
      pendingCharge := some 500870, uncertain := some 500750, lastSlot := 0, stamp := 1377 } ∧
      t.slot 0 = vacantSlot (some 0) ∧ (t.channel 0).serving = some 1 ∧ (t.slot 1).state = .serving := by
  decide +kernel

/-! ## The host link -/

/-- R194: counted and answered BAD_FRAME. -/
theorem test_badFrame :
    let t := after .badFrame plain
    t.host.badFrames = 1 ∧ t.host.transmitting = some (.answer .badFrame) := by
  decide +kernel

/-- R194, R195: with an answer already waiting the frame is discarded and counted. -/
theorem test_oversizedLength :
    let s := plain.updHost fun h =>
      { h with transmitting := some (.answer .badFrame), outgoing := [.answer .badFrame] }
    let t := after .oversizedLength s
    t.host.badFrames = 1 ∧ t.host.overruns = 1 ∧ t.host.outgoing = [.answer .badFrame] := by
  decide +kernel

/-- R193. -/
theorem test_partialFrameGapExpiry :
    let t := after .partialFrameGapExpiry (plain.updHost fun h => { h with receiver := .collecting [0, 1] })
    t.host.receiver = .hunting ∧ t.host.discardedPartials = 1 := by
  decide +kernel

/-- R193: no partial frame, nothing counted. -/
theorem test_missingStopBit :
    (after (.missingStopBit false) plain).host.discardedPartials = 0 ∧
      (after (.missingStopBit true) plain).host.discardedPartials = 1 := by
  decide +kernel

/-- R195: a frame during WORKING is answered BUSY and counted. -/
theorem test_busyAnswer :
    let t := after (.busyAnswer 0x02 7) (plain.updHost fun h => { h with working := true })
    t.host.busy = 1 ∧ t.host.transmitting = some (.answer (.busy 0x02 7)) := by
  decide +kernel

/-- R196. -/
theorem test_unknownKind : reply (after (.unknownKind 0x1D 7) plain) = some (.unknownKind, .none) := by decide +kernel

/-- R195: the reply's end returns the link to READY, and the owed answer is sent. -/
theorem test_hostFrameTransmitted :
    let s := after (.busyAnswer 0x02 7) (after (.slotGet 1 (.fields 0)) plain)
    let t := after .hostFrameTransmitted s
    s.host.working = true ∧ t.host.working = false ∧ t.host.transmitting = some (.answer (.busy 0x02 7)) := by
  decide +kernel

/-! ## Reading requests -/

/-- R197. -/
theorem test_statusGet :
    (match reply (after (.statusGet 1 (.fields ())) part) with
    | some (.ok, .status r) =>
      some (r.key, r.slots[0], r.channels[0], r.history.entries)
    | _ => none) = some (.provisioned, .serving, ⟨.supplied, some 0⟩, 2) := by
  decide +kernel

/-- R2, R23, section 1.9: 1,000,000,000 − 412,000,000 − 3,500. -/
theorem test_slotGet :
    (match reply (after (.slotGet 1 (.fields 0)) part) with
    | some (.ok, .slot r) => some (r.remaining, r.state, r.tallyUncertain)
    | _ => none) = some (587996500, .serving, false) := by
  decide +kernel

/-- Section 5.6.1's CHANNEL_GET: peak 44,000, time to empty 13,363 s; the peak is then 0. -/
theorem test_channelGet :
    let s := part.updVolume 0 fun v => { v with lastWindowFlow := 44000, peakFlow := 44000, lastWindowLength := some 1000 }
    let t := after (.channelGet 1 (.fields 0)) s
    (t.channel 0).volume.peakFlow = 0 ∧
      (match reply t with
      | some (.ok, .channel r) => some (r.volume.peakFlow, r.volume.timeToEmpty)
      | _ => none) = some (44000, 13363) := by
  decide +kernel

/-- R187, by serial. -/
theorem test_historyGet :
    (match reply (after (.historyGet 1 (.fields (.serial 10))) part) with
    | some (.ok, .history r) => some (r.place, r.entry, r.seatedIn, r.standing)
    | _ => none) = some (21, entry 10, some 0, .none) := by
  decide +kernel

/-- R47. -/
theorem test_protectionGet :
    let s := { plain with bus := { plain.bus with protection := ⟨2, some (.locked 0x13)⟩ } }
    let t := after (.protectionGet 1 (.fields ())) s
    reply t = some (.ok, .protection 2 (some (.locked 0x13))) ∧ t.bus.protection = ⟨0, none⟩ := by
  decide +kernel

/-! ## Channels, reservations and draws -/

/-- R120: a very-low level above the low level is lowered to it, CLAMPED. -/
theorem test_channelSet :
    let t := after (.channelSet 1 (.fields ⟨0, { rawSettings with veryLowLevel := 200 }⟩)) plain
    (t.channel 0).settings.veryLowLevel = 150 ∧ (reply t).map Prod.fst = some .clamped := by
  decide +kernel

/-- R64: under the lock a changed policy is refused and recorded. -/
theorem test_channelSet_locked :
    let s := { plain with keys := { plain.keys with policyLock := true } }
    let t := after (.channelSet 1 (.fields ⟨0, { rawSettings with refillPolicy := 1 }⟩)) s
    reply t = some (.locked, .none) ∧ t.bus.protection = ⟨1, some (.locked 0x06)⟩ := by
  decide +kernel

/-- The channel of `part` before it is enabled: both slots READY. -/
def idlePart : State :=
  (part.updSlot 0 fun r => { r with state := .ready }).updChannel 0 fun ch =>
    { ch with state := .idle, serving := none, permit := false }

/-- R125, R128: the primary is selected. -/
theorem test_channelEnable :
    let t := after (.channelEnable 1 (.fields 0)) idlePart
    reply t = some (.ok, .channelState .supplied) ∧ (t.channel 0).serving = some 0 ∧ (t.channel 0).permit = true := by
  decide +kernel

/-- R126: the serving slot is READY again, with a commit taken (R103). -/
theorem test_channelDisable :
    let t := after (.channelDisable 1 (.fields 0)) part
    (t.channel 0).state = .idle ∧ (t.channel 0).permit = false ∧ (t.slot 0).state = .ready ∧
      (t.commit 0).flight.isSome = true := by
  decide +kernel

/-- R123: a slot of another channel's pair is refused. -/
theorem test_supplyMapSet :
    reply (after (.supplyMapSet 1 (.fields ⟨1, some 1, none⟩)) part) = some (.badArgument, .none) ∧
      ((after (.supplyMapSet 1 (.fields ⟨1, some 6, some 7⟩)) part).channel 1).pair = some ⟨6, some 7⟩ := by
  decide +kernel

/-- Section 8.9, a1: id 255. -/
theorem test_reserve :
    reply (after (.reserve 1 (.fields ⟨0, 45000⟩)) part) = some (.granted, .reservationGranted 255 45000) := by
  decide +kernel

/-- Section 8.9 after a1 and a2. -/
def twoGranted : State := part.updChannel 0 fun ch =>
  { ch with reservations := [⟨255, 45000, 0, false, none⟩, ⟨1, 40000, 0, false, none⟩], lastId := 1 }

/-- Section 8.9, a3: 115,000 is above the ceiling. -/
theorem test_reserve_stall :
    let t := after (.reserve 1 (.fields ⟨0, 30000⟩)) twoGranted
    reply t = some (.queued, .reservationQueued 2 1 true) ∧ (t.channel 0).stall = true := by
  decide +kernel

/-- Section 8.9, a11: id 1 gives up its undrawn 35,000 nl and the stall clears at 40,000. -/
theorem test_release :
    let s := part.updChannel 0 fun ch =>
      { ch with
        reservations := [⟨1, 40000, 5000, false, none⟩, ⟨2, 30000, 0, false, none⟩, ⟨3, 10000, 0, false, none⟩]
        stall := true }
    let t := after (.release 1 (.fields ⟨0, 1⟩)) s
    reply t = some (.ok, .released .drawing 40000 5000 false) ∧ (t.channel 0).stall = false := by
  decide +kernel

/-- Section 5.7: 123 nl on a slot with 100 nl left; 23 nl are overdraw, the slot is SPENT, slot 1 takes over. -/
theorem test_serviceDraw :
    let s := part.updSlot 0 fun r => { r with committed := 999500000, uncommitted := 499900, band := .veryLow }
    let t := after (.serviceDraw 1 (.fields ⟨0, 123⟩)) s
    reply t = some (.ok, .drawn 123 (some 0) 100 23 0) ∧ (t.slot 0).state = .spent ∧ (t.slot 0).band = .empty ∧
      (t.channel 0).serving = some 1 ∧ (t.channel 0).permit = true := by
  decide +kernel

/-- R148, section 8.9, a6: the draw fills the oldest first, the stall clears, and both waiting ones are granted. -/
theorem test_serviceDraw_reserved :
    let w : Option WaitTimer := some ⟨2000, 0⟩
    let s := part.updChannel 0 fun ch =>
      { ch with
        reservations := [⟨255, 45000, 30000, false, none⟩, ⟨1, 40000, 0, false, none⟩, ⟨2, 30000, 0, false, w⟩,
          ⟨3, 10000, 0, false, w⟩]
        stall := true }
    let t := after (.serviceDraw 1 (.fields ⟨0, 20000⟩)) s
    notices t = [.reservationGranted 0 2 30000 0 65000, .reservationGranted 0 3 10000 0 75000] ∧
      (t.channel 0).reservations.map (fun r => r.drawn) = [45000, 5000, 0, 0] ∧ (t.channel 0).stall = false := by
  decide +kernel

/-! ## Commits and the cartridge bus -/

/-- R105, R115: the advance value is committed plus the snapshot. -/
theorem test_commitNow :
    reply (after (.commitNow 1 (.fields (some 0))) part) = some (.queued, .commitOne .sent 412003500) := by
  decide +kernel

/-- R106, Table 6-4: a trigger on a commit in SENT with more uncommitted sets the again flag. -/
theorem test_commitNow_again :
    let s := part.updCommit 0 fun _ => ⟨some ⟨.sent, 3000, 412003000, 1⟩, .clear, 0, none⟩
    ((after (.commitNow 1 (.fields (some 0))) s).commit 0).again = .forced := by
  decide +kernel

/-- Table 2-6's Table B, as numbers. -/
def tableB : Vector Nat 16 := #v[1, 0, 1, 1, 3, 1, 0, 1, 1, 2, 1, 0, 1, 1, 3, 1]

/-- R39, section 2.9. -/
theorem test_scheduleLoad :
    let t := after (.scheduleLoad 1 (.fields ⟨1, tableB⟩)) plain
    reply t = some (.ok, .none) ∧ t.bus.tableB[4] = .pass ∧
      reply (after (.scheduleLoad 1 (.fields ⟨0, tableB⟩)) plain) = some (.wrongState, .none) := by
  decide +kernel

/-- R40, section 2.9: idle lanes take up B at once, a busy one keeps A. -/
theorem test_scheduleSelect :
    reply (after (.scheduleSelect 1 (.fields 1)) (waitingFor part 0 .describe)) =
      some (.ok, .schedule .b #v[.a, .b, .b, .b]) := by
  decide +kernel

/-- Table 2-8, step 5: phase 15 of A, wrap, and phase 1 of B. -/
theorem test_search_wraps :
    let b := { plain.bus with tableB := phaseTable tableB, requested := .b }
    let queue : List LaneEntry := [⟨6, .memRead 64 1, some 17⟩, ⟨5, .memRead 64 1, some 18⟩, ⟨4, .challenge 0, none⟩]
    searchWheel 32 b queue .a 15 = some ⟨⟨4, .challenge 0, none⟩, 2, .b⟩ := by
  decide +kernel

/-- R43: the addresses are raised into the user area, the high one to the low one. -/
theorem test_windowSet :
    reply (after (.windowSet 1 (.fields ⟨2, 100, 10, true, false⟩)) plain) =
      some (.clamped, .windowTaken ⟨100, 100, true, false⟩) := by
  decide +kernel

/-- `part` with window 0 open for reading 64 to 79. -/
def openPart : State := { part with bus := { part.bus with windows := part.bus.windows.set 0 ⟨64, 79, true, false⟩ } }

/-- R44: the range must lie within the window; ticket 1. -/
theorem test_tagRead :
    reply (after (.tagRead 1 (.fields ⟨0, 64, 16⟩)) openPart) = some (.accepted, .ticket 1) ∧
      reply (after (.tagRead 1 (.fields ⟨0, 65, 16⟩)) openPart) = some (.isProtected, .none) := by
  decide +kernel

/-- R44, R46: no window permits writing. -/
theorem test_tagWrite :
    let t := after (.tagWrite 1 (.fields ⟨0, 64, [1, 2]⟩)) openPart
    reply t = some (.isProtected, .none) ∧ t.bus.protection = ⟨1, some (.access 0 64 2 true)⟩ := by
  decide +kernel

/-! ## Level sensing -/

/-- R158: the second request for the slot merges. -/
theorem test_sense :
    let s := { part with pins := { part.pins with powerWarn := true } }
    let once := { after (.sense 1 (.fields 0)) s with host := plain.host }
    reply (after (.sense 1 (.fields 0)) once) = some (.queued, .position 1) ∧
      reply (after (.sense 1 (.fields 5)) s) = some (.wrongState, .none) := by
  decide +kernel

/-- R155: pending while a pass is in progress; a source 16 is refused. -/
theorem test_scanSet :
    (after (.scanSet 1 (.fields ⟨[3, 17], 2000, 50⟩)) plain).sense.pendingScan = some ⟨[.slot 3, .reference], 1000⟩ ∧
      reply (after (.scanSet 1 (.fields ⟨[16], 50, 50⟩)) plain) = some (.badArgument, .none) := by
  decide +kernel

/-- R163: clamped, and the ring is emptied. -/
theorem test_sensorCal :
    let s := plain.updSlotSense 2 fun u => { u with ring := [1, 2, 3] }
    let t := after (.sensorCal 1 (.fields ⟨2, -600, 1000⟩)) s
    reply t = some (.clamped, .calibrationTaken (-512) 1000) ∧ (t.slotSense 2).ring = [] := by
  decide +kernel

/-! ## Stores, keys and notices -/

/-- R188: a seated cartridge's entry is kept; an unseated one's pending charge is forfeited. R64: under the lock a
malformed selector is LOCKED, and an index above 63 is not. -/
theorem test_historyClear :
    let s := { part with history := { part.history with places := part.history.places.set 5 (some (entry 77)) } }
    let t := after (.historyClear 1 (.fields (.index 5))) s
    reply t = some (.ok, .cleared 77 500870) ∧ t.history.forfeited = 500870 ∧ t.place 5 = none ∧
      reply (after (.historyClear 1 (.fields (.serial 10))) s) = some (.wrongState, .none) ∧
      (let locked := { s with keys := { s.keys with policyLock := true } }
       reply (after (.historyClear 1 (.fields .badSelector)) locked) = some (.locked, .none) ∧
        reply (after (.historyClear 1 (.fields (.index 64))) locked) = some (.badArgument, .none)) := by
  decide +kernel

/-- R61, R17: the key is loaded and a slot that waited for it is read again. -/
theorem test_keyProvision :
    let s := plain.updSlot 6 fun r =>
      { r with state := .rejected, rejectReason := some .authUnavailable, channel := some 3, description := some (ink 1) }
    let t := after (.keyProvision 1 (.fields 5)) s
    t.keys = ⟨.provisioned 5, .blank, some 5, false⟩ ∧ (t.slot 6).state = .reading ∧ (t.slot 6).description = none ∧
      reply (after (.keyProvision 1 (.fields 0)) plain) = some (.badArgument, .none) := by
  decide +kernel

/-- R62. -/
theorem test_keyCellWriteDone :
    (after .keyCellWriteDone { plain with keys := ⟨.provisioned 5, .blank, some 5, false⟩ }).keys =
      ⟨.provisioned 5, .written 5, none, false⟩ := by
  decide +kernel

/-- R63. -/
theorem test_policyLock : (after (.policyLock 1 (.fields ())) plain).keys.policyLock = true := by decide +kernel

/-- R200: a maximum of 0 is raised to 1; ATTN falls with the last notice. -/
theorem test_noticeGet :
    let t := after (.noticeGet 1 (.fields 0)) State.reset
    reply t = some (.clamped, .notices (some 1) [⟨0, .settingsDefaulted⟩] 0 0) ∧ t.notices.attn = false := by
  decide +kernel

/-- R201: bits 18 to 31 are ignored. -/
theorem test_noticeMaskSet :
    reply (after (.noticeMaskSet 1 (.fields 0xFFFC0001)) plain) = some (.ok, .mask 1) := by
  decide +kernel

/-- R202: the reply comes with the end of the write; the first copy has count 0. -/
theorem test_settingsSave :
    let t := after (.settingsSave 1 (.fields ())) plain
    let u := after .settingsSaveWriteDone t
    reply t = none ∧ (t.store.saving.map fun w => (w.target, w.copy.saveCount)) = some (0, 0) ∧
      reply u = some (.ok, .none) ∧ u.store.inForce = some 0 := by
  decide +kernel

/-- R202: with copy 0 in force at the last count, copy 1 takes 0. -/
theorem test_settingsSaveWriteDone :
    let s := { plain with store := ⟨#v[some ⟨4294967295, defaultImage⟩, none], some 0, none⟩ }
    let u := after .settingsSaveWriteDone (after (.settingsSave 1 (.fields ())) s)
    u.store.inForce = some 1 ∧ (u.store.copies[1].map fun c => c.saveCount) = some 0 := by
  decide +kernel

/-- R191, R204: the reply is sent and the two entries' writes are waited for, one of them begun. -/
theorem test_reset :
    let t := after (.reset 1 (.fields ())) part
    reply t = some (.ok, .none) ∧ t.preparation = some ⟨false, [22]⟩ ∧
      (t.history.writing.map fun w => (w.place, w.forReset)) = some (21, true) := by
  decide +kernel

/-- R186, R190: the image takes the content, the round ends. -/
theorem test_historyWriteDone :
    let s := { part with history := { part.history with
      writing := some ⟨21, some (entry 10), true, false⟩, round := some ⟨[21], 2⟩ } }
    let t := after .historyWriteDone s
    t.history.image[21] = some (entry 10) ∧ t.history.round = none ∧ notices t = [.powerPreserved 2] := by
  decide +kernel

/-! ## The tally link and the lanes -/

/-- Section 4.7, f4 in small: 0 where 255 was expected is a gap of 1, marked on the channel in use. -/
theorem test_tallyFrame_gap :
    let s := part.updTally fun t => { t with heads := t.heads.set 2 ⟨some 255, 1, 0, 1, 0, 0⟩ }
    let t := after (tally 2 0 0 [[6, 0, 1, 0, 0, 0, 0, 90]]) s
    t.tally.heads[2] = ⟨some 1, 2, 0, 1, 1, 1⟩ ∧ (t.channel 0).tallyUncertain = true ∧
      (t.channel 6).tallyUncertain = false ∧ notices t = [.tallyFault 2 1 0 [0]] ∧ t.tally.idleEntries = 1 := by
  decide +kernel

/-- Section 5.2.1, Case 1, as a frame: 12,000, 5,000 and 2,500 drops at code 90, residue 12,345 and accumulator 950,000;
123 nl land on the serving slot. -/
theorem test_tallyFrame_charge :
    let s := part.updVolume 0 fun v => { v with residue := 12345, accumulator := 950000 }
    let t := after (tally 0 0x80 7 [[0, 0x2E, 0xE0, 0x13, 0x88, 0x09, 0xC4, 90]]) s
    (t.slot 0).uncommitted = 3623 ∧ (t.channel 0).volume.residue = 6777 ∧ (t.channel 0).volume.totalCharged = 123 ∧
      t.tally.heads[0].expected = some 8 := by
  decide +kernel

/-- R68. -/
theorem test_tstrobeDeassertedAfterReset :
    (after .tstrobeDeassertedAfterReset
      (plain.updTally fun t => { t with skippingPartial := true })).tally.skippingPartial = false := by
  decide +kernel

/-- `part` with slot 6 of channel 3 in a state of admission. -/
def admitting (state : SlotState) : State :=
  part.updSlot 6 fun r => { r with state := state, channel := some 3, description := some { ink 33 with inkCode := 4 } }

/-- R15, R60: channel 3's default ink code is 4; ink 1 is WRONG_INK. -/
theorem test_laneReply_describe :
    let s := waitingFor (admitting .reading) 6 .describe
    let d (code : Byte) : List Byte :=
      [0, 0, 0, 0, 0, 0, 0, 99, code, 0x3B, 0x9A, 0xCA, 0, 2, 1, 0, 0x18, 0x8E, 0x9F, 0, 0, 7]
    ((after (.laneReply 1 (tagFrame 6 1 0 (d 4))) s).slot 6).state = .verifying ∧
      ((after (.laneReply 1 (tagFrame 6 1 0 (d 1))) s).slot 6).rejectReason = some .wrongInk := by
  decide +kernel

/-- R34, R50: a receipt gives a job; R26: a frame that fails its CRC-8 uses an attempt. -/
theorem test_laneReply_receipt :
    let s := waitingFor part 0 (.odoAdvance 412003500 2 1)
    let t := after (.laneReply 0 (tagFrame 0 3 0 [0, 0, 0, 0, 0, 0, 0, 9])) s
    (t.engine.running.map fun r => r.job) = some ⟨0, 10, 7, 1, 9, .verifyReceipt 412003500⟩ ∧
      (t.lane 0).state = .idle ∧
      ((after (.laneReply 0 [0]) s).lane 0).state =
        .onWire ⟨⟨0, .odoAdvance 412003500 2 1, none⟩, 1, 0, .replyWait, false⟩ := by
  decide +kernel

/-- R16, R26: the third timeout faults the slot. -/
theorem test_replyTimeout :
    let s := (admitting .reading).updLane 1 fun lane =>
      { lane with state := .onWire ⟨⟨6, .describe, none⟩, 2, 0, .replyWait, false⟩ }
    let t := after (.replyTimeout 1) s
    (t.slot 6).state = .faulted ∧ (t.slot 6).faultReason = some .noResponse ∧ (t.lane 1).state = .idle := by
  decide +kernel

/-- R27: the command is sent again. -/
theorem test_busyHoldOffExpiry :
    let s := plain.updLane 1 fun lane => { lane with state := .onWire ⟨⟨6, .describe, none⟩, 0, 8, .busyHoldOff, false⟩ }
    ((after (.busyHoldOffExpiry 1) s).lane 1).state = .onWire ⟨⟨6, .describe, none⟩, 0, 8, .replyWait, false⟩ := by
  decide +kernel

/-- The challenge of slot 6's cartridge (R52, Table 3-2): its tag value is the digest under its key, plus `off`. -/
def challengeJob (off : Word64) : Job :=
  ⟨6, 33, 7, 1, Config.tagDigest (Config.cartridgeKey 5 33 7) [1, 33, 2, 412000000, 7] + off,
    .verifyChallenge 2 412000000⟩

/-- The receipt of the manual's commit of section 6.7 (R53): its tag value is the digest under its key, plus `off`. -/
def receiptJob (off : Word64) : Job :=
  ⟨0, 10, 7, 1, Config.tagDigest (Config.cartridgeKey 5 10 7) [10, 412500750, 1] + off, .verifyReceipt 412500750⟩

/-- The engine at work on a job. -/
def working (j : Job) : Engine := ⟨some ⟨j, false⟩, [], []⟩

/-- Slot 6's challenge in progress. -/
def checkingAnswer (off : Word64) : State :=
  { admitting .verifying with
    engine := working (challengeJob off)
    history := { part.history with places := part.history.places.set 30 (some { entry 33 with inkCode := 4 }) } }

/-- A receipt of slot 0 with the Digest Engine: the manual's commit of section 6.7. -/
def checkingReceipt (off : Word64) : State :=
  ((part.updSlot 0 fun r => { r with uncommitted := 500870 }).updCommit 0 fun _ =>
    ⟨some ⟨.checking, 500750, 412500750, 1⟩, .step, 1, some 412500350⟩).updEngine fun _ => working (receiptJob off)

/-- R52, R53: the engine's comparison. -/
theorem test_jobMatches :
    (checkingAnswer 0).jobMatches (challengeJob 0) = true ∧ (checkingAnswer 1).jobMatches (challengeJob 1) = false ∧
      (checkingReceipt 0).jobMatches (receiptJob 0) = true ∧ (checkingReceipt 1).jobMatches (receiptJob 1) = false := by
  have equal : ∀ x : Word64, (x == x + 0) = true := fun x => by simp
  have other : ∀ x : Word64, (x == x + 1) = false := fun x => by
    rw [beq_eq_false_iff_ne]; intro h; bv_omega
  exact ⟨equal _, other _, equal _, other _⟩

theorem after_digestJobComplete {s : State} {j : Job} {m : Bool} (p : Option (Fin 64))
    (h : s.engine.running = some ⟨j, false⟩) (hm : s.jobMatches j = m) :
    after (.digestJobComplete p) s = ((s.handResult j m p).startNextJob).settle := by
  simp only [after, exec, execDigestJobComplete, h, State.jobDone, hm]
  rfl

/-- R52, R177, section 10.9's third row; and R17's AUTH_FAILED. -/
theorem test_digestJobComplete_answer :
    let t := after (.digestJobComplete none) (checkingAnswer 0)
    (t.slot 6).state = .sensing ∧ (t.slot 6).uncommitted = 500870 ∧ t.history.recency = 1377 ∧
      ((after (.digestJobComplete none) (checkingAnswer 1)).slot 6).rejectReason = some .authFailed := by
  rw [after_digestJobComplete none rfl test_jobMatches.1, after_digestJobComplete none rfl test_jobMatches.2.1]
  decide +kernel

/-- R53, R108, Table 6-4's match: committed 412,500,750 and uncommitted 120. -/
theorem test_digestJobComplete_receipt :
    let t := after (.digestJobComplete none) (checkingReceipt 0)
    (t.slot 0).committed = 412500750 ∧ (t.slot 0).uncommitted = 120 ∧ t.commit 0 = ⟨none, .clear, 0, none⟩ ∧
      t.place 21 = some { entry 10 with odometer := 412500750, pendingCharge := some 120, uncertain := none } := by
  rw [after_digestJobComplete none rfl test_jobMatches.2.2.1]
  decide +kernel

/-! ## Times -/

/-- Table 9-4, s11: the rise count reaches the persistence of 4 and the detection is handed over (policy WARN). R161: with
the scan HALTED the sample joins the ring and no check follows. -/
theorem test_conversionComplete_detection :
    let s := (part.updSlot 1 fun r => { r with committed := 412800000, uncommitted := 0 }).updSlotSense 1 fun u =>
      { u with ring := [795, 796, 797, 798], rise := 3 }
    let s := { s with sense := { s.sense with
      reference := .good, conversion := some ⟨.slot 1, false, 0, 1000, false⟩ } }
    let t := after (.conversionComplete 3271) s
    let halted := after (.conversionComplete 3271) { s with sense := { s.sense with scan := .halted } }
    ((t.slotSense 1).ring = [796, 797, 798, 799] ∧ (t.slotSense 1).rise = 0 ∧ (t.slot 1).quality = some .refilled) ∧
      (halted.slotSense 1).ring = [796, 797, 798, 799] ∧ (halted.slotSense 1).rise = 3 ∧
        (halted.slot 1).quality = some .genuine := by
  decide +kernel

/-- R164: 1,899 is BAD. -/
theorem test_conversionComplete_reference :
    let t := after (.conversionComplete 1899) plain
    t.sense.reference = .bad ∧ notices t = [.sensorFault none 1899] ∧
      (after (.conversionComplete 1900) plain).sense.reference = .good := by
  decide +kernel

/-- R155, R156. -/
theorem test_scanPauseExpiry :
    let s := { plain with sense := { plain.sense with
      scan := .pausing, pauseTimer := some 50, conversion := none, pendingScan := some ⟨[.reference], 9⟩ } }
    let t := after .scanPauseExpiry s
    t.sense.list = [.reference] ∧ t.sense.pause = 9 ∧ t.sense.conversion = some ⟨.reference, false, 0, 0, false⟩ := by
  decide +kernel

/-- Section 5.6.1, window 2: 42,500 nl above a ceiling of 40,000. -/
theorem test_flowWindowExpiry :
    let s := part.updChannel 0 fun ch =>
      { ch with settings := { ch.settings with flowCeiling := 40000 }, volume := { ch.volume with windowSum := 42500 } }
    let t := after (.flowWindowExpiry 0) s
    (t.channel 0).volume.lastWindowFlow = 42500 ∧ (t.channel 0).volume.peakFlow = 42500 ∧
      notices t = [.flowExcess 0 42500 40000 1000] := by
  decide +kernel

/-- Section 8.9, a9. -/
theorem test_waitTimerExpiry :
    let s := part.updChannel 0 fun ch =>
      { ch with
        reservations := [⟨1, 75000, 0, false, none⟩, ⟨4, 50000, 0, false, some ⟨2000, 300⟩⟩]
        stall := true }
    let t := after (.waitTimerExpiry 0 4) s
    notices t = [.reservationExpired 0 4 50000 true true] ∧ (t.channel 0).reservations = [⟨1, 75000, 0, false, none⟩] := by
  decide +kernel

/-! ## Witnesses

`test_witness_<name>` shows, for the hypotheses of the obligation of that name, states and operands that meet them: one
for each clause, at a boundary of its range. -/

theorem test_witness_Step_takes_front_command :
    { part with pending := [.removal 0, .badFrame] }.pending = .removal 0 :: [.badFrame] := rfl

theorem test_witness_Every_command_completes : part.pending = [] := rfl

/-- A converter and a store write at work; each part of the store queue in front; a request behind one held off. -/
def eventEnd : State :=
  let s := waitingFor part 0 .describe
  { s with
    sense := { s.sense with conversion := none, injected := [⟨0, ⟨true, false⟩, 0⟩, ⟨5, ⟨false, true⟩, 1⟩] }
    history := { s.history with urgent := [21], ordinary := [22] } }

theorem test_witness_Event_end :
    let busy := { part with history := { part.history with writing := some ⟨63, none, false, false⟩ } }
    let ordinary := { part with history := { part.history with ordinary := [63, 0] } }
    (busy.sense.conversion.isSome = true ∧ busy.history.writing.isSome = true) ∧
      (part.sense.conversion.isSome = true ∧ part.history.writing = none ∧ part.history.urgent = [] ∧
        part.history.ordinary = []) ∧
      (eventEnd.history.writing = none ∧ eventEnd.history.urgent = 21 :: []) ∧
      (ordinary.history.writing = none ∧ ordinary.history.urgent = [] ∧ ordinary.history.ordinary = 63 :: [0]) ∧
      eventEnd.sense.conversion = none ∧ eventEnd.pins.powerWarn = false ∧
      (eventEnd.sense.injected.find? fun q => !eventEnd.heldOff q.slot) = some ⟨5, ⟨false, true⟩, 1⟩ := by
  decide +kernel

/-- A scan at a position of a list, slot 0 held off. -/
def scanning (list : List Source) (position : Nat) : State :=
  let s := waitingFor part 0 .describe
  { s with sense := { s.sense with conversion := none, list := list, position := position } }

theorem test_witness_Event_end_scan :
    let halted := { part with sense := { part.sense with conversion := none, scan := .halted } }
    let s := scanning [.slot 15, .slot 0, .slot 1] 0
    let stop := scanning [.reference, .slot 15, .slot 0] 1
    (s.sense.conversion = none ∧ s.sense.scan = .running ∧ (∀ q ∈ s.sense.injected, s.heldOff q.slot = true) ∧
        s.sense.list.drop s.sense.position = [.slot 15, .slot 0] ++ .slot 1 :: [] ∧
        (∀ x ∈ [Source.slot 15, .slot 0], s.passesOver x) ∧ ¬s.passesOver (.slot 1)) ∧
      (stop.sense.conversion = none ∧ stop.sense.scan = .running ∧
        (∀ q ∈ stop.sense.injected, stop.heldOff q.slot = true) ∧
        stop.sense.list.drop stop.sense.position = [.slot 15, .slot 0] ∧
        ∀ x ∈ [Source.slot 15, .slot 0], stop.passesOver x) ∧
      (plain.sense.list.length ≤ plain.sense.position ∧ plain.sense.scan = .running) ∧
      halted.sense.scan ≠ .running ∧ ∀ q ∈ halted.sense.injected, halted.heldOff q.slot = true := by
  have held : ∀ s : State, (s.slot 15).state = .vacant → s.heldOff 0 = true →
      ∀ x ∈ [Source.slot 15, .slot 0], s.passesOver x := by
    intro s h15 h0 x hx
    rcases List.mem_cons.1 hx with rfl | hx
    · exact ⟨15, rfl, .inl h15⟩
    · exact ⟨0, List.mem_singleton.1 hx, .inr h0⟩
  refine ⟨⟨by decide +kernel, by decide +kernel, by decide +kernel, by decide +kernel,
    held _ (by decide +kernel) (by decide +kernel), ?_⟩, ⟨by decide +kernel, by decide +kernel, by decide +kernel,
    by decide +kernel, held _ (by decide +kernel) (by decide +kernel)⟩, by decide +kernel, by decide +kernel,
    by decide +kernel⟩
  rintro ⟨i, e, h⟩
  cases e
  revert h
  decide +kernel

/-- A part whose host reset has been prepared. -/
def prepared : State := { part with preparation := some ⟨true, []⟩ }

theorem test_witness_Reset_of_slots_and_bus :
    (∃ c, c = Instr.powerOnReset inputs) ∧ (∃ c, c = Instr.pinReset inputs) ∧
      ∃ c, c = Instr.hostReset inputs ∧ prepared.resetPrepared = true :=
  ⟨⟨_, rfl⟩, ⟨_, rfl⟩, _, rfl, by decide +kernel⟩

theorem test_witness_Reset_of_channels_and_link :
    (∃ c kind, c = Instr.powerOnReset inputs ∧ kind = ResetKind.powerOn) ∧
      (∃ c kind, c = Instr.pinReset inputs ∧ kind = ResetKind.pin) ∧
      ∃ c kind, c = Instr.hostReset inputs ∧ kind = ResetKind.host ∧ prepared.resetPrepared = true :=
  ⟨⟨_, _, rfl, rfl⟩, ⟨_, _, rfl, rfl⟩, _, _, rfl, rfl, by decide +kernel⟩

theorem test_witness_Reset_of_channels_and_link_copies :
    let saved (a b : Nat) : State := { part with store := ⟨#v[some ⟨a, defaultImage⟩, some ⟨b, defaultImage⟩], none, none⟩ }
    (after (.powerOnReset inputs) part).store.inForce = none ∧
      (after (.powerOnReset inputs) (saved 0 4294967295)).store.inForce = some 0 ∧
      (after (.powerOnReset inputs) (saved 4 5)).store.inForce = some 1 ∧
      (after (.powerOnReset inputs) (saved 4 6)).store.inForce = none := by
  decide +kernel

theorem test_witness_Reset_of_keys_and_lock :
    plain.keys.cell = .blank ∧ part.keys.cell = .written 5 ∧
      { plain with keys := ⟨.damaged, .damaged, none, false⟩ }.keys.cell = .damaged ∧
      prepared.resetPrepared = true ∧
      { prepared with keys := { prepared.keys with policyLock := true } }.resetPrepared = true ∧
      { prepared with keys := { prepared.keys with policyLock := true } }.keys.policyLock = true := by
  decide +kernel

/-- No preparation; and each reason to wait alone. -/
theorem test_witness_Host_reset_waits :
    let waits (s : State) : Prop := ∀ p, s.preparation = some p →
      p.replySent = false ∨ p.waits ≠ [] ∨ s.keys.writing ≠ none ∨
        ∃ w, s.history.writing = some w ∧ w.forReset = true
    waits part ∧ waits { part with preparation := some ⟨false, []⟩ } ∧
      waits { part with preparation := some ⟨true, [63]⟩ } ∧
      waits { prepared with keys := { prepared.keys with writing := some 1 } } ∧
      waits { prepared with history := { prepared.history with writing := some ⟨0, none, false, true⟩ } } := by
  refine ⟨fun p h => ?_, fun p h => ?_, fun p h => ?_, fun p h => ?_, fun p h => ?_⟩
  · exact nomatch (by decide +kernel : part.preparation = none).symm.trans h
  · cases h; exact .inl rfl
  · cases h; exact .inr (.inl (by decide))
  · exact .inr (.inr (.inl (by simp)))
  · exact .inr (.inr (.inr ⟨_, rfl, rfl⟩))

theorem test_witness_Power_warn_edges :
    let s := part.updSlot 0 fun r => { r with uncommitted := 1 }
    (s.pins.powerWarn = false ∧ (s.slot 0).state.isAdmitted = true ∧ 0 < (s.slot 0).uncommitted) ∧
      (after .powerWarnAssert part).pins.powerWarn = true ∧ plain.pins.powerWarn = false ∧ plain.preservedPlaces = [] := by
  decide +kernel

theorem test_witness_Power_warn_preserves :
    part.pins.powerWarn = false ∧ (part.slot 0).isReconciled = true ∧ part.entryOf 0 = some 21 ∧
      part.place 21 = some (entry 10) ∧
      ∀ j, j ≠ 0 → (part.slot j).isReconciled = true → part.entryOf j ≠ some 21 := by
  decide +kernel

theorem test_witness_Presence_edges :
    (part.slot 15).state = .vacant ∧ (part.slot 0).state ≠ .vacant := by
  decide +kernel

theorem test_witness_Removal_empties_the_slot :
    (part.slot 0).state ≠ .vacant ∧ ∃ c, c = Instr.removal 0 ∨ c = Instr.presenceLossDuringDebounce 0 :=
  ⟨by decide +kernel, _, .inl rfl⟩

/-- Slot 0's jobs with the Digest Engine, one running and one queued, with a pass-through queued, and lane 1 held. -/
def removing : State :=
  let job (i : SlotId) : Job := ⟨i, 10, 7, 1, 9, .verifyReceipt 412500750⟩
  ((part.updEngine fun _ => ⟨some ⟨job 0, false⟩, [job 0, job 4], [1]⟩).updLane 1 fun lane =>
    { lane with state := .held (job 6) }).updLane 0 fun lane => { lane with queue := [⟨0, .memRead 64 1, some 9⟩] }

theorem test_witness_Removal_empties_the_slot_work :
    let job (i : SlotId) : Job := ⟨i, 10, 7, 1, 9, .verifyReceipt 412500750⟩
    let held := (removing.updEngine fun e => { e with heldLanes := [0] }).updLane 0 fun lane => { lane with state := .held (job 0) }
    let target := part.updChannel 0 fun ch => { ch with state := .switching, target := some 1 }
    ((removing.slot 0).state ≠ .vacant ∧ ⟨0, .memRead 64 1, some 9⟩ ∈ (removing.lane (laneOf 0)).queue ∧
        LaneEntry.laneClass ⟨0, .memRead 64 1, some 9⟩ = .pass) ∧
      (removing.engine.running = some ⟨job 0, false⟩ ∧ job 0 ∈ removing.engine.queue ∧ (job 0).slot = 0 ∧
        removing.engine.heldLanes = 1 :: [] ∧ (removing.lane 1).state = .held (job 6)) ∧
      ((held.lane (laneOf 0)).state = .held (job 0) ∧
        ([] : List LaneId) = held.engine.heldLanes.filter fun l => l ≠ laneOf 0) ∧
      ((∀ j ∈ part.engine.queue, j.slot ≠ 0) ∧ (part.lane (laneOf 0)).state = .idle) ∧
      ((removing.slot 0).channel = some 0 ∧ (removing.channel 0).serving = some 0 ∧
        0 ∈ (removing.channel 0).pairSlots) ∧
      (target.slot 1).state ≠ .vacant ∧ (target.slot 1).channel = some 0 ∧ (target.channel 0).serving = some 0 ∧
        (target.channel 0).state = .switching ∧ (target.channel 0).target = some 1 := by
  decide +kernel

theorem test_witness_Removal_preserves_the_account :
    let s := { part with history := { part.history with recency := 4294967294 } }
    (s.slot 0).state ≠ .vacant ∧ (s.slot 0).reconciled = true ∧ s.entryOf 0 = some 21 ∧
      s.place 21 = some (entry 10) ∧ s.history.recency < 4294967295 ∧
      ∀ f, (s.commit 0).flight = some f → f.phase ≠ .waiting := by
  refine ⟨by decide +kernel, by decide +kernel, by decide +kernel, by decide +kernel, by decide +kernel, fun f h => ?_⟩
  exact nomatch (by decide +kernel : (part.commit 0).flight = none).symm.trans h

/-- A lane with nothing to do works for no slot but its own. -/
theorem lawful_of_idle {lane : Lane} {l : LaneId} (state : lane.state = .idle) (queue : lane.queue = []) : lane.Lawful l := by
  refine ⟨fun e h => ?_, fun x h => ?_, fun j h => ?_⟩
  · rw [queue] at h; cases h
  · rw [state] at h; cases h
  · rw [state] at h; cases h

/-- A commit WAITING, and the recency counter at its maximum. -/
theorem test_witness_Removal_preserves_the_account_renumbered :
    let s := part.updCommit 0 fun _ => ⟨some ⟨.waiting, 3500, 412003500, 1⟩, .clear, 0, none⟩
    let s := { s with history := { s.history with recency := 4294967295 } }
    (s.slot 0).state ≠ .vacant ∧ (s.slot 0).reconciled = true ∧ s.entryOf 0 = some 21 ∧ s.place 21 = some (entry 10) ∧
      s.history.recency ≤ 4294967295 ∧ s.history.recency = 4294967295 ∧
      ((s.commit 0).flight.map fun f => f.phase) = some .waiting ∧ ∀ l, (s.lane l).Lawful l := by
  have idle : ∀ l, (part.lane l).state = .idle ∧ (part.lane l).queue = [] := by decide +kernel
  exact ⟨by decide +kernel, by decide +kernel, by decide +kernel, by decide +kernel, by decide +kernel, by decide +kernel,
    by decide +kernel, fun l => lawful_of_idle (idle l).1 (idle l).2⟩

theorem test_witness_Debounce_expiry_seats :
    let parked := after (.presenceGain 15) part
    let given := after (.presenceGain 6) (part.updSlot 6 fun r => { r with channel := some 7 })
    let onWire := waitingFor given 5 .describe
    ((parked.debounceOf 15).isSome = true ∧ (parked.slot 15).state = .vacant ∧ (parked.slot 15).channel = none) ∧
      ((given.debounceOf 6).isSome = true ∧ (given.slot 6).state = .vacant ∧ (given.slot 6).channel = some 7 ∧
        (given.lane (laneOf 6)).state = .idle ∧ (given.lane (laneOf 6)).queue = [] ∧ tableLawful given.bus.tableA ∧
        tableLawful given.bus.tableB) ∧
      ((onWire.debounceOf 6).isSome = true ∧ (onWire.slot 6).state = .vacant ∧ (onWire.slot 6).channel = some 7 ∧
        (onWire.lane (laneOf 6)).state ≠ .idle) ∧
      (part.debounceOf 15).isSome = false ∧ (part.slot 0).state ≠ .vacant := by
  have table : tableLawful defaultTable := by intro k; cases k <;> decide
  exact ⟨by decide +kernel, ⟨by decide +kernel, by decide +kernel, by decide +kernel, by decide +kernel,
    by decide +kernel, table, table⟩, by decide +kernel⟩

theorem test_witness_Frames_not_acted_on : ∃ c, c = Instr.badFrame ∨ c = .oversizedLength := ⟨_, .inr rfl⟩

/-- `part` WORKING on a request. -/
def workingPart : State := part.updHost fun h => { h with working := true }

theorem test_witness_Busy_frames :
    workingPart.host.working = true ∧ requestFrameOf (.statusGet 7 (.fields ())) = some ⟨0x01, 7, false⟩ ∧
      requestFrameOf (.reset 7 .wrongLength) = some ⟨0x1C, 7, true⟩ ∧ knownKind 0x00 = false ∧
      knownKind 0x1D = false ∧ part.host.working = false := by
  decide +kernel

theorem test_witness_Refused_at_the_link :
    part.host.working = false ∧ requestFrameOf (.statusGet 7 .wrongLength) = some ⟨0x01, 7, true⟩ ∧
      requestFrameOf (.reset 7 .wrongLength) = some ⟨0x1C, 7, true⟩ ∧
      ((0x00 : Byte).toNat = 0 ∧ 0x1C < (0x1D : Byte).toNat) ∧
      (1 ≤ (0x01 : Byte).toNat ∧ (0x1C : Byte).toNat ≤ 0x1C) := by
  decide +kernel

/-- A reply in transmission. -/
def okReply : OutFrame := .reply ⟨0x02, 7, .ok, .none⟩

def sendingReply : State := workingPart.updHost fun h => { h with transmitting := some okReply }

theorem test_witness_Frame_sent :
    part.host.transmitting = none ∧
      (sendingReply.host.transmitting = some okReply ∧ sendingReply.preparation = none) ∧
      { sendingReply with preparation := some ⟨false, [21]⟩ }.preparation = some ⟨false, [21]⟩ ∧
      (part.updHost fun h => { h with transmitting := some (.answer .badFrame) }).host.transmitting =
        some (.answer .badFrame) := by
  decide +kernel

theorem test_witness_Host_frames_are_received :
    (List.replicate 2048 (0 : Byte)).length ≤ 2048 ∧ 0 + 1 < (hostFrame 0x01 0 []).length ∧
      6 + 1 < (hostFrame 0x02 0 [6]).length := by
  decide +kernel

theorem test_witness_Status_and_history_get :
    part.host.working = false ∧ (part.place 21 = some (entry 10) ∧ HistoryName.index 21 = .index (21 : PlaceId).val) ∧
      (part.findEntry 10 = some 21 ∧ HistoryName.serial 10 = .serial 10) ∧
      (part.place 63 = none ∧ HistoryName.index 63 = .index (63 : PlaceId).val) ∧ part.findEntry 99 = none ∧ 63 < 64 := by
  decide +kernel

theorem test_witness_Slot_get :
    part.host.working = false ∧ 15 < 16 ∧ (15 : SlotId).val = 15 ∧ (0 : SlotId).val = 0 := by
  decide +kernel

theorem test_witness_Channel_get :
    part.host.working = false ∧ 7 < 8 ∧ (7 : ChannelId).val = 7 ∧ (0 : ChannelId).val = 0 ∧
      (part.channel 7).serving = none := by
  decide +kernel

theorem test_witness_Channel_get_serving :
    let s := part.updVolume 0 fun v => { v with lastWindowFlow := 1, lastWindowLength := some 60000 }
    (s.channel 0).serving = some 0 ∧ (s.channel 0).volume.lastWindowLength = some 60000 ∧
      0 < (s.channel 0).volume.lastWindowFlow ∧ (part.channel 0).serving = some 0 ∧
      (part.channel 0).volume.lastWindowFlow = 0 ∧
      (twoGranted.channel 0).reservations[1]? = some ⟨1, 40000, 0, false, none⟩ := by
  decide +kernel

theorem test_witness_Protection_get : part.host.working = false := by decide +kernel

theorem test_witness_Channel_set :
    let locked := { part with keys := { part.keys with policyLock := true } }
    let reject := { rawSettings with refillPolicy := 1 }
    (part.host.working = false ∧ locked.host.working = false) ∧ 7 < 8 ∧ (7 : ChannelId).val = 7 ∧
      (locked.keys.policyLock = true ∧ policyOf reject.refillPolicy ≠ some (locked.channel 7).settings.refillPolicy) ∧
      (part.keys.policyLock = false ∧ 1 < { rawSettings with refillPolicy := 2 }.refillPolicy) ∧
      (rawSettings.refillPolicy = 0 ∧ RefillPolicy.warn = (locked.channel 7).settings.refillPolicy) ∧
      (reject.refillPolicy = 1 ∧ part.keys.policyLock ≠ true) := by
  decide +kernel

/-- `part` with slot 0 at 20 per mille, below the default switch level, and slot 1 far above it. -/
def running : State := part.updSlot 0 fun r => { r with committed := 980000000, uncommitted := 3500 }

/-- `s` with channel 0 in SWITCHING to slot 1. -/
def switching (s : State) : State := s.updChannel 0 fun ch => { ch with state := .switching, target := some 1 }

/-- `s` with the second reservation of channel 0 in DRAWING. -/
def drawing (s : State) : State :=
  s.updChannel 0 fun ch => { ch with reservations := [⟨255, 45000, 0, false, none⟩, ⟨1, 40000, 39999, false, none⟩] }

theorem running_due : running.SwitchDue 0 0 1 :=
  ⟨by unfold Channel.paired; decide +kernel, by decide +kernel, by decide +kernel, by decide +kernel⟩

/-- Each setting that acts, changed alone: what CHANNEL_SET takes, and the states in which each clause applies. -/
theorem test_witness_Channel_set_acts :
    let old := (part.channel 0).settings
    let taken (change : RawSettings → RawSettings) : ChannelSettings := takenSettings (change old.given) .warn
    (taken id = old ∧ taken (fun r => { r with inkCode := 2 }) = { old with inkCode := 2 } ∧
        taken (fun r => { r with lowLevel := 600 }) = { old with lowLevel := 600 } ∧
        taken (fun r => { r with commitStep := 1000 }) = { old with commitStep := 1000 } ∧
        taken (fun r => { r with switchLevel := 20 }) = { old with switchLevel := 20 } ∧
        taken (fun r => { r with upperThreshold := 0, lowerThreshold := 0 }) =
          { old with upperThreshold := 0, lowerThreshold := 0 }) ∧
      (part.WrongInk 0 2 0 ∧ (part.channel 0).serving = some 0 ∧ (part.channel 0).paired 0 1 ∧ part.CanServe 1 ∧
        part.WrongInk 0 2 1) ∧
      ((part.slot 0).state.isAdmitted = true ∧ (part.slot 0).channel = some 0 ∧ 0 < (part.slot 0).uncommitted ∧
        1000 ≤ (part.slot 0).uncommitted ∧ (part.slot 15).state.isAdmitted = false) ∧
      ((running.channel 0).state = .supplied ∧ (running.channel 0).serving = some 0 ∧
        0 ∈ (running.channel 0).pairSlots ∧ running.SwitchDue 0 0 1 ∧ ∀ j, ¬part.SwitchDue 0 0 j) ∧
      ((drawing running).channel 0).hasDrawing = true ∧ (running.channel 0).reservations = [] ∧
      ((switching running).channel 0).target = some 1 ∧ (part.channel 7).state = .idle := by
  have wrong : ∀ i : SlotId, i ∈ (part.channel 0).pairSlots → (part.slot i).channel = some 0 →
      (part.slot i).state.isAdmitted = true → (∃ d, (part.slot i).description = some d ∧ d.inkCode ≠ 2) →
        part.WrongInk 0 2 i := fun i h1 h2 h3 h4 => ⟨h1, h2, .inr (.inr h3), h4⟩
  refine ⟨by decide +kernel, ⟨wrong 0 (by decide +kernel) (by decide +kernel) (by decide +kernel) ⟨ink 10, by decide +kernel⟩,
    by decide +kernel, by unfold Channel.paired; decide +kernel, by unfold State.CanServe; decide +kernel,
    wrong 1 (by decide +kernel) (by decide +kernel) (by decide +kernel) ⟨ink 11, by decide +kernel⟩⟩, by decide +kernel,
    ⟨by decide +kernel, by decide +kernel, by decide +kernel, running_due, fun j h => ?_⟩, by decide +kernel,
    by decide +kernel, by decide +kernel, by decide +kernel⟩
  exact absurd h.low (by decide +kernel)

theorem test_witness_Channel_enable :
    let poor := idlePart.updSlot 0 fun r => { r with committed := 1000000000, uncommitted := 0 }
    let poor := poor.updSlot 1 fun r => { r with state := .spent }
    (part.host.working = false ∧ idlePart.host.working = false ∧ poor.host.working = false) ∧ 7 < 8 ∧
      (part.channel 0).state ≠ .idle ∧ (idlePart.channel 0).state = .idle ∧ (idlePart.channel 7).state = .idle ∧
      ((poor.channel 0).state = .idle ∧
        ∀ i ∈ (poor.channel 0).pairSlots, (poor.slot i).state ≠ .ready ∨ (poor.slot i).remaining = 0) ∧
      ∃ i ∈ (idlePart.channel 0).pairSlots, (idlePart.slot i).state = .ready ∧ 0 < (idlePart.slot i).remaining := by
  decide +kernel

theorem test_witness_Channel_enable_selects :
    let low := (running.updSlot 0 fun r => { r with state := .ready }).updChannel 0 fun ch =>
      { ch with state := .idle, serving := none, permit := false }
    ((idlePart.channel 0).state = .idle ∧ (idlePart.channel 0).pairSlots = [] ++ 0 :: [1] ∧ idlePart.CanServe 0 ∧
        ∀ k, ¬idlePart.SwitchDue 0 0 k) ∧
      (low.channel 0).state = .idle ∧ (low.channel 0).pairSlots = [] ++ 0 :: [1] ∧ low.CanServe 0 ∧
        low.SwitchDue 0 0 1 ∧ (low.channel 0).reservations = [] ∧
        ∃ r ∈ ((drawing low).channel 0).reservations, r.isDrawing = true := by
  refine ⟨⟨by decide +kernel, by decide +kernel, by unfold State.CanServe; decide +kernel, fun k h => ?_⟩, by decide +kernel,
    by decide +kernel, by unfold State.CanServe; decide +kernel,
    ⟨by unfold Channel.paired; decide +kernel, by decide +kernel, by decide +kernel, by decide +kernel⟩, by decide +kernel,
    by decide +kernel⟩
  exact absurd h.low (by decide +kernel)

theorem test_witness_Channel_disable :
    let none := part.updChannel 0 fun ch => { ch with state := .unsupplied, serving := none, permit := false }
    (part.host.working = false ∧ twoGranted.host.working = false ∧ none.host.working = false) ∧ 7 < 8 ∧
      (part.channel 7).state = .idle ∧
      ((twoGranted.channel 0).state ≠ .idle ∧ (twoGranted.channel 0).reservations ≠ []) ∧
      ((part.channel 0).state ≠ .idle ∧ (part.channel 0).reservations = [] ∧ (part.channel 0).serving = some 0 ∧
        0 < (part.slot 0).uncommitted) ∧
      (none.channel 0).state ≠ .idle ∧ (none.channel 0).reservations = [] ∧ (none.channel 0).serving = .none := by
  decide +kernel

/-- Slots 6 and 7 are free, slot 6 parked; slot 7 in admission once named. -/
def mapping : State :=
  ((idlePart.updSlot 6 fun r => { r with state := .seating }).updSlot 9 fun r =>
    { r with state := .verifying, channel := some 2, description := some (ink 40) }).updChannel 2 fun ch =>
      { ch with pair := some ⟨9, some 8⟩ }

theorem test_witness_Supply_map_set :
    let bad (c : ChannelId) (p a : Option SlotId) : Bool :=
      p = none ∧ a ≠ none ∨ p ≠ none ∧ p = a ∨
        ∃ i d, (p = some i ∨ a = some i) ∧ d ≠ c ∧ i ∈ (mapping.channel d).pairSlots
    (part.host.working = false ∧ mapping.host.working = false) ∧ (7 < 8 ∧ 15 < 16) ∧
      (some 6 : Option SlotId).map (fun i => i.val) = some 6 ∧ (part.channel 0).state ≠ .idle ∧
      (mapping.channel 2).state = .idle ∧ bad 2 none (some 6) ∧ bad 2 (some 6) (some 6) ∧ bad 2 (some 0) none ∧
      bad 2 (some 6) (some 1) ∧ ¬bad 2 none none ∧ ¬bad 2 (some 8) (some 6) ∧
      (6 ∉ (mapping.channel 2).pairSlots ∧ (mapping.slot 6).state = .seating) ∧
      (9 ∈ (mapping.channel 2).pairSlots ∧ (mapping.slot 9).state.inAdmission = true) ∧
      (8 ∈ (mapping.channel 2).pairSlots ∧ (mapping.slot 8).state.inAdmission = false) ∧
      15 ∉ (mapping.channel 2).pairSlots := by
  decide +kernel

/-- Named slots in READY with another ink, in SPENT with the channel's ink and a due commit, and in REJECTED; and a slot
that leaves in the middle of admission. -/
theorem test_witness_Supply_map_set_named :
    let step := (mapping.channel 2).settings.commitStep
    let s := (((mapping.updSlot 5 fun _ => { seated .ready 50 with channel := none }).updSlot 6 fun _ =>
      { seated .spent 51 with
        channel := none
        description := some { ink 51 with inkCode := 3 }
        uncommitted := step + 1 }).updSlot 7 fun _ => { seated .rejected 52 with channel := none })
    let bad (p a : Option SlotId) : Bool :=
      p = none ∧ a ≠ none ∨ p ≠ none ∧ p = a ∨
        ∃ i d, (p = some i ∨ a = some i) ∧ d ≠ 2 ∧ i ∈ (s.channel d).pairSlots
    (s.host.working = false ∧ (s.channel 2).state = .idle ∧ ¬bad (some 5) (some 6) ∧ ¬bad (some 7) none) ∧
      ((s.slot 5).state = .ready ∧ 5 ∉ (s.channel 2).pairSlots ∧
        (s.slot 5).description.map (fun d => d.inkCode) = some 1 ∧ (s.channel 2).settings.inkCode = 3) ∧
      ((s.slot 6).state = .spent ∧ 6 ∉ (s.channel 2).pairSlots ∧
        (s.slot 6).description.map (fun d => d.inkCode) = some 3 ∧ 0 < (s.slot 6).uncommitted ∧
        (s.channel 2).settings.commitStep ≤ (s.slot 6).uncommitted) ∧
      ((s.slot 7).state = .rejected ∧ 7 ∉ (s.channel 2).pairSlots) ∧
      (9 ∈ (s.channel 2).pairSlots ∧ (s.slot 9).state.inAdmission = true) := by
  decide +kernel

theorem test_witness_Numbers_issued_are_free :
    ((List.range 254).map (· + 1)).length < 255 ∧ 254 ≤ 255 ∧ ([] : List Nat).length < 255 ∧ 255 ≤ 255 ∧
      [2, 255].length < 255 ∧ 0 ≤ 255 := by
  decide +kernel

/-- Channel 0 of `part` with `n` reservations waiting, after `g` granted of 1 nl each. -/
def reserving (g n : Nat) : State :=
  part.updChannel 0 fun ch =>
    { ch with
      reservations :=
        (List.range g).map (fun k => ⟨k + 1, 1, 0, false, none⟩) ++
          (List.range n).map (fun k => ⟨k + 20, 1, 0, false, some ⟨2000, 0⟩⟩) }

theorem test_witness_Reserve :
    let size := (part.channel 0).settings.upperThreshold
    let low := reserving 7 0
    let waits := reserving 0 3
    let unset := part.updChannel 0 fun ch => { ch with settings := { ch.settings with upperThreshold := 0 } }
    let dry := part.updChannel 0 fun ch => { ch with state := .unsupplied, serving := none, permit := false }
    let stalled := part.updChannel 0 fun ch => { ch with stall := true }
    ((part.host.working = false ∧ low.host.working = false ∧ unset.host.working = false) ∧ 7 < 8 ∧ 0 < 1) ∧
      (part.channel 7).state = .idle ∧ ((unset.channel 0).state ≠ .idle ∧ (unset.channel 0).settings.upperThreshold = 0) ∧
      ((part.channel 0).state ≠ .idle ∧ size ≠ 0 ∧ size < size + 1) ∧
      ((low.channel 0).state ≠ .idle ∧ size - 7 ≤ (low.channel 0).settings.upperThreshold ∧
        (low.channel 0).waiting = [] ∧ (low.channel 0).state ≠ .unsupplied ∧ (low.channel 0).stall = false ∧
        (low.channel 0).granted.length < 8 ∧ size - 7 ≤ low.available 0 ∧
        (low.channel 0).outstanding + (size - 7) ≤ (low.channel 0).settings.upperThreshold) ∧
      ((low.channel 0).waiting.length < 4 ∧
        (low.channel 0).settings.upperThreshold < (low.channel 0).outstanding + (size - 6)) ∧
      ((waits.channel 0).waiting.length < 4 ∧ (waits.channel 0).waiting ≠ []) ∧
      ((dry.channel 0).waiting.length < 4 ∧ (dry.channel 0).state = .unsupplied) ∧
      ((stalled.channel 0).waiting.length < 4 ∧ (stalled.channel 0).stall = true) ∧
      (((reserving 8 0).channel 0).waiting.length < 4 ∧ 8 ≤ ((reserving 8 0).channel 0).granted.length) ∧
      4 ≤ ((reserving 0 4).channel 0).waiting.length := by
  decide +kernel

theorem test_witness_Release :
    twoGranted.host.working = false ∧ 7 < 8 ∧ (7 : ChannelId).val = 7 ∧
      (∀ r ∈ (twoGranted.channel 0).reservations, r.id ≠ 254) ∧
      ((twoGranted.channel 0).reservations.find? fun x => x.id = 1) = some ⟨1, 40000, 0, false, none⟩ := by
  decide +kernel

theorem test_witness_Service_draw :
    let dry := part.updChannel 0 fun ch => { ch with state := .unsupplied, serving := none, permit := false }
    (part.host.working = false ∧ dry.host.working = false) ∧ 7 < 8 ∧ (part.channel 7).state = .idle ∧
      ((part.channel 0).state ≠ .idle ∧ 0 < 1 ∧ (part.channel 0).serving = some 0) ∧
      ((dry.channel 0).state ≠ .idle ∧ (dry.channel 0).serving = none) := by
  decide +kernel

/-- A slot emptied by the draw, one that is not, with the planned switch due, not due, and under way. -/
theorem test_witness_Service_draw_slot :
    let nearly := part.updSlot 0 fun r => { r with committed := 999999999, uncommitted := 0 }
    ((nearly.channel 0).serving = some 0 ∧ 0 ∈ (nearly.channel 0).pairSlots ∧ (nearly.slot 0).channel = some 0 ∧
        (nearly.slot 0).state = .serving ∧ 0 < (nearly.slot 0).remaining ∧ (nearly.slot 0).remaining ≤ 1) ∧
      (1 < (part.slot 0).remaining ∧ (part.slot 0).state = .serving ∧ (part.channel 0).state = .supplied) ∧
      (1 < (running.slot 0).remaining ∧ (running.channel 0).state = .supplied ∧ running.SwitchDue 0 0 1) ∧
      1 < ((switching part).slot 0).remaining ∧ ((switching part).channel 0).state = .switching ∧
        ((switching part).channel 0).target = some 1 :=
  ⟨by decide +kernel, by decide +kernel, ⟨by decide +kernel, by decide +kernel, running_due⟩, by decide +kernel⟩

theorem test_witness_Commit_now :
    let sent := part.updCommit 0 fun _ => ⟨some ⟨.sent, 3000, 412003000, 1⟩, .clear, 0, none⟩
    let waits := part.updCommit 0 fun _ => ⟨some ⟨.waiting, 3000, 412003000, 1⟩, .clear, 0, none⟩
    let even := part.updCommit 0 fun _ => ⟨some ⟨.checking, 3500, 412003500, 1⟩, .clear, 0, none⟩
    let zero := part.updSlot 0 fun r => { r with uncommitted := 0 }
    let one := part.updSlot 0 fun r => { r with uncommitted := 1 }
    (part.host.working = false ∧ sent.host.working = false) ∧ 15 < 16 ∧ (part.slot 15).state.isAdmitted = false ∧
      ((zero.slot 0).state.isAdmitted = true ∧ (zero.slot 0).uncommitted = 0) ∧
      ((one.slot 0).state.isAdmitted = true ∧ 0 < (one.slot 0).uncommitted ∧ (one.commit 0).flight = none) ∧
      ((sent.slot 0).state.isAdmitted = true ∧ 0 < (sent.slot 0).uncommitted ∧
        ((sent.commit 0).flight.map fun f => f.phase) = some .sent) ∧
      ((waits.slot 0).state.isAdmitted = true ∧ 0 < (waits.slot 0).uncommitted ∧
        (waits.commit 0).flight = some ⟨.waiting, 3000, 412003000, 1⟩) ∧
      (even.slot 0).uncommitted = 3500 ∧ ((even.commit 0).flight.map fun f => f.phase) = some .checking := by
  decide +kernel

theorem test_witness_Schedules :
    let three := tableB.map fun n => if n = 2 then 3 else n
    (plain.host.working = false ∧ 1 < 2 ∧ 3 < (tableB.set 15 4)[15]) ∧
      ((∃ n < 4, ∀ k : Fin 16, three[k.val] ≠ n) ∧ (∀ k : Fin 16, tableB[k.val] ≤ 3) ∧
        ∀ n < 4, ∃ k : Fin 16, tableB[k.val] = n) ∧
      plain.bus.requested = .a ∧ (∃ l, (plain.lane l).inUse = .a) ∧ plain.bus.requested ≠ .b ∧
      (∀ l, (plain.lane l).inUse ≠ .b) ∧
      { plain.bus with requested := .b }.requested ≠ .a ∧ (plain.lane 0).queue = [] := by
  decide +kernel

/-- Lane 1 with a queue, a wheel position and the requested table. -/
def choosing (queue : List LaneEntry) (wheel : Fin 16) (requested : TableId) (powerWarn : Bool) : State :=
  { plain.updLane 1 fun lane => { lane with queue := queue, wheel := wheel } with
    bus := { (plain.updLane 1 fun lane => { lane with queue := queue, wheel := wheel }).bus with
      tableB := phaseTable tableB
      requested := requested }
    pins := { plain.pins with powerWarn := powerWarn } }

/-- The entry a lane takes: Table 2-8's step 5, which wraps into table B; the oldest COMMIT entry in urgent mode; and a
PASS entry of a slot that is not admitted. Both tables name every class. -/
theorem test_witness_Schedules_entry :
    let read (i : SlotId) : LaneEntry := ⟨i, .memRead 64 1, some 17⟩
    let wrap := choosing [read 6, read 5, ⟨4, .challenge 0, none⟩] 15 .b false
    let urgent := choosing [read 6, ⟨5, .odoAdvance 1 1 1, none⟩, ⟨4, .odoAdvance 2 1 1, none⟩] 7 .b true
    let pass := choosing [read 6] 15 .a false
    (wrap.Chosen 1 [read 6, read 5] ⟨4, .challenge 0, none⟩ [] 2 .b ∧ LaneEntry.laneClass ⟨4, .challenge 0, none⟩ ≠ .pass) ∧
      urgent.Chosen 1 [read 6] ⟨5, .odoAdvance 1 1 1, none⟩ [⟨4, .odoAdvance 2 1 1, none⟩] 7 .a ∧
      (pass.Chosen 1 [] (read 6) [] 3 .a ∧ (read 6).laneClass = .pass ∧ (pass.slot 6).state.isAdmitted = false ∧
        (read 6).ticket = some 17) ∧
      (wrap.lane 1).queue ≠ [] ∧ tableLawful wrap.bus.tableA ∧ tableLawful wrap.bus.tableB := by
  refine ⟨⟨⟨by decide +kernel, by decide +kernel, fun h => ?_, fun _ => ⟨2, by decide +kernel⟩⟩, by decide⟩,
    ⟨by decide +kernel, by decide +kernel, fun _ _ => by decide +kernel, fun h => ?_⟩,
    ⟨⟨by decide +kernel, by decide +kernel, fun h => ?_, fun _ => ⟨3, by decide +kernel⟩⟩, by decide +kernel⟩,
    by decide +kernel, ?_, ?_⟩
  · exact absurd h (by decide +kernel)
  · exact absurd h (by decide +kernel)
  · exact absurd h (by decide +kernel)
  · intro k; cases k <;> decide +kernel
  · intro k; cases k <;> decide +kernel

theorem test_witness_Window_set :
    let locked := { plain with keys := { plain.keys with policyLock := true } }
    let again := { locked with bus := { locked.bus with protection := ⟨65535, some (.locked 0x13)⟩ } }
    (plain.host.working = false ∧ locked.host.working = false ∧ again.host.working = false) ∧ 3 < 4 ∧ 3 ≤ 3 ∧
      (locked.keys.policyLock = true ∧ locked.bus.protection.count = 0) ∧
      (again.keys.policyLock = true ∧ 0 < again.bus.protection.count) ∧
      (3 : Fin 4).val = 3 ∧ plain.keys.policyLock = false := by
  decide +kernel

/-- `openPart` with four PASS entries queued on lane 0, behind a transaction. -/
def passFull (n : Nat) : State :=
  (waitingFor openPart 0 .describe).updLane 0 fun lane =>
    { lane with queue := List.replicate n ⟨0, .memRead 64 1, some 9⟩ }

theorem test_witness_Tag_access :
    let c := Instr.tagRead 7 (.fields ⟨0, 64, 16⟩)
    let w := Instr.tagWrite 7 (.fields ⟨0, 64, [1]⟩)
    let none := { part with bus := { part.bus with windows := Vector.replicate 4 ⟨255, 255, false, false⟩ } }
    (openPart.host.working = false ∧ (passFull 4).host.working = false ∧ none.host.working = false) ∧
      (c = .tagRead 7 (.fields ⟨0, 64, 16⟩) ∧ ∃ data : List Byte, data.length = 1 ∧ w = .tagWrite 7 (.fields ⟨0, 64, data⟩)) ∧
      (15 < 16 ∧ 16 < 17 ∧ 0 < 1 ∧ 16 ≤ 16) ∧ (openPart.slot 15).state.isAdmitted = false ∧
      ((none.slot 0).state.isAdmitted = true ∧
        ∀ w ∈ none.bus.windows.toList, 64 < w.low ∨ w.high < 64 + 1 - 1 ∨ w.readEnable = false) ∧
      (openPart.slot 0).state.isAdmitted = true ∧
      (∃ w ∈ openPart.bus.windows.toList, w.low ≤ 64 ∧ 64 + 16 - 1 ≤ w.high ∧ w.readEnable = true) ∧
      4 ≤ (passFull 4).passQueued (laneOf 0) ∧
      ((passFull 3).passQueued (laneOf 0) < 4 ∧ ((passFull 3).lane (laneOf 0)).state ≠ .idle) ∧
      (openPart.lane (laneOf 0)).state = .idle ∧ (openPart.lane (laneOf 0)).queue = [] ∧
      tableLawful openPart.bus.tableA ∧ tableLawful openPart.bus.tableB := by
  have table : tableLawful defaultTable := by intro k; cases k <;> decide
  refine ⟨by decide +kernel, ⟨rfl, [1], rfl, rfl⟩, by decide +kernel, by decide +kernel, by decide +kernel,
    by decide +kernel, by decide +kernel, by decide +kernel, by decide +kernel, by decide +kernel, by decide +kernel,
    table, table⟩

/-- `part` with requests queued for the slots of a list. -/
def injecting (l : List SlotId) : State :=
  { part with sense := { part.sense with injected := l.map fun i => ⟨i, ⟨true, false⟩, 0⟩ } }

theorem test_witness_Sense :
    let s := injecting [1, 0, 2]
    (s.host.working = false ∧ part.host.working = false ∧ 15 < 16 ∧ (0 : SlotId).val = 0) ∧
      (part.slot 15).state = .vacant ∧
      ((s.slot 0).state ≠ .vacant ∧
        s.sense.injected = [⟨1, ⟨true, false⟩, 0⟩] ++ ⟨0, ⟨true, false⟩, 0⟩ :: [⟨2, ⟨true, false⟩, 0⟩] ∧
        (∀ x ∈ [(⟨1, ⟨true, false⟩, 0⟩ : Injected)], x.slot ≠ 0)) ∧
      ((∀ q ∈ (injecting [1, 2, 3, 4, 5, 6, 7]).sense.injected, q.slot ≠ 0) ∧
        (injecting [1, 2, 3, 4, 5, 6, 7]).sense.injected.length < 8) ∧
      (∀ q ∈ (injecting [1, 2, 3, 4, 5, 6, 7, 8]).sense.injected, q.slot ≠ 0) ∧
      8 ≤ (injecting [1, 2, 3, 4, 5, 6, 7, 8]).sense.injected.length := by
  decide +kernel

theorem test_witness_Scan_set :
    let halted := { plain with sense := { plain.sense with scan := .halted } }
    let empty := { plain with sense := { plain.sense with list := [], scan := .pausing } }
    (plain.host.working = false ∧ 24 < (List.replicate 25 0).length) ∧
      ((15 < 16 ∧ 16 ≠ 17) ∧ 15 < 18 ∧ 18 ≠ 17) ∧
      (List.replicate 23 15 ++ [17] = (List.replicate 23 (.slot 15) ++ [.reference] : List Source).map (fun x => x.number) ∧
        (List.replicate 23 (.slot 15) ++ [.reference] : List Source).length ≤ 24) ∧
      halted.sense.scan = .halted ∧ (plain.sense.scan ≠ .halted ∧ plain.sense.list ≠ []) ∧
      empty.sense.scan ≠ .halted ∧ empty.sense.list = [] := by
  decide +kernel

theorem test_witness_Sensor_cal :
    plain.host.working = false ∧ 15 < 16 ∧ (15 : SlotId).val = 15 := by
  decide +kernel

theorem test_witness_History_clear :
    let s := { part with history := { part.history with places := part.history.places.set 63 (some (entry 77)) } }
    let locked := { part with keys := { part.keys with policyLock := true } }
    (s.host.working = false ∧ locked.host.working = false) ∧ 63 < 64 ∧
      (HistoryName.badSelector ≠ .index 64 ∧ HistoryName.serial 77 ≠ .index 64) ∧ locked.keys.policyLock = true ∧
      s.keys.policyLock = false ∧ (s.place 0 = none ∧ HistoryName.index 0 = .index (0 : PlaceId).val) ∧
      s.findEntry 99 = none ∧
      (s.place 63 = some (entry 77) ∧ HistoryName.index 63 = .index (63 : PlaceId).val ∧ s.findEntry 77 = some 63) ∧
      (s.place 21 = some (entry 10) ∧ (s.slot 0).state ≠ .vacant ∧
        (s.slot 0).description = some (ink 10) ∧ (ink 10).serial = (entry 10).serial) ∧
      ∀ i, (s.slot i).state ≠ .vacant → ((s.slot i).description.map fun d => d.serial == (entry 77).serial) ≠ some true := by
  decide +kernel

theorem test_witness_Key_requests :
    let waits := plain.updSlot 15 fun r => { r with state := .rejected, rejectReason := some .authUnavailable }
    let writing := { plain with keys := ⟨.provisioned 5, .blank, some 5, false⟩ }
    (plain.host.working = false ∧ part.host.working = false) ∧ ((0 : Word128) = 0) ∧
      ((1 : Word128) ≠ 0 ∧ (1 : Word128) ≠ BitVec.allOnes 128) ∧ part.keys.state ≠ .unprovisioned ∧
      (waits.keys.state = .unprovisioned ∧ (waits.slot 15).state = .rejected ∧
        (waits.slot 15).rejectReason = some .authUnavailable) ∧
      (waits.slot 0).state ≠ .rejected ∧ writing.keys.writing = some 5 ∧ plain.keys.writing = none := by
  decide +kernel

/-- `plain` with `n` notices queued. -/
def noticed (n : Nat) : State :=
  { plain with notices := { plain.notices with
      queue := (List.range n).map fun k => ⟨BitVec.ofNat 16 k, .settingsDefaulted⟩, attn := true } }

theorem test_witness_Notice_raised :
    let masked := { plain with notices := { plain.notices with mask := 0 } }
    masked.notices.mask.getLsbD (Notice.powerPreserved 0).maskBit = false ∧
      ((noticed 31).notices.mask.getLsbD (Notice.powerPreserved 0).maskBit = true ∧
        (noticed 31).notices.queue.length < 32) ∧
      (noticed 32).notices.mask.getLsbD (Notice.powerPreserved 0).maskBit = true ∧
      32 ≤ (noticed 32).notices.queue.length := by
  decide +kernel

theorem test_witness_Notice_requests : (noticed 9).host.working = false ∧ 17 < 18 := by decide +kernel

theorem test_witness_Settings_save :
    let first := { plain with store := ⟨#v[some ⟨4294967294, defaultImage⟩, none], some 0, none⟩ }
    let last := { plain with store := ⟨#v[none, some ⟨4294967295, defaultImage⟩], some 1, none⟩ }
    let saving := after (.settingsSave 7 (.fields ())) plain
    (plain.host.working = false ∧ plain.store.inForce = none ∧ plain.store.saving = none) ∧
      (first.store.inForce = some 0 ∧ (first.store.copies[0].map fun c => c.saveCount) = some 4294967294 ∧
        4294967294 < 4294967295) ∧
      (last.store.inForce = some 1 ∧ (last.store.copies[1].map fun c => c.saveCount) = some 4294967295) ∧
      saving.store.saving.isSome = true := by
  decide +kernel

theorem test_witness_Reset_request :
    let s := { part with history := { part.history with urgent := [63], ordinary := [21] } }
    s.host.working = false ∧ 63 ∈ s.history.urgent ∧ 21 ∈ s.history.ordinary ∧ ((s.slot 0).isReconciled = true ∧
      s.entryOf 0 = some 21 ∧ s.place 21 = some (entry 10) ∧
      ∀ j, j ≠ 0 → (s.slot j).isReconciled = true → s.entryOf j ≠ some 21) ∧
      ∀ i, (s.slot i).isReconciled = true → s.entryOf i ≠ some 63 := by
  decide +kernel

theorem test_witness_History_write_done :
    let write (r : Option Round) (forRound : Bool) : State := { part with history := { part.history with
      writing := some ⟨63, none, forRound, false⟩, round := r } }
    part.history.writing = none ∧ ((write none true).history.writing = some ⟨63, none, true, false⟩ ∧
      (write none true).history.round = none) ∧ (write (some ⟨[0], 1⟩) false).history.writing = some ⟨63, none, false, false⟩ ∧
      ((write (some ⟨[63], 1⟩) true).history.round = some ⟨[63], 1⟩ ∧ [(63 : PlaceId)].erase 63 = []) ∧
      (write (some ⟨[63, 0], 2⟩) true).history.round = some ⟨[63, 0], 2⟩ ∧ [(63 : PlaceId), 0].erase 63 ≠ [] := by
  decide +kernel

/-- `part` with head 2 at an expected number, or awaiting a restart. -/
def heading (e : Option Nat) : State :=
  part.updTally fun t => { t with heads := t.heads.set 2 ⟨e, 0, 0, 0, 0, 0⟩ }

/-- The bytes of a frame of head 2 with one entry of channel 6. -/
def headFrame (flags sequence : Byte) : List Byte :=
  let body : List Byte := [2, flags, sequence, 1, 6, 0, 1, 0, 0, 0, 0, 90]
  body ++ crc16Bytes body

theorem test_witness_Tally_sequence :
    let reads (flags sequence : Byte) (restart : Bool) (n : Nat) : Bool :=
      readTallyFrame 112 (gatherBytes 70 (bitsOf (headFrame flags sequence))) = some ⟨2, restart, n, [⟨6, 1, 0, 0, 90⟩]⟩
    let expects (e : Option Nat) : Bool :=
      (heading e).tally.skippingPartial = false ∧ (heading e).tally.waiting = [] ∧
        (heading e).tally.heads[2] = ⟨e, 0, 0, 0, 0, 0⟩
    (bitsOf (headFrame 0 0)).length = 112 ∧ bitsOf (headFrame 0 0) ≠ [] ∧
      (reads 0 255 false 255 = true ∧ expects (some 255) = true) ∧ (reads 0 0 false 0 = true ∧ expects (some 0) = true) ∧
      (reads 0 254 false 254 = true ∧ 254 = (if 255 = 0 then 255 else 255 - 1)) ∧
      255 = (if 0 = 0 then 255 else 0 - 1) ∧ (reads 0x80 0 true 0 = true ∧ expects none = true) ∧
      (expects (some 1) = true ∧ 255 ≠ 1 ∧ 255 ≠ (if 1 = 0 then 255 else 1 - 1)) ∧
      (expects (some 254) = true ∧ 255 ≠ 254 ∧ 255 ≠ (if 254 = 0 then 255 else 254 - 1)) := by
  decide +kernel

theorem test_witness_Tally_discards :
    let skipping := part.updTally fun t => { t with skippingPartial := true }
    let waits := part.updTally fun t => { t with waiting := [⟨6, 1, 0, 0, 90⟩, ⟨0, 1, 0, 0, 90⟩] }
    skipping.tally.skippingPartial = true ∧ part.tally.skippingPartial = false ∧ part.tally.waiting = [] ∧
      (readTallyFrame 111 (gatherBytes 70 ((bitsOf (headFrame 0 0)).take 111)) = none ∧
        ((bitsOf (headFrame 0 0)).take 111).length = 111) ∧
      waits.tally.waiting = ⟨6, 1, 0, 0, 90⟩ :: [⟨0, 1, 0, 0, 90⟩] ∧ (part.channel 6).state = .idle ∧
      (part.channel 0).state ≠ .idle := by
  decide +kernel

/-- The largest frame, of eight entries with the largest fields, and one of one entry; and each ground of refusal. -/
theorem test_witness_Tally_discards_acceptance :
    let e : TallyEntry := ⟨7, 65535, 65535, 65535, 255⟩
    let bytes (n : Nat) : List Byte :=
      [3, 0xFF, 0, BitVec.ofNat 8 n] ++ (List.replicate n [7, 0xFF, 0xFF, 0xFF, 0xFF, 0xFF, 0xFF, 0xFF]).flatten
    let spelled (entries : List TallyEntry) : List Byte :=
      [BitVec.ofNat 8 (3 : Fin 4).val, 0xFF, 0, BitVec.ofNat 8 entries.length] ++ entries.flatMap (fun e =>
        [BitVec.ofNat 8 e.channel.val, BitVec.ofNat 8 (e.small / 256), BitVec.ofNat 8 e.small,
          BitVec.ofNat 8 (e.medium / 256), BitVec.ofNat 8 e.medium, BitVec.ofNat 8 (e.large / 256),
          BitVec.ofNat 8 e.large, BitVec.ofNat 8 e.temperature])
    let crc (b : List Byte) : List Byte := [(crc16 b).extractLsb' 8 8, (crc16 b).extractLsb' 0 8]
    (e.small < 65536 ∧ e.medium < 65536 ∧ e.large < 65536 ∧ e.temperature < 256) ∧
      (spelled [e] = bytes 1 ∧ spelled (List.replicate 8 e) = bytes 8) ∧
      ((crc16 (bytes 8)).extractLsb' 8 8 ++ (crc16 (bytes 8)).extractLsb' 0 8 = crc16 (bytes 8) ∧
        (0 : Byte) ++ (0 : Byte) ≠ crc16 (bytes 1)) ∧
      readTallyFrame 560 (bytes 8 ++ crc (bytes 8)) = some ⟨3, true, 0, List.replicate 8 e⟩ ∧
      ([3, 0, 0].length < 4 ∧ 559 ≠ 8 * (bytes 8 ++ crc (bytes 8)).length) ∧
      ((0 : Byte).toNat = 0 ∧ 8 < (9 : Byte).toNat ∧ [1, 2].length ≠ 8 * (1 : Byte).toNat + 2 ∧ 3 < (4 : Byte).toNat) ∧
      ([7, 0, 0, 0, 0, 0, 0, 0, 8, 0, 0] : List Byte)[8 * 1]? = some 8 ∧ 7 < (8 : Byte).toNat := by
  decide +kernel

/-- The largest operands; no drop; a charge of 0. -/
theorem test_witness_Entry_arithmetic :
    let s := part.updChannel 0 fun ch => { ch with
      settings := { ch.settings with weightSmall := 65535, weightMedium := 65535, weightLarge := 65535, beta := 127 }
      volume := { ch.volume with residue := 32767, accumulator := 999999 } }
    let e : TallyEntry := ⟨0, 65535, 65535, 65535, 254⟩
    let ch := s.channel 0
    let S := 12884508675
    let P := S * 49152 + 32767
    (ch = s.channel e.channel ∧
      S = e.small * ch.settings.weightSmall + e.medium * ch.settings.weightMedium + e.large * ch.settings.weightLarge ∧
      ((49152 : Nat) : Int) = (if e.temperature = 255 then 32768
        else max 16384 (min 49152 (32768 + ch.settings.beta * ((e.temperature : Int) - ch.settings.referenceCode)))) ∧
      P = S * 49152 + ch.volume.residue ∧ P / 32768 = 19326763013 ∧
      (e.small ≤ 65535 ∧ e.medium ≤ 65535 ∧ e.large ≤ 65535 ∧ ch.settings.weightSmall ≤ 65535 ∧
        ch.settings.weightMedium ≤ 65535 ∧ ch.settings.weightLarge ≤ 65535 ∧ ch.volume.residue < 32768 ∧
        ch.volume.accumulator < 1000000)) ∧
      (let zero : TallyEntry := ⟨0, 0, 0, 0, 255⟩
       0 = zero.small * ch.settings.weightSmall + zero.medium * ch.settings.weightMedium +
          zero.large * ch.settings.weightLarge ∧ ch.volume.residue < 32768 ∧ ch.volume.accumulator < 1000000) ∧
      (999999 + (0 * 32768 + 32767) / 32768) / 1000000 = 0 ∧ 0 < (999999 + P / 32768) / 1000000 := by
  decide +kernel

/-- Frames of slot 6 (lane address 2): each kind, answered and refused, of the longest data and of none. -/
theorem test_witness_Reply_frames_are_read :
    (List.replicate 255 (0 : Byte)).length ≤ 255 ∧ ([] : List Byte).length ≤ 255 ∧
      ((2 : Byte).toNat = (6 : SlotId).val % 4 ∧ (3 : Byte).toNat ≠ (6 : SlotId).val % 4 ∧
        (1 : Byte) = TagCommand.describe.code ∧ (2 : Byte) ≠ TagCommand.describe.code) ∧
      (4 < (5 : Byte).toNat ∧ 1 ≤ (1 : Byte).toNat ∧ [7].length ≠ (if (1 : Byte) = 3 then 1 else 0)) ∧
      (∃ m, TagCommand.mark .spent = .mark m) ∧ (∃ a b, TagCommand.memWrite 64 [1] = .memWrite a b) ∧
      (∃ v g n, TagCommand.odoAdvance 1 2 3 = .odoAdvance v g n) ∧ (∃ n, TagCommand.challenge 9 = .challenge n) ∧
      ((∀ m, TagCommand.describe ≠ .mark m) ∧ (∀ a b, TagCommand.describe ≠ .memWrite a b) ∧
        ∀ v g n, TagCommand.describe ≠ .odoAdvance v g n) ∧
      (TagCommand.memRead 240 16 = .memRead 240 (List.replicate 16 (0 : Byte)).length ∧ [0].length ≠ 16) ∧
      (0 : Byte) ≠ crc8 [2, 1, 2, 0] ∧ crc8 [2, 1, 2, 0] = crc8 [2, 1, 2, 0] :=
  ⟨by decide +kernel, by decide, by decide +kernel, by decide, ⟨_, rfl⟩, ⟨_, _, rfl⟩, ⟨_, _, _, rfl⟩, ⟨_, rfl⟩,
    ⟨nofun, nofun, nofun⟩, ⟨rfl, by decide⟩, by decide +kernel, rfl⟩

/-- Table 11-9's data, bytes written from it: 8 of an answer, 22 of a description in each tag state, and a tag state
above 2. -/
theorem test_witness_Reply_frames_are_read_data :
    let d (state mark : Byte) : List Byte :=
      [0, 0, 0, 0, 0, 0, 1, 10, 1, 0x3B, 0x9A, 0xCA, 0, 2, state, mark, 0x18, 0x8E, 0x9F, 0, 1, 7]
    let read (state mark : Byte) : ReplyReading := readReply ⟨6, .describe, none⟩ (tagFrame 6 1 0 (d state mark))
    let is (tag : TagState) (mark : Bool) : ReplyReading := .usable (.description
      { ink 266 with tagState := tag, refillMark := mark, makerLot := 263 })
    (read 0 0 = is .fresh false ∧ read 1 1 = is .inUse true ∧ read 2 255 = is .spent true ∧
        read 3 0 = .failedAttempt) ∧
      readReply ⟨6, .challenge 9, none⟩ (tagFrame 6 2 0 [1, 0, 0, 0, 0, 0, 0, 9]) =
        .usable (.answer 0x0100000000000009) := by
  decide +kernel

/-- Slot 6's DESCRIBE on the wire. -/
def describing : State := waitingFor (admitting .reading) 6 .describe

/-- A description frame of slot 6: serial, ink code. -/
def described (serial code : Byte) : List Byte :=
  tagFrame 6 1 0 [0, 0, 0, 0, 0, 0, 0, serial, code, 0x3B, 0x9A, 0xCA, 0, 2, 1, 0, 0x18, 0x8E, 0x9F, 0, 0, 7]

theorem test_witness_Description_is_checked :
    let e : LaneEntry := ⟨6, .describe, none⟩
    let read (serial code : Byte) (d : Description) : Bool :=
      readReply e (described serial code) = .usable (.description d)
    let barredState := { describing with history := { describing.history with
      places := describing.history.places.set 30 (some { entry 88 with barred := true }) } }
    let blank := { describing with keys := plain.keys }
    ((describing.lane 1).state = .onWire ⟨e, 0, 0, .replyWait, false⟩ ∧ (describing.slot 6).state = .reading) ∧
      (read 99 0 { ink 99 with inkCode := 0 } = true ∧ read 99 255 { ink 99 with inkCode := 255 } = true) ∧
      (read 10 4 { ink 10 with inkCode := 4 } = true ∧ (describing.slot 0).state ≠ .vacant ∧
        (describing.slot 0).description = some (ink 10) ∧ (ink 10).serial = 10) ∧
      (read 99 3 { ink 99 with inkCode := 3 } = true ∧ (describing.slot 6).channel = some 3 ∧
        3 ≠ (describing.channel 3).settings.inkCode) ∧
      (read 88 4 { ink 88 with inkCode := 4 } = true ∧ barredState.findEntry 88 = some 30 ∧
        (barredState.place 30).map (fun e => e.barred) = some true) ∧
      (read 99 4 { ink 99 with inkCode := 4 } = true ∧ describing.findEntry 99 = none ∧
        describing.keys.state = .provisioned 5) ∧
      blank.keys.state = .unprovisioned := by
  decide +kernel

/-- Slot 6's transaction on lane 1, with its attempts and BUSY replies used. -/
def trying (state : SlotState) (x : Transaction) : State :=
  (admitting state).updLane 1 fun lane => { lane with state := .onWire x }

theorem test_witness_Lane_attempts :
    let x : Transaction := ⟨⟨6, .describe, none⟩, 1, 7, .replyWait, false⟩
    let y : Transaction := ⟨⟨6, .challenge 9, none⟩, 2, 8, .replyWait, false⟩
    let z : Transaction := ⟨⟨6, .describe, none⟩, 2, 8, .busyHoldOff, false⟩
    ((trying .reading x).lane 1).state = .onWire x ∧ x.phase = .replyWait ∧
      (∃ c, c = Instr.replyTimeout 1 ∨ ∃ frame, c = .laneReply 1 frame ∧ readReply x.entry frame = .failedAttempt) ∧
      readReply x.entry [0] = .failedAttempt ∧ x.failedAttempts < 2 ∧
      (2 ≤ { x with failedAttempts := 2 }.failedAttempts ∧ ((trying .reading x).slot 6).state = .reading) ∧
      (((trying .verifying y).lane 1).state = .onWire y ∧ 2 ≤ y.failedAttempts ∧ y.abandoned = false ∧
        (∃ nonce, y.entry.command = .challenge nonce) ∧ ((trying .verifying y).slot 6).state = .verifying) ∧
      (readReply x.entry (tagFrame 6 1 2 []) = .busy ∧ x.busyReplies < 8) ∧
      (((trying .reading z).lane 1).state = .onWire z ∧ z.phase = .busyHoldOff) ∧
      (part.lane 1).state = .idle := by
  refine ⟨rfl, rfl, ⟨_, .inl rfl⟩, by decide +kernel, by decide, by decide +kernel, ⟨rfl, by decide, rfl, ⟨_, rfl⟩, rfl⟩,
    by decide +kernel, ⟨rfl, rfl⟩, by decide +kernel⟩

/-- Slot 0's transaction on lane 0, with its attempts and BUSY replies used. -/
def tried (command : TagCommand) (ticket : Option Nat) (attempts busy : Nat) : State :=
  (part.updCommit 0 fun _ => ⟨some ⟨.sent, 3500, 412003500, 1⟩, .clear, 2, none⟩).updLane 0 fun lane =>
    { lane with state := .onWire ⟨⟨0, command, ticket⟩, attempts, busy, .replyWait, false⟩ }

/-- How a transaction ends, for each command: the third failed attempt, the ninth BUSY, an ERROR, and each answer. -/
theorem test_witness_Lane_attempts_ends :
    let odo : TagCommand := .odoAdvance 412003500 2 1
    let on (command : TagCommand) (ticket : Option Nat) : Transaction := ⟨⟨0, command, ticket⟩, 2, 8, .replyWait, false⟩
    let reads (command : TagCommand) (code kind : Byte) (data : List Byte) (r : UsableReply) : Bool :=
      readReply ⟨0, command, none⟩ (tagFrame 0 code kind data) = .usable r
    (((tried odo none 2 8).lane 0).state = .onWire (on odo none) ∧ laneOf 0 = 0 ∧
        ((tried odo none 2 8).commit 0).flight = some ⟨.sent, 3500, 412003500, 1⟩ ∧
        ((tried odo none 2 8).slot 0).state.isAdmitted = true ∧ 2 ≤ ((tried odo none 2 8).commit 0).failures) ∧
      (readReply ⟨0, odo, none⟩ [0] = .failedAttempt ∧ readReply ⟨0, odo, none⟩ (tagFrame 0 3 2 []) = .busy ∧
        readReply ⟨0, odo, none⟩ (tagFrame 0 3 3 [5]) = .error 5) ∧
      (reads odo 3 4 [] .refusedDecrease = true ∧ reads (.mark .refill) 4 1 [] .ack = true ∧
        reads (.memRead 64 1) 5 0 [7] (.data [7]) = true ∧ reads (.memWrite 64 [7]) 6 1 [] .ack = true) ∧
      ((tried (.mark .refill) none 2 8).lane 0).state = .onWire (on (.mark .refill) none) ∧
      ((tried (.memRead 64 1) (some 9) 2 8).lane 0).state = .onWire (on (.memRead 64 1) (some 9)) ∧
      ((tried (.memWrite 64 [7]) (some 9) 2 8).lane 0).state = .onWire (on (.memWrite 64 [7]) (some 9)) := by
  decide +kernel

/-- An answer and a receipt: with 7 jobs queued, the engine idle or running, and with 8; a commit that fails on a serving
slot; an abandoned transaction. -/
theorem test_witness_Lane_attempts_jobs :
    let odo : TagCommand := .odoAdvance 412003500 2 1
    let eight : List Byte := [0, 0, 0, 0, 0, 0, 0, 9]
    let queued (n : Nat) (running : Bool) : State := (tried odo none 2 8).updEngine fun _ =>
      ⟨if running then some ⟨receiptJob 0, false⟩ else none, List.replicate n (receiptJob 0), []⟩
    let s := queued 7 true
    let gone := (tried odo none 2 8).updLane 0 fun lane =>
      { lane with state := .onWire ⟨⟨0, .challenge 1, none⟩, 0, 0, .replyWait, true⟩ }
    ((s.lane 0).state = .onWire ⟨⟨0, odo, none⟩, 2, 8, .replyWait, false⟩ ∧ laneOf 0 = 0 ∧
        readReply ⟨0, odo, none⟩ (tagFrame 0 3 0 eight) = .usable (.answer 9) ∧
        readReply ⟨0, .challenge 1, none⟩ (tagFrame 0 2 0 eight) = .usable (.answer 9) ∧
        (s.slot 0).description = some (ink 10)) ∧
      (s.engine.queue.length < 8 ∧ s.engine.running.isSome = true ∧ (queued 0 false).engine.running = none ∧
        8 ≤ (queued 8 true).engine.queue.length) ∧
      (LaneEntry.laneClass ⟨0, odo, none⟩ = .commit ∧ (s.commit 0).flight = some ⟨.sent, 3500, 412003500, 1⟩ ∧
        (s.lane 0).queue = []) ∧
      ((s.slot 0).channel = some 0 ∧ (s.channel 0).serving = some 0 ∧ 0 ∈ (s.channel 0).pairSlots) ∧
      (gone.lane 0).state = .onWire ⟨⟨0, .challenge 1, none⟩, 0, 0, .replyWait, true⟩ := by
  decide +kernel

theorem test_witness_Receipt_is_checked :
    let faulted := (checkingReceipt 1).updSlot 0 fun r => { r with state := .faulted }
    let digest := Config.tagDigest (Config.cartridgeKey 5 10 7) [10, 412500750, 1]
    part.engine.running = none ∧ (∀ off, (checkingReceipt off).engine.running = some ⟨receiptJob off, false⟩) ∧
      (∀ off, (receiptJob off).work = .verifyReceipt 412500750) ∧ (∀ off, (receiptJob off).slot = 0) ∧
      ((checkingReceipt 0).commit 0).flight = some ⟨.checking, 500750, 412500750, 1⟩ ∧
      (checkingReceipt 0).keys.state = .provisioned 5 ∧
      (digest = (receiptJob 0).tagValue ∧ digest ≠ (receiptJob 1).tagValue) ∧
      ((checkingReceipt 0).entryOf 0 = some 21 ∧ (checkingReceipt 0).place 21 = some (entry 10)) ∧
      (((checkingReceipt 1).slot 0).state.isAdmitted = true ∧ ((checkingReceipt 1).slot 0).channel = some 0 ∧
        ((checkingReceipt 1).channel 0).serving = some 0 ∧ 0 ∈ ((checkingReceipt 1).channel 0).pairSlots) ∧
      (faulted.slot 0).state.isAdmitted = false ∧
      faulted.engine.running = some ⟨receiptJob 1, false⟩ := by
  refine ⟨rfl, fun _ => rfl, fun _ => rfl, fun _ => rfl, by decide +kernel, by decide +kernel,
    ⟨(BitVec.add_zero _).symm, ?_⟩, by decide +kernel, by decide +kernel, by decide +kernel, rfl⟩
  intro h
  have h : Config.tagDigest (Config.cartridgeKey 5 10 7) [10, 412500750, 1] =
    Config.tagDigest (Config.cartridgeKey 5 10 7) [10, 412500750, 1] + 1 := h
  bv_omega

/-- `s` with a job queued behind the one in progress, and lane 3 HELD with the receipt of a commit in SENT of slot 12. -/
def holding (s : State) : State :=
  let k : Job := ⟨12, 10, 7, 1, 9, .verifyReceipt 5⟩
  (((s.updEngine fun e => { e with queue := [challengeJob 0], heldLanes := [3] }).updLane 3 fun lane =>
    { lane with state := .held k }).updCommit 12 fun _ => ⟨some ⟨.sent, 1, 5, 1⟩, .clear, 0, none⟩)

/-- What a held lane's place needs (`NextJob`), for a receipt and for an answer in progress (Answer_is_reconciled). -/
theorem test_witness_Receipt_is_checked_next_job :
    let k : Job := ⟨12, 10, 7, 1, 9, .verifyReceipt 5⟩
    let met (s : State) (i : SlotId) : Prop :=
      s.engine.queue = challengeJob 0 :: [] ∧ s.engine.heldLanes = 3 :: [] ∧ (s.lane 3).state = .held k ∧
        k.work = .verifyReceipt 5 ∧ k.slot ≠ i ∧ (s.commit k.slot).flight = some ⟨.sent, 1, 5, 1⟩ ∧ (s.lane 3).queue = []
    met (holding (checkingReceipt 0)) 0 ∧ met (holding (checkingAnswer 0)) 6 ∧
      ((checkingReceipt 0).engine.queue = [] ∧ (checkingAnswer 0).engine.queue = []) ∧
      (removing.engine.queue ≠ [] ∧ (removing.updEngine fun e => { e with heldLanes := [] }).engine.heldLanes = []) :=
  ⟨⟨rfl, rfl, rfl, rfl, by decide, rfl, rfl⟩, ⟨rfl, rfl, rfl, rfl, by decide, rfl, rfl⟩, ⟨rfl, rfl⟩, nofun, rfl⟩

theorem test_witness_Answer_is_reconciled :
    let d : Description := { ink 33 with inkCode := 4 }
    let e : HistoryEntry := { entry 33 with inkCode := 4 }
    let s := checkingAnswer 0
    let at' (n : Nat) : State := { s with history := { s.history with recency := n } }
    let fresh := { at' 4294967294 with history := { s.history with places := s.history.places.set 30 none } }
    let against (g o p u : Nat) : HistoryEntry :=
      { e with fillGeneration := g, odometer := o, pendingCharge := some p, uncertain := some u }
    ((∀ off, (checkingAnswer off).engine.running = some ⟨challengeJob off, false⟩) ∧
        (∀ off, (challengeJob off).work = .verifyChallenge 2 412000000) ∧ (∀ off, (challengeJob off).slot = 6)) ∧
      (s.keys.state = .provisioned 5 ∧ (s.slot 6).state = .verifying ∧ (s.slot 6).description = some d) ∧
      (fresh.findEntry d.serial = none ∧ (∃ p, fresh.place p = none) ∧ fresh.history.recency ≤ 4294967295 ∧
        { fresh.history with recency := 4294967295 }.recency = 4294967295) ∧
      (s.findEntry d.serial = some 30 ∧ s.place 30 = some e ∧ (at' 4294967294).history.recency ≤ 4294967295 ∧
        (at' 4294967295).history.recency = 4294967295) ∧
      d.fillGeneration < (against 3 0 0 0).fillGeneration ∧ d.odometerAtRead < (against 2 412000001 0 0).odometer ∧
      (against 1 412000001 5 5).fillGeneration < d.fillGeneration ∧
      (against 2 411999999 5 1).odometer + (against 2 411999999 5 1).uncertain.getD 0 ≤ d.odometerAtRead ∧
      (against 2 412000000 5 1).odometer ≤ d.odometerAtRead ∧
      d.odometerAtRead < (against 2 412000000 5 1).odometer + (against 2 412000000 5 1).uncertain.getD 0 :=
  ⟨⟨fun _ => rfl, fun _ => rfl, fun _ => rfl⟩, by decide +kernel⟩

/-- The entry of serial 100 + `q` with stamp `q`. -/
def stamped (pending : PlaceId → Option Nat) (barred : Bool) (q : PlaceId) : HistoryEntry :=
  { entry (BitVec.ofNat 64 (100 + q.val)) with pendingCharge := pending q, barred := barred, stamp := q.val }

/-- `checkingAnswer` with a full History Table. -/
def fullTable (pending : PlaceId → Option Nat) (barred : Bool) : State :=
  { checkingAnswer 0 with history :=
    { part.history with places := Vector.ofFn fun q => some (stamped pending barred q) } }

theorem fullTable_place (pending : PlaceId → Option Nat) (barred : Bool) (q : PlaceId) :
    (fullTable pending barred).place q = some (stamped pending barred q) := by
  simp [fullTable, State.place]

theorem fullTable_other (pending : PlaceId → Option Nat) (barred : Bool) (k : SlotId) (d : Description)
    (h : ((fullTable pending barred).slot k).description = some d) : d.serial ≠ (stamped pending barred 0).serial := by
  have same : (fullTable pending barred).slot k = (checkingAnswer 0).slot k := by
    unfold fullTable; simp only [State.slot]
  have other : ∀ k, ((checkingAnswer 0).slot k).description.map (fun d => d.serial) ≠ some 100 := by decide +kernel
  have serial : (stamped pending barred 0).serial = 100 := rfl
  rw [same] at h
  rw [serial]
  intro e
  exact other k (by rw [h, Option.map_some, e])

/-- The eviction's hypotheses at each tier, with place 0 the one chosen. -/
theorem test_witness_Answer_is_reconciled_full :
    let free (s : State) (x : HistoryEntry) : Prop := ∀ k, (s.slot k).state ≠ .vacant → ∀ d', (s.slot k).description = some d' →
      d'.serial ≠ x.serial
    (∀ pending barred, (∀ q, (fullTable pending barred).place q ≠ none) ∧
      (∀ e, (fullTable pending barred).place 0 = some e → free (fullTable pending barred) e ∧ e.stamp = 0) ∧
      ∀ e q x, (fullTable pending barred).place 0 = some e → q ≠ 0 → (fullTable pending barred).place q = some x →
        e.stamp < x.stamp) ∧
      (let s := fullTable (fun q => if q = 0 then none else some 1) false
       s.findEntry 33 = none ∧ s.history.recency ≤ 4294967295 ∧
        { s.history with recency := 4294967295 }.recency = 4294967295 ∧
        (s.place 0).map (fun e => (e.pendingCharge, e.barred)) = some (none, false)) ∧
      (let s := fullTable (fun _ => some 1) false
       (s.place 0).map (fun e => e.barred) = some false ∧ ∀ q x, s.place q = some x → x.pendingCharge ≠ none) ∧
      let s := fullTable (fun _ => some 1) true
      ∀ q x, s.place q = some x → x.barred ≠ false := by
  refine ⟨fun pending barred => ⟨fun q => ?_, fun e h => ?_, fun e q x h hq hx => ?_⟩, by decide +kernel,
    ⟨by decide +kernel, fun q x h => ?_⟩, fun q x h => ?_⟩
  · rw [fullTable_place]; exact Option.some_ne_none _
  · rw [fullTable_place] at h
    cases h
    exact ⟨fun k _ d' hd => fullTable_other pending barred k d' hd, rfl⟩
  · rw [fullTable_place] at h hx
    cases h; cases hx
    exact Nat.pos_of_ne_zero fun h => hq (Fin.ext h)
  · rw [fullTable_place] at h; cases h; exact Option.some_ne_none _
  · rw [fullTable_place] at h; cases h; exact fun h => Bool.noConfusion h

theorem test_witness_Conversion_completes :
    let on (c : Conversion) : State := { part with sense := { part.sense with conversion := some c } }
    let bad := { part with sense := { part.sense with reference := .bad } }
    let flagged := part.updSlot 15 fun r => { r with sensorFault := true }
    ((on ⟨.reference, false, 0, 0, true⟩).sense.conversion = some ⟨.reference, false, 0, 0, true⟩ ∧
      (on ⟨.slot 15, false, -512, 2047, false⟩).sense.conversion = some ⟨.slot 15, false, -512, 2047, false⟩ ∧
      { part.sense with conversion := none }.conversion = none) ∧
      (1900 ≤ 1900 ∧ 2200 ≤ 2200 ∧ 1899 < 1900 ∧ 2200 < 2201) ∧ bad.sense.reference = .bad ∧
      part.sense.reference ≠ .bad ∧ (15 ≤ 15 ∧ 4080 ≤ 4080 ∧ 15 < 16 ∧ 4079 < 4080) ∧
      (part.slot 15).sensorFault = false ∧ (flagged.slot 15).sensorFault = true ∧
      (part.slotSense 15).ring.length < 4 := by
  decide +kernel

/-- `s` with a conversion in progress. -/
def converting (s : State) (c : Conversion) : State := { s with sense := { s.sense with conversion := some c } }

/-- The run of slot `i` with the samples before its last. -/
def sampling (s : State) (i : SlotId) (reasons : Reasons) (samples : List (Option Nat)) : State :=
  { converting s ⟨.slot i, true, 0, 1000, false⟩ with sense :=
    { (converting s ⟨.slot i, true, 0, 1000, false⟩).sense with run := some ⟨⟨i, reasons, 0⟩, samples⟩ } }

/-- A regular sample of an admitted slot with a full ring, and the last sample of a run. -/
theorem test_witness_Conversion_completes_slot :
    let ringed (l : List Nat) : State := (converting { part with sense := { part.sense with reference := .good } }
      ⟨.slot 1, false, 0, 1000, false⟩).updSlotSense 1 fun u => { u with ring := l, rise := 3 }
    let high := ringed [1000, 1000, 1000, 1000]
    let run (reasons : Reasons) : State := sampling (admitting .sensing) 6 reasons [some 579, none, some 579]
    let good : State := sampling { admitting .sensing with sense := { part.sense with reference := .good } } 6
      ⟨true, false⟩ [some 579, some 579, some 579]
    (high.sense.conversion = some ⟨.slot 1, false, 0, 1000, false⟩ ∧ (high.slot 1).state.isAdmitted = true ∧
        (high.slot 1).channel = some 0 ∧ (pushRing (high.slotSense 1).ring 1000).length = 4 ∧
        (high.slot 1).sensorFault = false ∧ high.sense.reference = .good ∧ high.sense.scan ≠ .halted ∧
        { high.sense with scan := .halted }.scan = .halted) ∧
      ((587 + (high.channel 0).settings.refillTolerance < 1000 ∧ (high.channel 0).settings.persistence ≤ 3 + 1) ∧
        (high.channel 0).settings.refillPolicy = .warn ∧ (ringed [0, 0, 0, 0]).sense.reference = .good) ∧
      ((run ⟨false, true⟩).sense.run.isSome = true ∧ ((run ⟨false, true⟩).slotSense 6).hostSenses < 65535 ∧
        65535 ≤ (((run ⟨false, true⟩).updSlotSense 6 fun u => { u with hostSenses := 65535 }).slotSense 6).hostSenses ∧
        (run ⟨true, false⟩).sense.run = some ⟨⟨6, ⟨true, false⟩, 0⟩, [some 579, none, some 579]⟩) ∧
      ((good.slot 6).state = .sensing ∧ (good.slot 6).channel = some 3 ∧ good.sense.reference = .good ∧
        good.sense.run = some ⟨⟨6, ⟨true, false⟩, 0⟩, [some 579, some 579, some 579]⟩) ∧
      [some 579, some 579, some 579] ++ [some 580] = [579, 579, 579, 580].map some ∧
      (sampling part 6 ⟨true, true⟩ [some 1, none]).sense.run = some ⟨⟨6, ⟨true, true⟩, 0⟩, [some 1, none]⟩ := by
  decide +kernel

theorem test_witness_Timers_expire :
    let pausing (p : Option PendingScan) : State := { part with sense := { part.sense with
      scan := .pausing, pauseTimer := some 0, pendingScan := p } }
    let heavy := part.updChannel 0 fun ch => { ch with
      settings := { ch.settings with flowCeiling := 1 }, volume := { ch.volume with windowSum := 2 } }
    let s := reserving 1 1
    part.sense.scan ≠ .pausing ∧ ((pausing none).sense.scan = .pausing ∧ (pausing none).sense.pauseTimer = some 0 ∧
      (pausing none).sense.pendingScan = none) ∧
      (pausing (some ⟨[], 1000⟩)).sense.pendingScan = some ⟨[], 1000⟩ ∧ (part.channel 7).state = .idle ∧
      ((heavy.channel 0).state ≠ .idle ∧ (heavy.channel 0).settings.flowCeiling ≠ 0 ∧
        (heavy.channel 0).settings.flowCeiling < min 281474976710655 (heavy.channel 0).volume.windowSum) ∧
      (((s.channel 0).reservations.find? fun x => x.id = 1) = some ⟨1, 1, 0, false, none⟩ ∧
        ((s.channel 0).reservations.find? fun x => x.id = 2) = none) ∧
      ((s.channel 0).reservations.find? fun x => x.id = 20) = some ⟨20, 1, 0, false, some ⟨2000, 0⟩⟩ := by
  decide +kernel

/-! ### Witnesses of the invariants: a state that meets every law, and a step from it. -/

/-- `part` with a saved copy of its settings in force and a command waiting. -/
def lawful : State :=
  { part with pending := [.powerWarnAssert], store := ⟨#v[some ⟨0, defaultImage⟩, none], some 0, none⟩ }

theorem test_witness_Every_step_keeps_the_lines_and_bounds :
    (∃ t, step lawful = .next t) ∧ lawful.noticesLawful ∧ lawful.permitsLawful ∧ lawful.Bounded := by
  have idle : ∀ l, (lawful.lane l).state = .idle := by decide +kernel
  have empty : ∀ l, (lawful.lane l).queue = [] := by decide +kernel
  refine ⟨⟨_, rfl⟩, ?_, ?_, ⟨by decide +kernel, fun l => lawful_of_idle (idle l) (empty l), by decide +kernel,
    by decide +kernel⟩⟩
  · unfold State.noticesLawful NoticeUnit.lawful; decide +kernel
  · unfold State.permitsLawful Channel.permitLawful; decide +kernel

theorem test_witness_Every_step_conserves_ink :
    (∃ t, step lawful = .next t) ∧ lawful.remaindersLawful ∧ lawful.totalsLawful := by
  refine ⟨⟨_, rfl⟩, ?_, ?_⟩
  · unfold State.remaindersLawful Volume.remaindersLawful; decide +kernel
  · unfold State.totalsLawful Volume.totalLawful; decide +kernel

theorem test_witness_Every_step_keeps_the_tables : (∃ t, step lawful = .next t) ∧ lawful.tablesLawful := by
  have table : tableLawful defaultTable := by intro k; cases k <;> decide
  have image : defaultImage.lawful :=
    ⟨by unfold Window.lawful; decide +kernel, table, table⟩
  refine ⟨⟨_, rfl⟩, by unfold Window.lawful; decide +kernel, table, table, fun c h => ?_, fun w h => nomatch h⟩
  have h : some c = some ⟨0, defaultImage⟩ ∨ some c = none := by simpa [lawful] using h
  cases h with
  | inl h => cases h; exact image
  | inr h => cases h

theorem test_witness_Keys_and_frozen_settings_are_kept :
    let s := { part with keys := { part.keys with policyLock := true } }
    (∃ t, exec .powerWarnAssert s = .next t) ∧ (∃ t, exec (.hostReset inputs) s = .next t) ∧
      (∀ i, Instr.hostReset inputs ≠ .powerOnReset i ∧ Instr.hostReset inputs ≠ .pinReset i) ∧
      (∀ tag body, Instr.hostReset inputs ≠ .keyProvision tag body) ∧ Instr.hostReset inputs ≠ .keyCellWriteDone ∧
      (∀ tag body, Instr.hostReset inputs ≠ .policyLock tag body) ∧ s.keys.state = .provisioned 5 ∧
      s.keys.policyLock = true :=
  ⟨⟨_, rfl⟩, ⟨_, rfl⟩, fun _ => ⟨nofun, nofun⟩, fun _ _ => nofun, nofun, fun _ _ => nofun, rfl, rfl⟩

end Sys2Proof.Tests
end

/-! PROOF. SLOT_GET (R23): what the slot number names, what TALLY_UNCERTAIN shows, and the request answered from the
READY link. -/

namespace Sys2Proof.Machine

variable {s : State} {tag : Byte} {n : Nat} {i : SlotId}

/-! ## The slot a number names -/

theorem slotOf_eq_none (h : 15 < n) : slotOf n = none := dif_neg (by omega)

@[simp] theorem slotOf_val (i : SlotId) : slotOf i.val = some i := dif_pos i.isLt

/-! ## What the report shows -/

/-- R4: a slot shows TALLY_UNCERTAIN exactly while it is SERVING a channel whose flag is set. -/
theorem State.slotTallyUncertain_iff (s : State) (i : SlotId) :
    s.slotTallyUncertain i = true ↔ (s.slot i).state = .serving ∧
      ∃ c, (s.slot i).channel = some c ∧ (s.channel c).tallyUncertain = true := by
  unfold State.slotTallyUncertain
  split
  case h_1 c serving channel => simp [serving, channel]
  case h_2 notServing =>
    constructor
    · intro shown
      cases shown
    · rintro ⟨serving, c, channel, -⟩
      exact (notServing c serving channel).elim

/-! ## The request -/

theorem exec_slotGet_badArgument (ready : s.host.working = false) (outOfRange : 15 < n) :
    exec (.slotGet tag (.fields n)) s = .next (s.answering 0x02 tag .badArgument .none) := by
  change execSlotGet tag (.fields n) s = _
  rw [execSlotGet, State.request_ready _ _ ready, slotOf_eq_none outOfRange]
  exact congrArg _ (State.sendReply_answering _ s.beginRequest_working)

theorem exec_slotGet_ok (ready : s.host.working = false) :
    exec (.slotGet tag (.fields i.val)) s = .next (s.answering 0x02 tag .ok (.slot (s.slotReport i))) := by
  change execSlotGet tag (.fields i.val) s = _
  rw [execSlotGet, State.request_ready _ _ ready, slotOf_val]
  exact congrArg _ (State.sendReply_answering _ s.beginRequest_working)

/-- Settles O21: the reply's record is `State.slotReport`, and all of it but TALLY_UNCERTAIN is the slot's own. -/
theorem slot_get : Obligations.Slot_get := by
  intro s tag n ready
  refine ⟨exec_slotGet_badArgument ready, ?_⟩
  rintro i rfl
  exact ⟨s.slotReport i, exec_slotGet_ok ready, rfl, rfl, rfl, rfl, rfl, rfl, rfl, rfl, rfl, rfl, rfl, rfl, rfl,
    s.slotTallyUncertain_iff i⟩

end Sys2Proof.Machine

/-! PROOF. PROTECTION_GET (R47): the record in the reply, the empty record left behind, and the first violation after
it. -/

namespace Sys2Proof.Machine

variable {s : State} {tag : Byte}

/-- R47: the record emptied. -/
def State.protectionEmptied (s : State) : State := { s with bus := { s.bus with protection := ⟨0, none⟩ } }

@[simp] theorem State.protectionEmptied_protection (s : State) : s.protectionEmptied.bus.protection = ⟨0, none⟩ := rfl

@[simp] theorem State.answering_bus (s : State) (kind tag : Byte) (status : Status) (fields : ReplyFields) :
    (s.answering kind tag status fields).bus = s.bus := rfl

/-- R46: a violation that meets an empty record. -/
theorem State.violation_of_empty (v : Violation) (empty : s.bus.protection.count = 0) :
    s.violation v = State.raise { s with bus := { s.bus with protection := ⟨1, some v⟩ } } (.protection v) :=
  if_pos empty

/-- R47: PROTECTION_GET taken from the READY link. -/
theorem exec_protectionGet_ok (ready : s.host.working = false) :
    exec (.protectionGet tag (.fields ())) s = .next (s.protectionEmptied.answering 0x05 tag .ok
      (.protection s.bus.protection.count s.bus.protection.first)) := by
  change execProtectionGet tag (.fields ()) s = _
  rw [execProtectionGet, State.request_ready _ _ ready]
  exact congrArg _ (State.sendReply_answering (u := s.beginRequest.protectionEmptied) _ s.beginRequest_working)

/-- Settles O23: the state after the reply holds the empty record, so the next violation is a first one. -/
theorem protection_get : Obligations.Protection_get := by
  intro s tag ready
  refine ⟨_, exec_protectionGet_ok ready, rfl, fun v => State.violation_of_empty v ?_⟩
  simp only [State.answering_bus, State.protectionEmptied_protection]

end Sys2Proof.Machine

/-! PROOF. NOTICE_GET (R200) and NOTICE_MASK_SET (R201): the maximum and the mask as taken, what each request leaves in the
notice unit, and each request answered from the READY link. -/

namespace Sys2Proof.Machine

variable {s : State} {tag : Byte}

/-! ## NOTICE_GET -/

/-- R200: a maximum of 0 is raised to 1, and one above 8 is lowered to 8. -/
theorem noticesTaken_eq (maximum : Nat) : noticesTaken maximum = max 1 (min 8 maximum) := rfl

/-- R199, R200: the `n` oldest notices removed, and ATTN following the queue. -/
def State.noticesCollected (s : State) (n : Nat) : State :=
  { s with notices := { s.notices with
      queue := s.notices.queue.drop n
      dropped := 0
      attn := !(s.notices.queue.drop n).isEmpty } }

/-- R200: the request served, with the number of notices left as a count of the queue before it. -/
theorem serveNoticeGet_eq (maximum : Nat) (s : State) :
    serveNoticeGet maximum s =
      (s.noticesCollected (noticesTaken maximum),
        ⟨if noticesTaken maximum = maximum then .ok else .clamped,
          .notices (if noticesTaken maximum = maximum then none else some (noticesTaken maximum))
            (s.notices.queue.take (noticesTaken maximum)) (s.notices.queue.length - noticesTaken maximum)
            s.notices.dropped⟩) := by
  rw [← List.length_drop]
  rfl

/-- R200: NOTICE_GET taken from the READY link. -/
theorem exec_noticeGet_eq (maximum : Nat) (ready : s.host.working = false) :
    exec (.noticeGet tag (.fields maximum)) s = .next
      ((s.noticesCollected (noticesTaken maximum)).answering 0x19 tag
        (if noticesTaken maximum = maximum then .ok else .clamped)
        (.notices (if noticesTaken maximum = maximum then none else some (noticesTaken maximum))
          (s.notices.queue.take (noticesTaken maximum)) (s.notices.queue.length - noticesTaken maximum)
          s.notices.dropped)) := by
  change execNoticeGet tag (.fields maximum) s = _
  rw [execNoticeGet, State.request_ready _ _ ready, serveNoticeGet_eq]
  exact congrArg _ (State.sendReply_answering (u := s.beginRequest.noticesCollected _) _ s.beginRequest_working)

/-! ## NOTICE_MASK_SET -/

/-- R201: the notice mask replaced. -/
def State.noticesMasked (s : State) (mask : BitVec 18) : State := { s with notices := { s.notices with mask := mask } }

/-- R201: NOTICE_MASK_SET taken from the READY link. -/
theorem exec_noticeMaskSet_ok (mask : BitVec 32) (ready : s.host.working = false) :
    exec (.noticeMaskSet tag (.fields mask)) s = .next
      ((s.noticesMasked (mask.setWidth 18)).answering 0x1A tag .ok (.mask (mask.setWidth 18))) := by
  change execNoticeMaskSet tag (.fields mask) s = _
  rw [execNoticeMaskSet, State.request_ready _ _ ready]
  exact congrArg _ (State.sendReply_answering (u := s.beginRequest.noticesMasked _) _ s.beginRequest_working)

/-- Settles O42: the maximum taken is `noticesTaken`, and the mask taken is the low 18 bits of the one given. -/
theorem notice_requests : Obligations.Notice_requests := by
  intro s tag ready
  refine ⟨fun maximum => ?get, fun mask => ?mask⟩
  case get => exact ⟨noticesTaken maximum, noticesTaken_eq maximum, exec_noticeGet_eq maximum ready⟩
  case mask =>
    refine ⟨mask.setWidth 18, exec_noticeMaskSet_ok mask ready, fun n inMask => ?_⟩
    simp only [BitVec.getLsbD_setWidth, inMask, decide_true, Bool.true_and]

end Sys2Proof.Machine

/-! PROOF. What every step keeps (O57 to O59) and what no command does to the keys and the frozen settings (O60): one
relation between the state before and after, reached through the operations of each command. -/

namespace Sys2Proof.Machine

/-! ## The relation -/

/-- What every command but a reset and the three key commands keeps: the laws, the waiting commands, the Key Store, and, under the policy lock,
what it freezes. -/
structure LawsKept (s t : State) : Prop where
  notices : s.noticesLawful → t.noticesLawful
  permits : s.permitsLawful → t.permitsLawful
  bounded : s.Bounded → t.Bounded
  remainders : s.remaindersLawful → t.remaindersLawful
  totals : s.totalsLawful → t.totalsLawful
  tables : s.tablesLawful → t.tablesLawful
  pending : t.pending = s.pending
  keys : t.keys = s.keys
  windows : s.keys.policyLock = true → t.bus.windows = s.bus.windows
  policies : s.keys.policyLock = true →
    ∀ d, (t.channel d).settings.refillPolicy = (s.channel d).settings.refillPolicy

theorem LawsKept.refl (s : State) : LawsKept s s :=
  ⟨id, id, id, id, id, id, rfl, rfl, fun _ => rfl, fun _ _ => rfl⟩

theorem LawsKept.trans {s t u : State} (h : LawsKept s t) (k : LawsKept t u) : LawsKept s u where
  notices := k.notices ∘ h.notices
  permits := k.permits ∘ h.permits
  bounded := k.bounded ∘ h.bounded
  remainders := k.remainders ∘ h.remainders
  totals := k.totals ∘ h.totals
  tables := k.tables ∘ h.tables
  pending := k.pending.trans h.pending
  keys := k.keys.trans h.keys
  windows lock := (k.windows (h.keys ▸ lock)).trans (h.windows lock)
  policies lock d := (k.policies (h.keys ▸ lock) d).trans (h.policies lock d)

theorem Undisturbed.lawsKept {s t : State} (h : Undisturbed s t) : LawsKept s t where
  notices := h.noticesLawful
  permits := h.permitsLawful
  bounded := h.bounded
  remainders := h.remaindersLawful
  totals := h.totalsLawful
  tables := h.tablesLawful
  pending := h.pending
  keys := h.keys
  windows _ := h.windows
  policies _ d := by rw [(h.channel d).settings]

/-- The work of the blocks after a change. -/
theorem LawsKept.work {s t u : State} (h : LawsKept s t) (k : Undisturbed t u) : LawsKept s u := h.trans k.lawsKept

theorem LawsKept.settle {s t : State} (h : LawsKept s t) : LawsKept s t.settle := h.work (Undisturbed.refl t).settle

/-! ## Changes of single items -/

/-- A change of items no law is about. -/
theorem LawsKept.aside {s t : State} (notices : t.notices = s.notices := by rfl) (store : t.store = s.store := by rfl)
    (bus : t.bus = s.bus := by rfl) (keys : t.keys = s.keys := by rfl) (channels : t.channels = s.channels := by rfl)
    (commits : t.commits = s.commits := by rfl) (injected : t.sense.injected = s.sense.injected := by rfl)
    (items : t.sense.slots = s.sense.slots := by rfl)
    (pending : t.pending = s.pending := by rfl) : LawsKept s t where
  notices h := by rwa [State.noticesLawful, notices]
  permits h c := by simpa only [State.channel, channels] using h c
  bounded h := h.of_eq commits (congrArg Bus.lanes bus) injected items
  remainders h c := by simpa only [State.channel, channels] using h c
  totals h c := by simpa only [State.channel, channels] using h c
  tables h := by rwa [State.tablesLawful, bus, store]
  pending := pending
  keys := keys
  windows _ := congrArg Bus.windows bus
  policies _ d := by simp only [State.channel, channels]

theorem LawsKept.updHost (s : State) (f : HostLink → HostLink) : LawsKept s (s.updHost f) := .aside

theorem LawsKept.updTally (s : State) (f : Tally → Tally) : LawsKept s (s.updTally f) := .aside

theorem LawsKept.updChannel (s : State) (c : ChannelId) (f : Channel → Channel)
    (permit : (s.channel c).permitLawful → (f (s.channel c)).permitLawful)
    (remainders : (s.channel c).volume.remaindersLawful → (f (s.channel c)).volume.remaindersLawful)
    (total : (s.channel c).volume.totalLawful → (f (s.channel c)).volume.totalLawful)
    (policy : s.keys.policyLock = true →
      (f (s.channel c)).settings.refillPolicy = (s.channel c).settings.refillPolicy) :
    LawsKept s (s.updChannel c f) where
  notices := id
  permits h d := by
    rw [State.updChannel_channel]
    split
    case isTrue same => exact same ▸ permit (h c)
    case isFalse => exact h d
  bounded h := h.of_eq rfl rfl rfl rfl
  remainders h d := by
    rw [State.updChannel_channel]
    split
    case isTrue same => exact same ▸ remainders (h c)
    case isFalse => exact h d
  totals h d := by
    rw [State.updChannel_channel]
    split
    case isTrue same => exact same ▸ total (h c)
    case isFalse => exact h d
  tables := id
  pending := rfl
  keys := rfl
  windows _ := rfl
  policies lock d := by
    rw [State.updChannel_channel]
    split
    case isTrue same => exact same ▸ policy lock
    case isFalse => rfl

/-- A change of a channel that keeps its settings, what decides its PERMIT line, and its residue, accumulator and
charges. -/
theorem LawsKept.channelItems (s : State) (c : ChannelId) (f : Channel → Channel)
    (settings : (f (s.channel c)).settings = (s.channel c).settings)
    (permit : (s.channel c).permitLawful → (f (s.channel c)).permitLawful)
    (remainders : (f (s.channel c)).volume.residue = (s.channel c).volume.residue ∧
      (f (s.channel c)).volume.accumulator = (s.channel c).volume.accumulator)
    (totals : (f (s.channel c)).volume.totalCharged = (s.channel c).volume.totalCharged ∧
      (f (s.channel c)).volume.chargedToSlots = (s.channel c).volume.chargedToSlots ∧
      (f (s.channel c)).volume.unattributed = (s.channel c).volume.unattributed ∧
      (f (s.channel c)).volume.overdraw = (s.channel c).volume.overdraw) :
    LawsKept s (s.updChannel c f) := by
  refine .updChannel s c f permit ?_ ?_ fun _ => by rw [settings]
  · rw [Volume.remaindersLawful, Volume.remaindersLawful, remainders.1, remainders.2]
    exact id
  · rw [Volume.totalLawful, Volume.totalLawful, totals.1, totals.2.1, totals.2.2.1, totals.2.2.2]
    exact id

/-- A change of the bus: its windows and tables stay lawful, its lanes bounded, and under the lock its windows stay. -/
theorem LawsKept.bus (s : State) (b : Bus)
    (lanes : ∀ l : LaneId, (s.lane l).Lawful l → (b.lanes[l.val]).Lawful l)
    (lawful : (∀ w ∈ s.bus.windows.toList, w.lawful) → ∀ w ∈ b.windows.toList, w.lawful)
    (tableA : tableLawful s.bus.tableA → tableLawful b.tableA) (tableB : tableLawful s.bus.tableB → tableLawful b.tableB)
    (windows : s.keys.policyLock = true → b.windows = s.bus.windows) : LawsKept s { s with bus := b } where
  notices := id
  permits := id
  bounded h := ⟨h.failures, fun l => lanes l (h.lanes l), h.injected, h.rings⟩
  remainders := id
  totals := id
  tables := fun ⟨hw, ha, hb, hc, hs⟩ => ⟨lawful hw, tableA ha, tableB hb, hc, hs⟩
  pending := rfl
  keys := rfl
  windows := windows
  policies _ _ := rfl

/-- A change of the bus that leaves lanes, windows and tables. -/
theorem LawsKept.busAside (s : State) (b : Bus) (lanes : b.lanes = s.bus.lanes := by rfl)
    (windows : b.windows = s.bus.windows := by rfl) (tableA : b.tableA = s.bus.tableA := by rfl)
    (tableB : b.tableB = s.bus.tableB := by rfl) : LawsKept s { s with bus := b } :=
  .bus s b (fun l h => by rw [lanes]; exact h) (by rw [windows]; exact id) (by rw [tableA]; exact id)
    (by rw [tableB]; exact id) fun _ => windows

theorem LawsKept.noticeUnit (s : State) (u : NoticeUnit) (lawful : s.notices.lawful → u.lawful) :
    LawsKept s { s with notices := u } :=
  { LawsKept.refl s with
    notices := lawful
    bounded := fun h => h.of_eq rfl rfl rfl rfl }

/-- A violation recorded (R46). -/
theorem LawsKept.violation (s : State) (v : Violation) : LawsKept s (s.violation v) := by
  unfold State.violation
  split
  · exact (LawsKept.busAside s _).work ((Undisturbed.refl _).raise _)
  · exact .busAside s _

/-! ## The events of slots and power -/

theorem LawsKept.haltScan (s : State) : LawsKept s s.haltScan := by
  unfold State.haltScan State.takeUpScan
  split
  case h_1 => exact .aside
  case h_2 => split <;> exact .aside
  case h_3 => exact .refl s

theorem LawsKept.takeUpScan (s : State) : LawsKept s s.takeUpScan := by
  unfold State.takeUpScan
  split
  · exact .aside
  · exact .refl s

theorem LawsKept.presenceGained (s : State) (i : SlotId) : LawsKept s (s.presenceGained i) := by
  unfold State.presenceGained
  dsimp only
  split <;> exact .aside

theorem LawsKept.presenceLost (s : State) (i : SlotId) : LawsKept s (s.presenceLost i) := by
  unfold State.presenceLost
  split
  case isTrue => exact .aside
  case isFalse =>
    have noPresence : LawsKept s (s.setPresence i false) := .aside
    exact noPresence.work (Undisturbed.removal s i)

theorem LawsKept.debounceExpired (s : State) (i : SlotId) : LawsKept s (s.debounceExpired i) := by
  unfold State.debounceExpired
  split
  case isTrue =>
    have noTimer : LawsKept s (s.setDebounce i none) := .aside
    exact noTimer.work ((Undisturbed.refl _).seat i id)
  case isFalse => exact .refl s

theorem LawsKept.powerWarned (s : State) :
    LawsKept s (((s.setPowerWarn true).startRound).triggerEvery).haltScan.settle := by
  have warned : LawsKept s (s.setPowerWarn true) := .aside
  exact ((warned.work (Undisturbed.refl _).startRound.triggerEvery).trans (.haltScan _)).settle

theorem LawsKept.frameSent (s : State) : LawsKept s s.frameSent := by
  unfold State.frameSent
  split
  case h_1 => exact .refl s
  case h_2 => exact .aside
  case h_3 => split <;> exact .aside

/-! ## Requests -/

/-- A request keeps what its block's work keeps. -/
theorem LawsKept.request {α : Type} {serve : α → State → State × Answer} (s : State) (kind tag : Byte) (body : Body α)
    (kept : ∀ f u, LawsKept u (serve f u).1) : LawsKept s (s.request kind tag body serve) := by
  unfold State.request
  split
  case isTrue => exact .updHost s _
  case isFalse =>
    have taken : LawsKept s s.beginRequest := .updHost s _
    cases body with
    | wrongLength => exact taken.trans (.updHost _ _)
    | fields f => exact (taken.trans (kept f _)).trans (.updHost _ _)

theorem LawsKept.channelRead (s : State) (c : ChannelId) : LawsKept s (s.channelRead c) :=
  .channelItems s c _ rfl id ⟨rfl, rfl⟩ ⟨rfl, rfl, rfl, rfl⟩

theorem LawsKept.serveChannelSet (f : ChannelSetFields) (s : State) : LawsKept s (serveChannelSet f s).1 := by
  unfold Sys2Proof.Machine.serveChannelSet
  split
  case h_1 => exact .refl s
  case h_2 c _ =>
    split
    case isTrue => exact .violation s _
    case isFalse accepted =>
      split
      case h_1 => exact .refl s
      case h_2 policy named =>
        refine LawsKept.work (.updChannel s c _ id id id fun lock => ?_) (Undisturbed.takeSettings s c _)
        have present : policyOf f.settings.refillPolicy = some (s.channel c).settings.refillPolicy := by
          simpa [State.lockRefuses, lock] using accepted
        exact Option.some.inj (named.symm.trans present)

theorem LawsKept.enableChannel (s : State) (c : ChannelId) (idle : (s.channel c).state = .idle) :
    LawsKept s (s.enableChannel c) := by
  refine LawsKept.work (.channelItems s c _ rfl ?_ ⟨rfl, rfl⟩ ⟨rfl, rfl, rfl, rfl⟩) (Undisturbed.enableChannel s c)
  rintro ⟨inState, withServing⟩
  rw [idle] at inState
  exact ⟨inState.trans (by simp), withServing⟩

theorem LawsKept.disableChannel (s : State) (c : ChannelId) : LawsKept s (s.disableChannel c) := by
  refine LawsKept.work (LawsKept.trans ((Undisturbed.refl s).servingReturned c).lawsKept ?_)
    (Undisturbed.disableChannel s c)
  refine .channelItems _ c _ rfl (fun _ => ?_) ⟨rfl, rfl⟩ ⟨rfl, rfl, rfl, rfl⟩
  simp [Channel.disabled, Channel.permitLawful]

theorem LawsKept.setPair (s : State) (c : ChannelId) (pair : Option SupplyPair) : LawsKept s (s.setPair c pair) :=
  LawsKept.work (.channelItems s c _ rfl id ⟨rfl, rfl⟩ ⟨rfl, rfl, rfl, rfl⟩) (Undisturbed.setPair s c pair)

theorem LawsKept.serveSupplyMapSet (f : SupplyMapFields) (s : State) : LawsKept s (serveSupplyMapSet f s).1 := by
  unfold Sys2Proof.Machine.serveSupplyMapSet
  split
  case h_1 c primary alternate _ _ _ =>
    split
    · exact .refl s
    · split
      · exact .refl s
      · exact .setPair s c _
  case h_2 => exact .refl s

/-- RESERVE's channel changes: reservations, the last id, and two flags. -/
theorem LawsKept.reserveTested (s : State) (c : ChannelId) (size : Nat) : LawsKept s (s.reserveTested c size).1 := by
  have queued (u : State) : LawsKept u (u.queueNew c size) := .channelItems u c _ rfl id ⟨rfl, rfl⟩ ⟨rfl, rfl, rfl, rfl⟩
  unfold State.reserveTested
  dsimp only
  split
  · exact .channelItems s c _ rfl id ⟨rfl, rfl⟩ ⟨rfl, rfl, rfl, rfl⟩
  · split
    · split
      · exact ((LawsKept.refl s).work ((Undisturbed.refl s).grantTested c size)).trans (queued _)
      · exact queued s
    · exact .refl s

theorem LawsKept.serveReserve (f : ReserveFields) (s : State) : LawsKept s (serveReserve f s).1 := by
  unfold Sys2Proof.Machine.serveReserve
  split
  case h_1 => exact .refl s
  case h_2 c _ =>
    split
    · exact .refl s
    · split
      · exact .refl s
      · split
        · exact .refl s
        · exact .reserveTested s c f.size

theorem LawsKept.serveRelease (f : ReleaseFields) (s : State) : LawsKept s (serveRelease f s).1 := by
  unfold Sys2Proof.Machine.serveRelease
  split
  case h_1 => exact .refl s
  case h_2 c _ =>
    split
    case h_1 => exact .refl s
    case h_2 => exact (((Undisturbed.refl s).leaveList c f.id).afterLeaving c).lawsKept

/-- R85: the residue and the accumulator are remainders. -/
theorem Volume.afterEntry_remaindersLawful (v : Volume) (e : TallyEntry) (c : ChannelSettings) :
    (v.afterEntry e c).remaindersLawful :=
  ⟨Nat.mod_lt _ (by decide), Nat.mod_lt _ (by decide)⟩

/-- R87: a charge split into its three parts keeps the total their sum. -/
theorem Volume.charged_totalLawful {v : Volume} {amount : Nat} {b : Booking}
    (sum : b.toSlot + b.overdraw + b.unattributed = amount) (h : v.totalLawful) : (v.charged amount b).totalLawful := by
  unfold Volume.totalLawful at h ⊢
  simp only [Volume.charged, satAdd, Config.max48]
  omega

/-- Steps 1 and 2 of R89. -/
theorem LawsKept.book (s : State) (c : ChannelId) (amount : Nat) :
    LawsKept s (s.book c amount (s.booking c amount)) := by
  have volume : LawsKept s (s.updVolume c fun v => v.charged amount (s.booking c amount)) :=
    .updChannel s c _ id id (Volume.charged_totalLawful (s.booking_sum c amount)) fun _ => rfl
  unfold State.book
  dsimp only
  split
  · exact volume.work ((Undisturbed.refl _).updSlot _ _)
  · exact volume

theorem LawsKept.charge (s : State) (c : ChannelId) (amount : Nat) : LawsKept s (s.charge c amount) :=
  (LawsKept.book s c amount).work (Undisturbed.charge s c amount)

theorem LawsKept.serveServiceDraw (f : ServiceDrawFields) (s : State) : LawsKept s (serveServiceDraw f s).1 := by
  unfold Sys2Proof.Machine.serveServiceDraw
  split
  case h_1 => exact .refl s
  case h_2 c _ =>
    split
    case isTrue => exact .refl s
    case isFalse =>
      dsimp only
      split
      · exact .refl s
      · exact .charge s c _

theorem Undisturbed.serveCommitNow (named : Option Nat) (s : State) : Undisturbed s (serveCommitNow named s).1 := by
  unfold Sys2Proof.Machine.serveCommitNow
  split
  case h_1 => exact (Undisturbed.refl s).foldl _ _ fun _ i h => h.forcedTrigger i
  case h_2 n =>
    split
    case h_1 => exact .refl s
    case h_2 i _ =>
      unfold State.commitNamed
      split
      · exact .refl s
      · split
        · exact .refl s
        · exact (Undisturbed.refl s).forcedTrigger i

theorem Undisturbed.serveSense (n : Nat) (s : State) : Undisturbed s (serveSense n s).1 := by
  unfold Sys2Proof.Machine.serveSense
  split
  case h_1 => exact .refl s
  case h_2 i _ =>
    split
    · exact .refl s
    · split
      case h_1 u placed => exact (Undisturbed.refl s).placeRequest i _ placed
      case h_2 => exact .refl s

theorem LawsKept.serveScanSet (f : ScanSetFields) (s : State) : LawsKept s (serveScanSet f s).1 := by
  unfold Sys2Proof.Machine.serveScanSet
  split
  case h_1 => exact .refl s
  case h_2 list _ =>
    dsimp only
    unfold State.setScan
    split
    case h_1 => exact .aside
    case h_2 =>
      split
      · refine LawsKept.work ?_ (Undisturbed.refl _).beginPass
        exact .aside
      · exact .aside

theorem LawsKept.serveSensorCal (f : SensorCalFields) (s : State) : LawsKept s (serveSensorCal f s).1 := by
  unfold Sys2Proof.Machine.serveSensorCal
  split
  case h_1 => exact .refl s
  case h_2 i _ =>
    refine LawsKept.work (t := s.updSlotSense i _) { LawsKept.refl s with bounded := fun h => ?_ }
      ((Undisturbed.refl _).abandonRunOf i)
    refine ⟨h.failures, h.lanes, h.injected, fun j => ?_⟩
    rw [State.updSlotSense_slotSense]
    split
    case isFalse => exact h.rings j
    case isTrue =>
      unfold SlotSense.calibrated
      split
      · exact h.rings j
      · exact Nat.zero_le 4

/-! ## Requests of the bus -/

/-- R39: the phases a load accepts make a table that names every class. -/
theorem phaseTable_lawful {phases : Vector Nat 16} (valid : phasesValid phases = true) :
    tableLawful (phaseTable phases) := by
  intro k
  obtain ⟨_, named⟩ := Bool.and_eq_true_iff.1 valid
  have member : k ∈ allClasses := by cases k <;> decide
  obtain ⟨v, standing, isClass⟩ := List.any_eq_true.1 (List.all_eq_true.1 named k member)
  have : (phaseTable phases).toList = phases.toList.map fun v => (classOf v).getD .admission := by
    rw [phaseTable, Vector.toList_map]
  rw [this]
  exact List.mem_map.2 ⟨v, standing, by rw [of_decide_eq_true isClass]; rfl⟩

theorem LawsKept.serveScheduleLoad (f : ScheduleLoadFields) (s : State) : LawsKept s (serveScheduleLoad f s).1 := by
  unfold Sys2Proof.Machine.serveScheduleLoad
  split
  case h_1 => exact .refl s
  case h_2 t _ =>
    split
    case isTrue => exact .refl s
    case isFalse valid =>
      have lawful := phaseTable_lawful (Bool.eq_true_of_not_eq_false valid)
      split
      case isTrue => exact .refl s
      case isFalse =>
        cases t with
        | a => exact .bus s _ (fun _ => id) id (fun _ => lawful) id fun _ => rfl
        | b => exact .bus s _ (fun _ => id) id id (fun _ => lawful) fun _ => rfl

@[simp] theorem Lane.selected_state (lane : Lane) (r : TableId) : (lane.selected r).state = lane.state := by
  unfold Lane.selected
  split
  case h_1 => split <;> simp only [Lane.takeUp_state]
  case h_2 => rfl

@[simp] theorem Lane.selected_queue (lane : Lane) (r : TableId) : (lane.selected r).queue = lane.queue := by
  unfold Lane.selected
  split
  case h_1 => split <;> simp only [Lane.takeUp_queue]
  case h_2 => rfl

theorem LawsKept.serveScheduleSelect (n : Nat) (s : State) : LawsKept s (serveScheduleSelect n s).1 := by
  unfold Sys2Proof.Machine.serveScheduleSelect
  split
  case h_1 => exact .refl s
  case h_2 t _ =>
    refine .bus s _ (fun l h => ?_) id id id fun _ => rfl
    simp only [Vector.getElem_map]
    exact ⟨by rw [Lane.selected_queue]; exact h.queue, by rw [Lane.selected_state]; exact h.wire,
      by rw [Lane.selected_state]; exact h.held⟩

/-- R43: a window as taken. -/
theorem windowTaken_lawful (f : WindowSetFields) : (windowTaken f).lawful := by
  simp only [Window.lawful, windowTaken, clampNat, Config.userLow, Config.userHigh]
  omega

theorem LawsKept.serveWindowSet (f : WindowSetFields) (s : State) : LawsKept s (serveWindowSet f s).1 := by
  unfold Sys2Proof.Machine.serveWindowSet
  split
  case h_1 => exact .refl s
  case h_2 w _ =>
    split
    case isTrue => exact .violation s _
    case isFalse unlocked =>
      refine .bus s _ (fun _ => id) (fun h v mem => ?_) id id fun lock => absurd lock unlocked
      rcases Vector.mem_or_eq_of_mem_set (hi := w.isLt) (Vector.mem_toList_iff.1 mem) with old | new
      · exact h v (Vector.mem_toList_iff.2 old)
      · exact new ▸ windowTaken_lawful f

theorem LawsKept.passThrough (s : State) (i : SlotId) (command : TagCommand) (address length : Nat) (isWrite : Bool) :
    LawsKept s (s.passThrough i command address length isWrite).1 := by
  unfold State.passThrough
  split
  · exact .refl s
  · split
    · exact .violation s _
    · split
      · exact .refl s
      · exact (LawsKept.busAside s _).work ((Undisturbed.refl _).enqueue _)

theorem LawsKept.serveTagRead (f : TagReadFields) (s : State) : LawsKept s (serveTagRead f s).1 := by
  unfold Sys2Proof.Machine.serveTagRead
  split
  case h_1 => exact .refl s
  case h_2 i _ =>
    split
    · exact .refl s
    · exact .passThrough s i _ _ _ _

theorem LawsKept.serveTagWrite (f : TagWriteFields) (s : State) : LawsKept s (serveTagWrite f s).1 := by
  unfold Sys2Proof.Machine.serveTagWrite
  split
  case h_1 => exact .refl s
  case h_2 i _ =>
    split
    · exact .refl s
    · exact .passThrough s i _ _ _ _

/-! ## Requests of the stores and the notices -/

theorem LawsKept.serveHistoryClear (name : HistoryName) (s : State) : LawsKept s (serveHistoryClear name s).1 := by
  unfold Sys2Proof.Machine.serveHistoryClear State.clearNamed
  split
  · exact .refl s
  · split
    · exact .violation s _
    · split
      · exact .refl s
      · split
        case h_1 => exact .refl s
        case h_2 p _ =>
          split
          case h_1 => exact .refl s
          case h_2 e _ =>
            split
            · exact .refl s
            · exact ((Undisturbed.refl s).clearPlace p e).lawsKept

theorem LawsKept.serveNoticeGet (maximum : Nat) (s : State) : LawsKept s (serveNoticeGet maximum s).1 := by
  refine .noticeUnit s _ fun h => ⟨?_, rfl⟩
  exact (List.length_drop ▸ Nat.sub_le _ _ : (s.notices.queue.drop (noticesTaken maximum)).length ≤ _).trans h.1

/-- R202: the settings as they stand are as lawful as the tables and windows in force. -/
theorem State.settingsImage_lawful {s : State} (h : s.tablesLawful) : s.settingsImage.lawful := by
  obtain ⟨windows, tableA, tableB, _, _⟩ := h
  exact ⟨windows, tableA, tableB⟩

/-- A change of the Settings Store that keeps its copies lawful. -/
theorem LawsKept.store (s : State) (st : SettingsStore)
    (lawful : s.tablesLawful →
      (∀ c, some c ∈ st.copies.toList → c.image.lawful) ∧ ∀ w, st.saving = some w → w.copy.image.lawful) :
    LawsKept s { s with store := st } :=
  { LawsKept.refl s with
    bounded := fun h => h.of_eq rfl rfl rfl rfl
    tables := fun h => ⟨h.1, h.2.1, h.2.2.1, lawful h⟩ }

theorem LawsKept.startSave (s : State) (tag : Byte) : LawsKept s (s.startSave tag) := by
  refine .store s _ fun h => ⟨h.2.2.2.1, fun w started => ?_⟩
  cases started
  exact State.settingsImage_lawful h

theorem LawsKept.saveDone {s : State} {w : Saving} (saving : s.store.saving = some w) :
    LawsKept s { s with store := ⟨s.store.copies.set w.target.val (some w.copy) w.target.isLt, some w.target, none⟩ } := by
  refine .store s _ fun h => ⟨fun c mem => ?_, fun _ none => nomatch none⟩
  rcases Vector.mem_or_eq_of_mem_set (hi := w.target.isLt) (Vector.mem_toList_iff.1 mem) with old | new
  · exact h.2.2.2.1 c (Vector.mem_toList_iff.2 old)
  · cases new
    exact h.2.2.2.2 w saving

theorem LawsKept.prepareReset (s : State) : LawsKept s s.prepareReset := by
  have prepared (u : State) (p : Option ResetPreparation) (h : History) :
      LawsKept u { u with preparation := p, history := h } := .aside
  exact (Undisturbed.refl s).preserveAll.lawsKept.trans (prepared _ _ _)

theorem LawsKept.historyWritten (s : State) : LawsKept s s.historyWritten := by
  unfold State.historyWritten
  split
  case h_1 => exact .refl s
  case h_2 w _ =>
    have written : LawsKept s (s.updHistory fun h =>
      { h with image := modifyAt h.image w.place fun _ => w.content, writing := none }) := .aside
    dsimp only
    split
    · exact written.work ((Undisturbed.refl _).roundWritten _)
    · exact written

/-! ## The tally link and the timers -/

theorem LawsKept.takeEntryVolume (s : State) (e : TallyEntry) : LawsKept s (s.takeEntryVolume e) := by
  obtain ⟨v, arithmetic, charged⟩ := Undisturbed.takeEntryVolume s e
  have entry : LawsKept s v := by
    rw [arithmetic]
    exact .updChannel s _ _ id (fun _ => Volume.afterEntry_remaindersLawful _ _ _) id fun _ => rfl
  rcases charged with ⟨_, free⟩ | ⟨amount, _, _, work⟩
  · rwa [free]
  · exact (entry.trans (.book v _ amount)).work work

theorem LawsKept.routeEntry (s : State) (e : TallyEntry) : LawsKept s (s.routeEntry e) := by
  unfold State.routeEntry
  split
  · exact .updTally s _
  · exact (LawsKept.updTally s _).trans (.takeEntryVolume _ e)

theorem LawsKept.handOn (n : Nat) (s : State) : LawsKept s (State.handOn n s) := by
  induction n generalizing s with
  | zero => exact .refl s
  | succ n ih =>
    unfold State.handOn
    split
    case h_1 => exact .refl s
    case h_2 e rest _ => exact ((LawsKept.updTally s _).trans (.routeEntry _ e)).trans (ih _)

/-- R74: the marking of a gap sets a flag of each channel in use. -/
theorem State.markUncertain_channel (s : State) (c : ChannelId) :
    s.markUncertain.channel c =
      if (s.channel c).state = .idle then s.channel c else { s.channel c with tallyUncertain := true } := by
  simp only [State.markUncertain, State.channel, Vector.getElem_map]
  rfl

theorem LawsKept.markUncertain (s : State) : LawsKept s s.markUncertain where
  notices := id
  permits h c := by
    rw [State.markUncertain_channel]
    split
    · exact h c
    · exact h c
  bounded h := h.of_eq rfl rfl rfl rfl
  remainders h c := by
    rw [State.markUncertain_channel]
    split
    · exact h c
    · exact h c
  totals h c := by
    rw [State.markUncertain_channel]
    split
    · exact h c
    · exact h c
  tables := id
  pending := rfl
  keys := rfl
  windows _ := rfl
  policies _ c := by
    rw [State.markUncertain_channel]
    split
    · rfl
    · rfl

theorem LawsKept.acceptFrame (s : State) (f : TallyFrame) : LawsKept s (s.acceptFrame f) := by
  have entriesWait (u : State) : LawsKept u (u.entriesWait f.entries) := .updTally u _
  unfold State.acceptFrame
  dsimp only
  split
  case h_1 => exact (LawsKept.updTally s _).trans (entriesWait _)
  case h_2 => exact (LawsKept.updTally s _).trans (entriesWait _)
  case h_3 => exact .updTally s _
  case h_4 size _ =>
    have marked (u : State) : LawsKept u (u.markGap f.head size f.sequence) :=
      (LawsKept.markUncertain u).work ((Undisturbed.refl _).raise _)
    exact ((LawsKept.updTally s _).trans (marked _)).trans (entriesWait _)

theorem LawsKept.receiveFrame (s : State) (levels : List Bool) (now : Nat) :
    LawsKept s (s.receiveFrame levels now) := by
  have checked (u : State) : LawsKept u (u.checkFrame levels) := by
    unfold State.checkFrame
    split
    · exact .acceptFrame u _
    · exact .updTally u _
  unfold State.receiveFrame
  split
  · exact .updTally s _
  · split
    · exact .refl s
    · exact ((LawsKept.handOn _ s).trans (checked _)).trans (.handOn now _)

theorem LawsKept.windowExpired (s : State) (c : ChannelId) : LawsKept s (s.windowExpired c) := by
  have closed : LawsKept s (s.updVolume c fun v => v.closeWindow (s.channel c).settings.flowWindow) :=
    .channelItems s c _ rfl id ⟨rfl, rfl⟩ ⟨rfl, rfl, rfl, rfl⟩
  have tested (u : State) (length : Nat) : LawsKept u (u.ceilingTest c length) := by
    unfold State.ceilingTest
    dsimp only
    have flagged (b : Bool) : LawsKept u (u.updChannel c fun ch => { ch with flowExcess := b }) :=
      .channelItems u c _ rfl id ⟨rfl, rfl⟩ ⟨rfl, rfl, rfl, rfl⟩
    split
    · exact (flagged _).work ((Undisturbed.refl _).raise _)
    · exact flagged _
  exact closed.trans (tested _ _)

/-! ## The lanes and the engine -/

theorem State.transactionIn_some {s : State} {l : LaneId} {phase : WirePhase} {x : Transaction}
    (h : s.transactionIn l phase = some x) : (s.lane l).state = .onWire x ∧ x.phase = phase := by
  unfold State.transactionIn at h
  split at h
  case h_1 y wire =>
    split at h
    case isTrue inPhase =>
      cases h
      exact ⟨wire, inPhase⟩
    case isFalse => exact nomatch h
  case h_2 => exact nomatch h

theorem Undisturbed.actReply {s : State} {l : LaneId} {x : Transaction} (wire : (s.lane l).state = .onWire x)
    (reading : ReplyReading) : Undisturbed s (s.actReply l x reading) := by
  cases reading with
  | failedAttempt => exact (Undisturbed.refl s).attemptFailed l x wire
  | busy => exact (Undisturbed.refl s).busyReply l x wire
  | error code => exact (Undisturbed.refl s).transactionFailed l x _
  | usable r => exact (Undisturbed.refl s).transactionDone l x r wire

theorem execLaneReply_lawsKept (l : LaneId) (frame : List Byte) (s : State) :
    ∃ t, execLaneReply l frame s = .next t ∧ LawsKept s t := by
  refine ⟨_, rfl, ?_⟩
  split
  case h_1 x wire => exact (Undisturbed.actReply (State.transactionIn_some wire).1 _).settle.lawsKept
  case h_2 => exact .refl s

theorem execReplyTimeout_lawsKept (l : LaneId) (s : State) : ∃ t, execReplyTimeout l s = .next t ∧ LawsKept s t := by
  refine ⟨_, rfl, ?_⟩
  split
  case h_1 x wire => exact ((Undisturbed.refl s).attemptFailed l x (State.transactionIn_some wire).1).settle.lawsKept
  case h_2 => exact .refl s

theorem execBusyHoldOffExpiry_lawsKept (l : LaneId) (s : State) :
    ∃ t, execBusyHoldOffExpiry l s = .next t ∧ LawsKept s t := by
  refine ⟨_, rfl, ?_⟩
  split
  case h_1 x wire =>
    exact ((Undisturbed.refl s).setTransactionOf l x { x with phase := .replyWait }
      (State.transactionIn_some wire).1 rfl id).lawsKept
  case h_2 => exact .refl s

theorem execWaitTimerExpiry_lawsKept (c : ChannelId) (id : Nat) (s : State) :
    ∃ t, execWaitTimerExpiry c id s = .next t ∧ LawsKept s t := by
  refine ⟨_, rfl, ?_⟩
  split
  case h_1 r _ =>
    split
    · exact .refl s
    · exact ((((Undisturbed.refl s).leaveList c r.id).raise _).afterLeaving c).settle.lawsKept
  case h_2 => exact .refl s

theorem execSettingsSaveWriteDone_lawsKept (s : State) : ∃ t, execSettingsSaveWriteDone s = .next t ∧ LawsKept s t := by
  refine ⟨_, rfl, ?_⟩
  split
  case h_1 w saving => exact (LawsKept.saveDone saving).trans (.updHost _ _)
  case h_2 => exact .refl s

theorem execSettingsSave_lawsKept (tag : Byte) (body : Body Unit) (s : State) :
    ∃ t, execSettingsSave tag body s = .next t ∧ LawsKept s t := by
  have taken : LawsKept s s.beginRequest := .updHost s _
  refine ⟨_, rfl, ?_⟩
  split
  case isTrue => exact .updHost s _
  case isFalse =>
    cases body with
    | wrongLength => exact taken.trans (.updHost _ _)
    | fields => exact taken.trans (.startSave _ tag)

/-! ## Every command -/

/-- The three resets. -/
def isReset : Instr → Bool
  | .powerOnReset _ | .pinReset _ | .hostReset _ => true
  | _ => false

/-- The commands that act on the Key Store. -/
def actsOnKeys : Instr → Bool
  | .keyProvision _ _ | .keyCellWriteDone | .policyLock _ _ => true
  | _ => false

theorem exec_lawsKept (c : Instr) (s : State) (noReset : isReset c = false) (noKeys : actsOnKeys c = false) :
    ∃ t, exec c s = .next t ∧ LawsKept s t := by
  have same (u : State) : LawsKept u u := .refl u
  cases c with
  | powerOnReset | pinReset | hostReset => cases noReset
  | keyProvision | keyCellWriteDone | policyLock => cases noKeys
  | powerWarnAssert =>
    refine ⟨_, rfl, ?_⟩
    split
    · exact same s
    · exact .powerWarned s
  | powerWarnDeassert =>
    refine ⟨_, rfl, ?_⟩
    split
    · have low : LawsKept s (s.setPowerWarn false) := .aside
      exact low.work (Undisturbed.refl _).resumeScan.settle
    · exact same s
  | presenceGain i => exact ⟨_, rfl, .presenceGained s i⟩
  | removal i => exact ⟨_, rfl, (LawsKept.presenceLost s i).settle⟩
  | seatDebounceExpiry i => exact ⟨_, rfl, (LawsKept.debounceExpired s i).settle⟩
  | badFrame => exact ⟨_, rfl, .updHost s _⟩
  | oversizedLength => exact ⟨_, rfl, .updHost s _⟩
  | partialFrameGapExpiry => exact ⟨_, rfl, .updHost s _⟩
  | missingStopBit => exact ⟨_, rfl, .updHost s _⟩
  | busyAnswer =>
    refine ⟨_, rfl, ?_⟩
    split
    · exact .updHost s _
    · exact same s
  | unknownKind =>
    refine ⟨_, rfl, ?_⟩
    split
    · exact same s
    · exact .request s _ _ _ fun _ => same
  | hostFrameTransmitted => exact ⟨_, rfl, .frameSent s⟩
  | statusGet tag body => exact ⟨_, rfl, .request s _ tag body fun _ => same⟩
  | slotGet tag body =>
    refine ⟨_, rfl, .request s _ tag body fun n u => ?_⟩
    split <;> exact same u
  | channelGet tag body =>
    refine ⟨_, rfl, .request s _ tag body fun n u => ?_⟩
    split
    · exact same u
    · exact .channelRead u _
  | historyGet tag body => exact ⟨_, rfl, .request s _ tag body fun _ => same⟩
  | protectionGet tag body => exact ⟨_, rfl, .request s _ tag body fun _ u => .busAside u _⟩
  | channelSet tag body => exact ⟨_, rfl, (LawsKept.request s _ tag body .serveChannelSet).settle⟩
  | channelEnable tag body =>
    refine ⟨_, rfl, (LawsKept.request s _ tag body fun n u => ?_).settle⟩
    split
    · exact same u
    · dsimp only
      split
      case isTrue idle => exact .enableChannel u _ idle
      case isFalse => exact same u
  | channelDisable tag body =>
    refine ⟨_, rfl, (LawsKept.request s _ tag body fun n u => ?_).settle⟩
    split
    · exact same u
    · split
      · exact same u
      · split
        · exact same u
        · exact .disableChannel u _
  | supplyMapSet tag body => exact ⟨_, rfl, (LawsKept.request s _ tag body .serveSupplyMapSet).settle⟩
  | reserve tag body => exact ⟨_, rfl, (LawsKept.request s _ tag body .serveReserve).settle⟩
  | release tag body => exact ⟨_, rfl, (LawsKept.request s _ tag body .serveRelease).settle⟩
  | serviceDraw tag body => exact ⟨_, rfl, (LawsKept.request s _ tag body .serveServiceDraw).settle⟩
  | commitNow tag body =>
    exact ⟨_, rfl, (LawsKept.request s _ tag body fun f u => (Undisturbed.serveCommitNow f u).lawsKept).settle⟩
  | sense tag body =>
    exact ⟨_, rfl, (LawsKept.request s _ tag body fun f u => (Undisturbed.serveSense f u).lawsKept).settle⟩
  | scanSet tag body => exact ⟨_, rfl, (LawsKept.request s _ tag body .serveScanSet).settle⟩
  | sensorCal tag body => exact ⟨_, rfl, (LawsKept.request s _ tag body .serveSensorCal).settle⟩
  | scheduleLoad tag body => exact ⟨_, rfl, .request s _ tag body .serveScheduleLoad⟩
  | scheduleSelect tag body => exact ⟨_, rfl, .request s _ tag body .serveScheduleSelect⟩
  | windowSet tag body => exact ⟨_, rfl, .request s _ tag body .serveWindowSet⟩
  | tagRead tag body => exact ⟨_, rfl, (LawsKept.request s _ tag body .serveTagRead).settle⟩
  | tagWrite tag body => exact ⟨_, rfl, (LawsKept.request s _ tag body .serveTagWrite).settle⟩
  | historyClear tag body => exact ⟨_, rfl, (LawsKept.request s _ tag body .serveHistoryClear).settle⟩
  | noticeGet tag body => exact ⟨_, rfl, .request s _ tag body .serveNoticeGet⟩
  | noticeMaskSet tag body => exact ⟨_, rfl, .request s _ tag body fun _ u => .noticeUnit u _ id⟩
  | settingsSave tag body => exact execSettingsSave_lawsKept tag body s
  | reset tag body =>
    exact ⟨_, rfl, (LawsKept.request (serve := fun _ u => (u.prepareReset, only .ok)) s _ tag body fun _ u =>
      .prepareReset u).settle⟩
  | settingsSaveWriteDone => exact execSettingsSaveWriteDone_lawsKept s
  | tallyFrame levels now =>
    refine ⟨_, rfl, ?_⟩
    split
    · exact (LawsKept.receiveFrame s _ now).settle
    · exact (LawsKept.handOn now s).settle
  | laneReply l frame => exact execLaneReply_lawsKept l frame s
  | replyTimeout l => exact execReplyTimeout_lawsKept l s
  | busyHoldOffExpiry l => exact execBusyHoldOffExpiry_lawsKept l s
  | digestJobComplete place =>
    refine ⟨_, rfl, ?_⟩
    split
    · exact ((Undisturbed.refl s).jobDone _ place).settle.lawsKept
    · exact same s
  | conversionComplete raw =>
    refine ⟨_, rfl, ?_⟩
    split
    · exact ((Undisturbed.refl s).conversionDone _ raw).settle.lawsKept
    · exact same s
  | scanPauseExpiry =>
    refine ⟨_, rfl, ?_⟩
    split
    · exact (LawsKept.takeUpScan s).work (Undisturbed.refl _).beginPass.settle
    · exact same s
  | flowWindowExpiry c =>
    refine ⟨_, rfl, ?_⟩
    split
    · exact same s
    · exact .windowExpired s c
  | waitTimerExpiry c id => exact execWaitTimerExpiry_lawsKept c id s
  | historyWriteDone => exact ⟨_, rfl, (LawsKept.historyWritten s).settle⟩
  | presenceLossDuringDebounce i => exact ⟨_, rfl, (LawsKept.presenceLost s i).settle⟩
  | tstrobeDeassertedAfterReset => exact ⟨_, rfl, .updTally s _⟩

/-- What the key commands do to the Key Store (R61 to R63): a provisioned key stays, and the lock once in force. -/
structure KeyStore.Advances (k k' : KeyStore) : Prop where
  root : ∀ root, k.state = .provisioned root → k'.state = .provisioned root
  lock : k.policyLock = true → k'.policyLock = true

theorem KeyStore.Advances.refl (k : KeyStore) : k.Advances k := ⟨fun _ => id, id⟩

/-- A request that acts on the Key Store. -/
theorem LawsKept.keyRequest {α : Type} {serve : α → State → State × Answer} (s : State) (kind tag : Byte)
    (body : Body α) (kept : ∀ f u, ∃ k, u.keys.Advances k ∧ LawsKept { u with keys := k } (serve f u).1) :
    ∃ k, s.keys.Advances k ∧ LawsKept { s with keys := k } (s.request kind tag body serve) := by
  unfold State.request
  split
  case isTrue => exact ⟨s.keys, .refl _, .updHost s _⟩
  case isFalse =>
    cases body with
    | wrongLength => exact ⟨s.keys, .refl _, (LawsKept.updHost s _).trans (.updHost _ _)⟩
    | fields f =>
      obtain ⟨k, advances, served⟩ := kept f s.beginRequest
      have taken : LawsKept { s with keys := k } { s.beginRequest with keys := k } := .aside
      exact ⟨k, advances, (taken.trans served).trans (.updHost _ _)⟩

theorem serveKeyProvision_keys (key : Word128) (s : State) :
    ∃ k, s.keys.Advances k ∧ LawsKept { s with keys := k } (serveKeyProvision key s).1 := by
  unfold serveKeyProvision
  split
  · exact ⟨s.keys, .refl _, .refl s⟩
  · split
    case h_1 unprovisioned =>
      refine ⟨{ s.keys with state := .provisioned key, writing := some key },
        ⟨fun root provisioned => ?_, id⟩, (Undisturbed.provision s key).lawsKept⟩
      rw [unprovisioned] at provisioned
      cases provisioned
    case h_2 => exact ⟨s.keys, .refl _, .refl s⟩

/-- A key command acts on the Key Store, and what else it does keeps the laws. -/
theorem exec_keys_advance (c : Instr) (s : State) (keys : actsOnKeys c = true) :
    ∃ t k, exec c s = .next t ∧ s.keys.Advances k ∧ LawsKept { s with keys := k } t := by
  cases c with
  | keyProvision tag body =>
    obtain ⟨k, advances, kept⟩ := LawsKept.keyRequest s 0x17 tag body serveKeyProvision_keys
    exact ⟨_, k, rfl, advances, kept.settle⟩
  | keyCellWriteDone =>
    change ∃ t k, execKeyCellWriteDone s = .next t ∧ _ ∧ _
    unfold execKeyCellWriteDone
    split
    case h_1 key _ =>
      exact ⟨_, { s.keys with cell := .written key, writing := none }, rfl, ⟨fun _ => id, id⟩, .refl _⟩
    case h_2 => exact ⟨_, s.keys, rfl, .refl _, .refl s⟩
  | policyLock tag body =>
    obtain ⟨k, advances, kept⟩ := LawsKept.keyRequest s 0x18 tag body
      (serve := fun _ u => ({ u with keys := { u.keys with policyLock := true } }, only .ok)) fun _ u =>
      ⟨{ u.keys with policyLock := true }, ⟨fun _ => id, fun _ => rfl⟩,
        .refl { u with keys := { u.keys with policyLock := true } }⟩
    exact ⟨_, k, rfl, advances, kept⟩
  | _ => cases keys

end Sys2Proof.Machine

/-! PROOF. The three resets (O4 to O8, and the laws after one): what a reset loads before the end of its event, block by
block, and what the end of the event then leaves. -/

namespace Sys2Proof.Machine

/-! ## What a reset loads -/

/-- The blocks as a reset of a kind leaves them, before its event ends (R24, R48, R59, R67, R79, R101, R118, R137, R171,
R192, R193, R198, R203, R205). -/
structure ResetLoaded (s u : State) (kind : ResetKind) (inputs : ResetInputs) : Prop where
  pins : u.pins = ⟨inputs.presence, inputs.powerWarn⟩
  host : u.host = resetHost (rateOf inputs.baud1 inputs.baud0)
  notices : u.notices = if u.store.inForce.isNone then
    ⟨(s.imageTaken kind inputs).noticeMask, [⟨0, .settingsDefaulted⟩], 1, 0, true⟩
    else ⟨(s.imageTaken kind inputs).noticeMask, [], 0, 0, false⟩
  cause : u.cause = ⟨kind, !inputs.historyCheck, u.store.inForce.isNone⟩
  preparation : u.preparation = none
  store : u.store = ⟨s.store.sound inputs.copyCheck, copyInForce (s.store.sound inputs.copyCheck), none⟩
  slots : ∀ i, u.slot i = vacantSlot (namingChannel (fun d => (s.imageTaken kind inputs).channels[d.val].pair) i)
  debounce : ∀ i, u.debounceOf i =
    if inputs.presence[i.val] then some (s.imageTaken kind inputs).debounceTime else none
  debounceTime : u.debounceTime = (s.imageTaken kind inputs).debounceTime
  bus : u.bus = busAfterReset (s.imageTaken kind inputs)
  engine : u.engine = ⟨none, [], []⟩
  keys : u.keys = s.keys.afterReset kind
  tally : u.tally = ⟨Vector.replicate 4 resetHead, 0, 0, 0, inputs.tstrobe, []⟩
  channels : ∀ d, u.channel d = resetChannel (s.imageTaken kind inputs).channels[d.val]
  commits : ∀ i, u.commit i = initialCommit
  sense : u.sense = senseAfterReset (s.imageTaken kind inputs) inputs.powerWarn
  history : u.history = s.history.afterReset inputs.historyCheck
  pending : u.pending = s.pending

/-- With no copy in force the defaults are taken (R203). -/
theorem loadedImage_default {copies : Vector (Option SettingsCopy) 2} (h : copyInForce copies = none) :
    loadedImage copies = defaultImage := by
  simp only [loadedImage, h]

theorem copyInForce_some {copies : Vector (Option SettingsCopy) 2} {k : Fin 2} (h : copyInForce copies = some k) :
    ∃ c, copies[k.val] = some c := by
  unfold copyInForce at h
  split at h
  case h_1 a b first second =>
    split_ifs at h
    · cases h; exact ⟨a, first⟩
    · cases h; exact ⟨b, second⟩
  case h_2 a first _ => cases h; exact ⟨a, first⟩
  case h_3 b _ second => cases h; exact ⟨b, second⟩
  case h_4 => cases h

/-- With a copy in force its image is taken (R203). -/
theorem loadedImage_copy {copies : Vector (Option SettingsCopy) 2} {k : Fin 2} {c : SettingsCopy}
    (h : copyInForce copies = some k) (hc : copies[k.val] = some c) : loadedImage copies = c.image := by
  simp only [loadedImage, h, hc]

/-- A host reset under the lock keeps windows and policies, and no other item of the image. -/
theorem State.imageTaken_noticeMask (s : State) (kind : ResetKind) (inputs : ResetInputs) :
    (s.imageTaken kind inputs).noticeMask = (loadedImage (s.store.sound inputs.copyCheck)).noticeMask := by
  unfold State.imageTaken
  dsimp only
  split <;> rfl

/-- SETTINGS_DEFAULTED on an empty queue whose mask is the default one (R198, R203). -/
theorem NoticeUnit.raise_settingsDefaulted :
    NoticeUnit.raise ⟨BitVec.allOnes 18, [], 0, 0, false⟩ .settingsDefaulted =
      ⟨BitVec.allOnes 18, [⟨0, .settingsDefaulted⟩], 1, 0, true⟩ := by
  decide

theorem State.afterReset_loaded (s : State) (kind : ResetKind) (inputs : ResetInputs) :
    ∃ u, s.afterReset kind inputs = u.settle ∧ ResetLoaded s u kind inputs := by
  refine ⟨_, rfl, ?_⟩
  have debounce (i : SlotId) (time : Nat) :
      (inputs.presence.map fun level => if level then some time else none)[i.val] =
        if inputs.presence[i.val] then some time else none := Vector.getElem_map ..
  have slot (i : SlotId) (f : SlotId → SlotRecord) : (Vector.ofFn f)[i.val] = f i := Vector.getElem_ofFn ..
  have channel (d : ChannelId) (v : Vector SavedChannel 8) : (v.map resetChannel)[d.val] = resetChannel v[d.val] :=
    Vector.getElem_map ..
  have commit (i : SlotId) : (Vector.replicate 16 initialCommit)[i.val] = initialCommit := Vector.getElem_replicate ..
  split
  case isTrue defaulted =>
    have mask : (s.imageTaken kind inputs).noticeMask = BitVec.allOnes 18 := by
      rw [s.imageTaken_noticeMask, loadedImage_default (Option.isNone_iff_eq_none.1 defaulted)]
      rfl
    refine ⟨rfl, rfl, ?_, rfl, rfl, rfl, fun i => slot i _, fun i => debounce i _, rfl, rfl, rfl, rfl, rfl,
      fun d => channel d _, commit, rfl, rfl, rfl⟩
    simp only [State.raise, mask, NoticeUnit.raise_settingsDefaulted, defaulted, if_true]
  case isFalse inForce =>
    refine ⟨rfl, rfl, ?_, rfl, rfl, rfl, fun i => slot i _, fun i => debounce i _, rfl, rfl, rfl, rfl, rfl,
      fun d => channel d _, commit, rfl, rfl, rfl⟩
    simp only [inForce]
    rfl

/-! ## The three commands -/

theorem exec_powerOnReset (s : State) (inputs : ResetInputs) :
    exec (.powerOnReset inputs) s = .next (s.afterReset .powerOn inputs) := rfl

theorem exec_pinReset (s : State) (inputs : ResetInputs) :
    exec (.pinReset inputs) s = .next (s.afterReset .pin inputs) := rfl

theorem exec_hostReset_prepared {s : State} (prepared : s.resetPrepared = true) (inputs : ResetInputs) :
    exec (.hostReset inputs) s = .next (s.afterReset .host inputs) :=
  congrArg Host.Outcome.next (if_pos prepared)

theorem exec_hostReset_waits {s : State} (waits : s.resetPrepared = false) (inputs : ResetInputs) :
    exec (.hostReset inputs) s = .next s :=
  congrArg Host.Outcome.next (if_neg (by rw [waits]; exact Bool.false_ne_true))

/-! ## The laws after a reset -/

theorem defaultTable_lawful : tableLawful defaultTable := by
  intro k
  cases k <;> decide

theorem defaultImage_lawful : defaultImage.lawful := by
  refine ⟨fun w mem => ?_, defaultTable_lawful, defaultTable_lawful⟩
  rw [(Vector.mem_replicate.1 (Vector.mem_toList_iff.1 mem)).2]
  unfold Window.lawful
  decide

/-- R202, R203: the copies that are whole. -/
theorem SettingsStore.sound_copy (st : SettingsStore) (check : Vector Bool 2) (k : Fin 2) :
    (st.sound check)[k.val] =
      if check[k.val] = true ∧ (st.saving.map fun w => w.target) ≠ some k then st.copies[k.val] else none := by
  cases saving : st.saving <;> simp [SettingsStore.sound, saving]

theorem SettingsStore.sound_mem {st : SettingsStore} {check : Vector Bool 2} {k : Fin 2} {c : SettingsCopy}
    (h : (st.sound check)[k.val] = some c) : st.copies[k.val] = some c := by
  rw [SettingsStore.sound_copy] at h
  split at h
  · exact h
  · cases h

/-- The image a reset loads is as lawful as what is in force and saved. -/
theorem State.imageTaken_lawful {s : State} (h : s.tablesLawful) (kind : ResetKind) (inputs : ResetInputs) :
    (s.imageTaken kind inputs).lawful := by
  obtain ⟨windows, _, _, copies, _⟩ := h
  have loaded : (loadedImage (s.store.sound inputs.copyCheck)).lawful := by
    cases inForce : copyInForce (s.store.sound inputs.copyCheck) with
    | none => exact loadedImage_default inForce ▸ defaultImage_lawful
    | some k =>
      obtain ⟨c, copy⟩ := copyInForce_some inForce
      rw [loadedImage_copy inForce copy]
      have held := SettingsStore.sound_mem copy
      exact copies c (Vector.mem_toList_iff.2 (held ▸ Vector.getElem_mem k.isLt))
  unfold State.imageTaken
  dsimp only
  split
  · exact ⟨windows, loaded.2.1, loaded.2.2⟩
  · exact loaded

theorem resetLane_lawful (t : TableId) (l : LaneId) : (resetLane t).Lawful l where
  queue _ h := by cases h
  wire _ h := by cases h
  held _ h := by cases h

theorem resetChannel_permitLawful (saved : SavedChannel) : (resetChannel saved).permitLawful := by
  unfold Channel.permitLawful resetChannel
  dsimp only
  split <;> decide

section
variable {s u : State} {kind : ResetKind} {inputs : ResetInputs}

theorem ResetLoaded.lane (h : ResetLoaded s u kind inputs) (l : LaneId) : u.lane l = resetLane u.bus.requested := by
  simp only [State.lane, h.bus, busAfterReset, Vector.getElem_replicate]

theorem ResetLoaded.slotSense (h : ResetLoaded s u kind inputs) (i : SlotId) :
    u.slotSense i = resetSlotSense (s.imageTaken kind inputs).calibrations[i.val] := by
  simp only [State.slotSense, h.sense, senseAfterReset, Vector.getElem_map]

theorem ResetLoaded.noticesLawful (h : ResetLoaded s u kind inputs) : u.noticesLawful := by
  rw [State.noticesLawful, h.notices]
  split
  · exact ⟨Nat.le_of_ble_eq_true rfl, rfl⟩
  · exact ⟨Nat.zero_le 32, rfl⟩

theorem ResetLoaded.permitsLawful (h : ResetLoaded s u kind inputs) : u.permitsLawful := fun c =>
  (h.channels c) ▸ resetChannel_permitLawful _

theorem ResetLoaded.bounded (h : ResetLoaded s u kind inputs) : u.Bounded where
  failures i := by rw [h.commits i]; exact Nat.zero_le 3
  lanes l := by rw [h.lane l]; exact resetLane_lawful _ l
  injected := by rw [h.sense]; exact Nat.zero_le 8
  rings i := by rw [h.slotSense i]; exact Nat.zero_le 4

theorem ResetLoaded.remaindersLawful (h : ResetLoaded s u kind inputs) : u.remaindersLawful := fun c => by
  rw [h.channels c]
  exact ⟨Nat.zero_lt_succ _, Nat.zero_lt_succ _⟩

theorem ResetLoaded.totalsLawful (h : ResetLoaded s u kind inputs) : u.totalsLawful := fun c _ => by
  rw [h.channels c]
  rfl

theorem ResetLoaded.tablesLawful (h : ResetLoaded s u kind inputs) (lawful : s.tablesLawful) : u.tablesLawful := by
  obtain ⟨windows, tableA, tableB⟩ := State.imageTaken_lawful lawful kind inputs
  rw [State.tablesLawful, h.bus, h.store]
  refine ⟨windows, tableA, tableB, fun c mem => ?_, fun w saving => by cases saving⟩
  obtain ⟨k, lt, copy⟩ := Vector.mem_iff_getElem.1 (Vector.mem_toList_iff.1 mem)
  have held := SettingsStore.sound_mem (k := ⟨k, lt⟩) copy
  exact lawful.2.2.2.1 c (Vector.mem_toList_iff.2 (held ▸ Vector.getElem_mem lt))

end

/-! ## Every step -/

/-- A reset, when it takes effect, is the reset of its kind; a host reset that waits changes nothing. -/
theorem exec_reset_cases {c : Instr} (reset : isReset c = true) (s : State) :
    (∃ kind inputs, exec c s = .next (s.afterReset kind inputs) ∧ (kind = .host ↔ ∃ i, c = .hostReset i)) ∨
      exec c s = .next s := by
  cases c with
  | powerOnReset inputs => exact .inl ⟨.powerOn, inputs, rfl, by simp⟩
  | pinReset inputs => exact .inl ⟨.pin, inputs, rfl, by simp⟩
  | hostReset inputs =>
    cases prepared : s.resetPrepared with
    | true => exact .inl ⟨.host, inputs, exec_hostReset_prepared prepared inputs, fun _ => ⟨inputs, rfl⟩, fun _ => rfl⟩
    | false => exact .inr (exec_hostReset_waits prepared inputs)
  | _ => cases reset

/-- The laws of O57 to O59, kept, and the waiting commands. -/
structure StepKept (s t : State) : Prop where
  notices : s.noticesLawful → t.noticesLawful
  permits : s.permitsLawful → t.permitsLawful
  bounded : s.Bounded → t.Bounded
  remainders : s.remaindersLawful → t.remaindersLawful
  totals : s.totalsLawful → t.totalsLawful
  tables : s.tablesLawful → t.tablesLawful
  pending : t.pending = s.pending

/-- The laws are not about the Key Store. -/
theorem LawsKept.stepKept {s t : State} {k : KeyStore} (h : LawsKept { s with keys := k } t) : StepKept s t :=
  ⟨h.notices, h.permits, fun b => h.bounded (b.of_eq rfl rfl rfl rfl), h.remainders, h.totals, h.tables, h.pending⟩

theorem StepKept.afterReset (s : State) (kind : ResetKind) (inputs : ResetInputs) :
    StepKept s (s.afterReset kind inputs) := by
  obtain ⟨u, settled, loaded⟩ := s.afterReset_loaded kind inputs
  have worked : LawsKept u u.settle := (Undisturbed.refl u).settle.lawsKept
  rw [settled]
  exact ⟨fun _ => worked.notices loaded.noticesLawful, fun _ => worked.permits loaded.permitsLawful,
    fun _ => worked.bounded loaded.bounded, fun _ => worked.remainders loaded.remaindersLawful,
    fun _ => worked.totals loaded.totalsLawful, fun h => worked.tables (loaded.tablesLawful h),
    worked.pending.trans loaded.pending⟩

/-- Every command ends in a next state, which keeps the laws and the waiting commands. -/
theorem exec_stepKept (c : Instr) (s : State) : ∃ t, exec c s = .next t ∧ StepKept s t := by
  cases reset : isReset c with
  | true =>
    rcases exec_reset_cases reset s with ⟨kind, inputs, done, -⟩ | waits
    · exact ⟨_, done, .afterReset s kind inputs⟩
    · exact ⟨_, waits, (LawsKept.refl s).stepKept⟩
  | false =>
    cases keys : actsOnKeys c with
    | true =>
      obtain ⟨t, k, done, -, kept⟩ := exec_keys_advance c s keys
      exact ⟨t, done, kept.stepKept⟩
    | false =>
      obtain ⟨t, done, kept⟩ := exec_lawsKept c s reset keys
      exact ⟨t, done, kept.stepKept⟩

/-- A step keeps the laws; the queue loses the command it took. -/
theorem step_stepKept (s : State) : ∃ t, step s = .next t ∧ StepKept { s with pending := s.pending.tail } t := by
  unfold step
  split
  case h_1 empty =>
    refine ⟨_, rfl, ⟨id, id, fun b => b.of_eq rfl rfl rfl rfl, id, id, id, ?_⟩⟩
    rw [empty]
    exact empty
  case h_2 c rest front =>
    rw [front]
    exact exec_stepKept c _

theorem step_of_empty {s : State} (empty : s.pending = []) : step s = .next s.tick := by
  unfold step
  split
  case h_1 => rfl
  case h_2 front => exact nomatch empty.symm.trans front

/-- Settles O1: the front command is the one `step` carries out. -/
theorem step_takes_front_command : Obligations.Step_takes_front_command := by
  intro s c rest front
  rw [step, front]

/-- Settles O2, by the analysis of every command and of the step. -/
theorem every_command_completes : Obligations.Every_command_completes := by
  intro s
  refine ⟨fun c => ?_, ?_, fun empty => ?_⟩
  · obtain ⟨t, done, kept⟩ := exec_stepKept c s
    exact ⟨t, done, kept.pending⟩
  · obtain ⟨t, done, kept⟩ := step_stepKept s
    exact ⟨t, done, kept.pending⟩
  · exact step_of_empty empty

/-- A step's next state is the one that keeps the laws. -/
theorem step_next_kept {s t : State} (done : step s = .next t) : StepKept { s with pending := s.pending.tail } t := by
  obtain ⟨u, done', kept⟩ := step_stepKept s
  cases done.symm.trans done'
  exact kept

/-- Settles O57, by the relation every step keeps. -/
theorem every_step_keeps_the_lines_and_bounds : Obligations.Every_step_keeps_the_lines_and_bounds := by
  intro s t done
  have kept := step_next_kept done
  exact ⟨kept.notices, kept.permits, fun b => kept.bounded (b.of_eq rfl rfl rfl rfl)⟩

/-- Settles O58, by the relation every step keeps. -/
theorem every_step_conserves_ink : Obligations.Every_step_conserves_ink := by
  intro s t done
  have kept := step_next_kept done
  exact ⟨kept.remainders, kept.totals⟩

/-- Settles O59, by the relation every step keeps. -/
theorem every_step_keeps_the_tables : Obligations.Every_step_keeps_the_tables := by
  intro s t done
  exact (step_next_kept done).tables

/-! ## The keys and the frozen settings -/

/-- R65: a host reset keeps the Key Store, and under the lock the windows and the refill policies. -/
theorem State.afterReset_host_frozen (s : State) (inputs : ResetInputs) :
    (s.afterReset .host inputs).keys = s.keys ∧
      (s.keys.policyLock = true → (s.afterReset .host inputs).bus.windows = s.bus.windows ∧
        ∀ d, ((s.afterReset .host inputs).channel d).settings.refillPolicy = (s.channel d).settings.refillPolicy) := by
  obtain ⟨u, settled, loaded⟩ := s.afterReset_loaded .host inputs
  rw [settled]
  refine ⟨?_, fun lock => ?_⟩
  · rw [State.settle_keys, loaded.keys]
    rfl
  · have image : s.imageTaken .host inputs = s.frozen (loadedImage (s.store.sound inputs.copyCheck)) :=
      if_pos ⟨rfl, lock⟩
    refine ⟨?_, fun d => ?_⟩
    · rw [State.settle_bus, loaded.bus, image]
      rfl
    · rw [State.settle_channel, loaded.channels d, image]
      simp only [resetChannel, State.frozen, Vector.getElem_ofFn]

/-- Settles O60: resets, key commands and all others. -/
theorem keys_and_frozen_settings_are_kept : Obligations.Keys_and_frozen_settings_are_kept := by
  intro c s t done noReset
  cases reset : isReset c with
  | true =>
    rcases exec_reset_cases reset s with ⟨kind, inputs, done', host⟩ | waits
    · have isHost : kind = .host := by
        cases c with
        | hostReset i => exact host.2 ⟨i, rfl⟩
        | powerOnReset i => exact absurd rfl (noReset i).1
        | pinReset i => exact absurd rfl (noReset i).2
        | _ => cases reset
      subst isHost
      cases done.symm.trans done'
      obtain ⟨keys, frozen⟩ := s.afterReset_host_frozen inputs
      exact ⟨fun _ _ _ => keys, fun root h => keys ▸ h, fun lock => ⟨keys ▸ lock, frozen lock⟩⟩
    · cases done.symm.trans waits
      exact ⟨fun _ _ _ => rfl, fun _ => id, fun lock => ⟨lock, rfl, fun _ => rfl⟩⟩
  | false =>
    cases keys : actsOnKeys c with
    | true =>
      obtain ⟨t', k, done', advances, kept⟩ := exec_keys_advance c s keys
      cases done.symm.trans done'
      refine ⟨fun noProvision noWrite noLock => ?_, fun root h => ?_, fun lock => ?_⟩
      · cases c with
        | keyProvision tag body => exact absurd rfl (noProvision tag body)
        | keyCellWriteDone => exact absurd rfl noWrite
        | policyLock tag body => exact absurd rfl (noLock tag body)
        | _ => cases keys
      · rw [kept.keys]
        exact advances.root root h
      · have locked : k.policyLock = true := advances.lock lock
        exact ⟨by rw [kept.keys]; exact locked, kept.windows locked, kept.policies locked⟩
    | false =>
      obtain ⟨t', done', kept⟩ := exec_lawsKept c s reset keys
      cases done.symm.trans done'
      exact ⟨fun _ _ _ => kept.keys, fun root h => kept.keys ▸ h,
        fun lock => ⟨kept.keys ▸ lock, kept.windows lock, kept.policies lock⟩⟩

end Sys2Proof.Machine

/-! PROOF. The reset statements (O4 to O8) and the laws at the reset state (O56). -/

namespace Sys2Proof.Machine

section
variable {s t u : State} {kind : ResetKind} {inputs : ResetInputs}

/-! ## The part as delivered -/

/-- The kernel evaluates the power-on reset of the part as delivered: 16 VACANT slots are passed over and the conversion
of the reference starts. -/
theorem State.reset_powerOnReset :
    State.reset.afterReset .powerOn
      ⟨Vector.replicate 16 false, false, false, false, false, true, Vector.replicate 2 false⟩ = State.reset := by
  decide +kernel

theorem State.reset_slot (i : SlotId) : State.reset.slot i = vacantSlot none := Vector.getElem_replicate ..

theorem State.reset_channel (c : ChannelId) :
    State.reset.channel c = resetChannel ⟨defaultSettings c, none, false⟩ := Vector.getElem_ofFn ..

theorem State.reset_slotSense (i : SlotId) : State.reset.slotSense i = resetSlotSense defaultCalibration :=
  Vector.getElem_replicate ..

theorem vacantSlot_vacated (c : Option ChannelId) : (vacantSlot c).Vacated :=
  ⟨rfl, rfl, rfl, rfl, rfl, rfl, rfl, rfl, rfl, rfl, rfl⟩

/-- Settles O4, by evaluation of the reset. -/
theorem delivered_part_resets_to_itself : Obligations.Delivered_part_resets_to_itself := by
  refine ⟨congrArg Host.Outcome.next State.reset_powerOnReset, rfl, rfl, rfl, rfl, fun i => ?_, fun c => ?_, rfl, rfl, rfl,
    rfl, rfl, rfl, fun i => ?_, rfl⟩
  · rw [State.reset_slot]
    exact ⟨vacantSlot_vacated none, rfl⟩
  · rw [State.reset_channel]
    exact ⟨rfl, rfl, rfl⟩
  · rw [State.reset_slotSense]
    exact ⟨rfl, rfl⟩

/-! ## The blocks after a reset -/

/-- A reset that takes effect loads the blocks, and its event ends. -/
theorem exec_reset_loaded {c : Instr} (s : State)
    (reset : c = .powerOnReset inputs ∧ kind = .powerOn ∨ c = .pinReset inputs ∧ kind = .pin ∨
      c = .hostReset inputs ∧ kind = .host ∧ s.resetPrepared = true) :
    ∃ u, exec c s = .next u.settle ∧ ResetLoaded s u kind inputs := by
  obtain ⟨u, settled, loaded⟩ := s.afterReset_loaded kind inputs
  refine ⟨u, ?_, loaded⟩
  rw [← settled]
  rcases reset with ⟨rfl, rfl⟩ | ⟨rfl, rfl⟩ | ⟨rfl, rfl, prepared⟩
  · rfl
  · rfl
  · exact exec_hostReset_prepared prepared inputs

@[simp] theorem State.settle_sense_list (s : State) : s.settle.sense.list = s.sense.list :=
  (Undisturbed.refl s).settle.scanList

@[simp] theorem State.settle_sense_pause (s : State) : s.settle.sense.pause = s.sense.pause :=
  (Undisturbed.refl s).settle.pause

@[simp] theorem State.settle_debounceOf (s : State) (i : SlotId) : s.settle.debounceOf i = s.debounceOf i := by
  simp only [State.debounceOf, State.settle_debounce]

/-- R171: the Level Sense Unit as a reset leaves it, on the list, the pause and the items that it then has. -/
theorem senseAfterReset_eq (image : SettingsImage) (powerWarn : Bool) :
    senseAfterReset image powerWarn =
      { list := image.scanList
        pause := image.pause
        pendingScan := none
        scan := if powerWarn then .halted else if image.scanList = [] then .pausing else .running
        pauseTimer := none
        position := 0
        passConverted := false
        conversion := none
        run := none
        injected := []
        heldAdmissions := []
        reference := .unread
        lastReference := none
        deferred := 0
        passes := 0
        slots := image.calibrations.map resetSlotSense } := by
  simp only [senseAfterReset, List.isEmpty_iff]

/-- Settles O5, from what a reset loads. -/
theorem reset_of_slots_and_bus : Obligations.Reset_of_slots_and_bus := by
  intro s inputs c reset
  obtain ⟨kind, reset⟩ : ∃ kind : ResetKind, c = .powerOnReset inputs ∧ kind = .powerOn ∨ c = .pinReset inputs ∧ kind = .pin ∨
      c = .hostReset inputs ∧ kind = .host ∧ s.resetPrepared = true := by
    rcases reset with rfl | rfl | ⟨rfl, prepared⟩
    · exact ⟨.powerOn, .inl ⟨rfl, rfl⟩⟩
    · exact ⟨.pin, .inr (.inl ⟨rfl, rfl⟩)⟩
    · exact ⟨.host, .inr (.inr ⟨rfl, rfl, prepared⟩)⟩
  obtain ⟨u, done, h⟩ := exec_reset_loaded s reset
  refine ⟨_, done, ?_, fun i => ?_, fun l => ?_, ?_, ?_, ?_, ?_, u, rfl, ?_, fun i => ?_⟩
  · rw [State.settle_pins, h.pins]
  · simp only [State.settle_slot, State.settle_channel, State.settle_commit, State.settle_bus, State.settle_debounceOf,
      State.settle_debounceTime, h.slots, h.channels, h.commits, h.bus, h.debounce, h.debounceTime]
    exact ⟨vacantSlot_vacated _, rfl, rfl, Vector.getElem_replicate .., trivial⟩
  · rw [State.settle_lane, State.settle_bus, h.lane l]
    rfl
  · rw [State.settle_bus, h.bus]
    rfl
  · rw [State.settle_bus, h.bus]
    rfl
  · rw [State.settle_engine, h.engine]
  · rw [State.settle_tally, h.tally]
    rfl
  · rw [State.settle_sense_list, State.settle_sense_pause, State.settle_items, h.sense, senseAfterReset_eq]
  · rw [State.settle_slotSense, h.slotSense i]
    rfl

/-! ## The channels, the History Unit, the link and the settings after a reset -/

/-- R192: with an empty store queue no write starts at the event's end. -/
theorem State.settle_history_of_empty (urgent : s.history.urgent = []) (ordinary : s.history.ordinary = [])
    (writing : s.history.writing = none) : s.settle.history = s.history := by
  have history : s.converterWork.history = s.history := ((AccountsKept.refl s).converterWork).history
  have idle : s.converterWork.startWrite = s.converterWork := by
    rw [State.startWrite, history, urgent, ordinary, writing]
  rw [State.settle, idle, history]

/-- R191: with no host reset in preparation none is after the event's end. -/
theorem State.settle_preparation_of_none (h : s.preparation = none) : s.settle.preparation = none := by
  have kept : _ = s.preparation.map _ := (Undisturbed.refl s).settle.preparation
  rwa [h, Option.map_none, Option.map_eq_none_iff] at kept

/-- The stamp of a place, 0 when it is empty. -/
def placeStamp (e : Option HistoryEntry) : Nat := (e.map fun x => x.stamp).getD 0

theorem foldl_max_le {l : List (Option HistoryEntry)} {n m : Nat} (start : n ≤ m) (all : ∀ e ∈ l, placeStamp e ≤ m) :
    l.foldl (fun n e => max n (placeStamp e)) n ≤ m := by
  induction l generalizing n with
  | nil => exact start
  | cons e l ih =>
    rw [List.forall_mem_cons] at all
    exact ih (max_le start all.1) all.2

theorem le_foldl_max (l : List (Option HistoryEntry)) (n : Nat) :
    n ≤ l.foldl (fun n e => max n (placeStamp e)) n ∧
      ∀ e ∈ l, placeStamp e ≤ l.foldl (fun n e => max n (placeStamp e)) n := by
  induction l generalizing n with
  | nil => exact ⟨le_rfl, fun _ h => nomatch h⟩
  | cons e l ih =>
    obtain ⟨start, all⟩ := ih (max n (placeStamp e))
    rw [List.forall_mem_cons]
    exact ⟨(le_max_left _ _).trans start, (le_max_right _ _).trans start, all⟩

theorem foldl_max_attained (l : List (Option HistoryEntry)) (n : Nat) :
    l.foldl (fun n e => max n (placeStamp e)) n = n ∨
      ∃ e ∈ l, placeStamp e = l.foldl (fun n e => max n (placeStamp e)) n := by
  induction l generalizing n with
  | nil => exact .inl rfl
  | cons e l ih =>
    rcases ih (max n (placeStamp e)) with here | ⟨x, mem, stamp⟩
    · rcases max_choice n (placeStamp e) with m | m
      · exact .inl (here.trans m)
      · exact .inr ⟨e, List.mem_cons_self, (here.trans m).symm⟩
    · exact .inr ⟨x, List.mem_cons_of_mem _ mem, stamp⟩

/-- R173: no stamp of a table is above its highest. -/
theorem stamp_le_topStamp {places : Vector (Option HistoryEntry) 64} {p : PlaceId} {e : HistoryEntry}
    (h : places[p.val] = some e) : e.stamp ≤ topStamp places := by
  have mem : some e ∈ places.toList := Vector.mem_toList_iff.2 (h ▸ Vector.getElem_mem p.isLt)
  exact (le_foldl_max places.toList 0).2 _ mem

/-- R173: the highest stamp is 0 or an entry's. -/
theorem topStamp_attained (places : Vector (Option HistoryEntry) 64) :
    topStamp places = 0 ∨ ∃ (p : PlaceId) (e : HistoryEntry), places[p.val] = some e ∧ e.stamp = topStamp places := by
  rcases foldl_max_attained places.toList 0 with zero | ⟨e, mem, stamp⟩
  · exact .inl zero
  · obtain ⟨p, lt, rfl⟩ := Vector.mem_iff_getElem.1 (Vector.mem_toList_iff.1 mem)
    cases entry : places[p] with
    | none =>
      rw [entry] at stamp
      exact .inl stamp.symm
    | some e =>
      rw [entry] at stamp
      exact .inr ⟨⟨p, lt⟩, e, entry, stamp⟩

/-- R203: which copy is in force. -/
theorem copyInForce_eq (copies : Vector (Option SettingsCopy) 2) :
    copyInForce copies = match copies[0], copies[1] with
      | some a, some b =>
        if a.saveCount = (b.saveCount + 1) % 4294967296 then some 0
        else if b.saveCount = (a.saveCount + 1) % 4294967296 then some 1
        else none
      | some _, none => some 0
      | none, some _ => some 1
      | none, none => none := by
  unfold copyInForce oneAbove
  simp only [decide_eq_true_eq]
  rfl

/-- The settings a reset takes, from the copy in force or the defaults. -/
theorem State.imageTaken_of_loaded {image : SettingsImage}
    (none : copyInForce (s.store.sound inputs.copyCheck) = none → image = defaultImage)
    (copy : ∀ (k : Fin 2) (v : SettingsCopy), copyInForce (s.store.sound inputs.copyCheck) = some k →
      (s.store.sound inputs.copyCheck)[k.val] = some v → image = v.image) :
    s.imageTaken kind inputs =
      if kind = .host ∧ s.keys.policyLock = true then s.frozen image else image := by
  have loaded : loadedImage (s.store.sound inputs.copyCheck) = image := by
    cases inForce : copyInForce (s.store.sound inputs.copyCheck) with
    | none => rw [loadedImage_default inForce, none inForce]
    | some k =>
      obtain ⟨v, held⟩ := copyInForce_some inForce
      rw [loadedImage_copy inForce held, copy k v inForce held]
  rw [State.imageTaken, loaded]

theorem State.frozen_channel (s : State) (image : SettingsImage) (d : ChannelId) :
    (s.frozen image).channels[d.val] = { image.channels[d.val] with
      settings := { image.channels[d.val].settings with
        refillPolicy := (s.channel d).settings.refillPolicy } } := Vector.getElem_ofFn ..

/-- The settings of every block after a reset (R65, R203). -/
theorem ResetLoaded.settings (h : ResetLoaded s u kind inputs) {image : SettingsImage}
    (taken : s.imageTaken kind inputs =
      if kind = .host ∧ s.keys.policyLock = true then s.frozen image else image) :
    (∀ d : ChannelId,
      (u.channel d).state = (if image.channels[d.val].enabled then .unsupplied else .idle) ∧
      (u.channel d).pair = image.channels[d.val].pair ∧
      (u.channel d).settings =
        if kind = .host ∧ s.keys.policyLock = true then
          { image.channels[d.val].settings with refillPolicy := (s.channel d).settings.refillPolicy }
        else image.channels[d.val].settings) ∧
    u.bus.windows = (if kind = .host ∧ s.keys.policyLock = true then s.bus.windows else image.windows) ∧
    u.bus.tableA = image.tableA ∧ u.bus.tableB = image.tableB ∧ u.bus.requested = image.requested ∧
    u.sense.list = image.scanList ∧ u.sense.pause = image.pause ∧ u.debounceTime = image.debounceTime ∧
    (∀ i, (u.slotSense i).offset = image.calibrations[i.val].offset ∧
      (u.slotSense i).gain = image.calibrations[i.val].gain) ∧
    u.notices.mask = image.noticeMask := by
  have mask : u.notices.mask = (s.imageTaken kind inputs).noticeMask := by
    rw [h.notices]
    split <;> rfl
  simp only [h.channels, h.bus, h.sense, h.debounceTime, h.slotSense, mask, taken]
  split
  · refine ⟨fun d => ?_, rfl, rfl, rfl, rfl, rfl, rfl, rfl, fun _ => ⟨rfl, rfl⟩, rfl⟩
    rw [State.frozen_channel]
    exact ⟨rfl, rfl, rfl⟩
  · exact ⟨fun _ => ⟨rfl, rfl, rfl⟩, rfl, rfl, rfl, rfl, rfl, rfl, rfl, fun _ => ⟨rfl, rfl⟩, rfl⟩

/-- Settles O6, from what a reset loads. -/
theorem reset_of_channels_and_link : Obligations.Reset_of_channels_and_link := by
  intro s inputs c kind reset
  obtain ⟨u, done, h⟩ := exec_reset_loaded s reset
  have history : u.settle.history = s.history.afterReset inputs.historyCheck := by
    rw [State.settle_history_of_empty (by rw [h.history]; rfl) (by rw [h.history]; rfl) (by rw [h.history]; rfl),
      h.history]
  refine ⟨_, done, fun d => ?_, ?_⟩
  · rw [State.settle_channel, h.channels]
    refine ⟨?_, rfl, rfl, rfl, rfl, rfl, rfl, rfl, rfl, rfl, rfl, rfl⟩
    unfold resetChannel
    dsimp only
    split
    · exact .inr rfl
    · exact .inl rfl
  · have place (p : PlaceId) : u.settle.place p = (s.history.afterReset inputs.historyCheck).places[p.val] := by
      rw [State.place, history]
    simp only [place, history, State.settle_cause, State.settle_host, State.settle_notices, State.settle_store,
      State.settle_preparation_of_none h.preparation, State.settle_channel, State.settle_bus, State.settle_sense_list,
      State.settle_sense_pause, State.settle_debounceTime, State.settle_slotSense]
    refine ⟨rfl, rfl, rfl, rfl, rfl, rfl, rfl, fun p e => stamp_le_topStamp, topStamp_attained _, h.cause, h.host,
      ?_, ?_, ?_, ?_, trivial, ?_, fun k => ?_, ?_, fun image none copy => ?_⟩
    · rw [h.notices]
      split <;> rfl
    · rw [h.notices]
      split <;> rfl
    · rw [h.notices]
      split <;> rfl
    · rw [h.notices]
      split
      case isTrue defaulted => exact defaulted.symm
      case isFalse loaded => exact (Bool.eq_false_of_not_eq_true loaded).symm
    · rw [h.store]
    · simp only [h.store]
      exact SettingsStore.sound_copy _ _ k
    · simp only [h.store]
      exact copyInForce_eq _
    · simp only [h.store] at none copy
      exact h.settings (State.imageTaken_of_loaded none copy)

/-! ## The keys at a reset -/

/-- Settles O7: the Key Store as `KeyStore.afterReset` says, and what a host reset freezes. -/
theorem reset_of_keys_and_lock : Obligations.Reset_of_keys_and_lock := by
  intro s inputs
  refine ⟨fun c reset => ?_, fun prepared => ?_⟩
  · obtain ⟨kind, reset, notHost⟩ : ∃ kind : ResetKind, (c = .powerOnReset inputs ∧ kind = .powerOn ∨
        c = .pinReset inputs ∧ kind = .pin ∨ c = .hostReset inputs ∧ kind = .host ∧ s.resetPrepared = true) ∧
        s.keys.afterReset kind = ⟨s.keys.cell.read, s.keys.cell, none, false⟩ := by
      rcases reset with rfl | rfl
      · exact ⟨.powerOn, .inl ⟨rfl, rfl⟩, rfl⟩
      · exact ⟨.pin, .inr (.inl ⟨rfl, rfl⟩), rfl⟩
    obtain ⟨u, done, h⟩ := exec_reset_loaded s reset
    refine ⟨_, done, ?_⟩
    rw [State.settle_keys, h.keys, notHost]
    exact ⟨rfl, rfl, rfl, fun blank => by rw [blank]; rfl, fun root written => by rw [written]; rfl,
      fun damaged => by rw [damaged]; rfl⟩
  · exact ⟨_, exec_hostReset_prepared prepared inputs, s.afterReset_host_frozen inputs⟩

/-- Settles O8: each of the four ways in which the preparation has not ended. -/
theorem host_reset_waits : Obligations.Host_reset_waits := by
  intro s inputs waiting
  refine exec_hostReset_waits ?_ inputs
  unfold State.resetPrepared
  cases preparation : s.preparation with
  | none => rfl
  | some p =>
    rcases waiting p preparation with unsent | waits | key | ⟨w, writing, forReset⟩
    · simp [unsent]
    · simp [waits]
    · simp [key]
    · simp [writing, forReset]

/-- Settles O56: `State.reset` is the reset of the part as delivered, so it has the laws a reset leaves. -/
theorem laws_hold_at_reset : Obligations.Laws_hold_at_reset := by
  obtain ⟨u, settled, h⟩ := State.reset.afterReset_loaded .powerOn
    ⟨Vector.replicate 16 false, false, false, false, false, true, Vector.replicate 2 false⟩
  rw [State.reset_powerOnReset] at settled
  have worked : LawsKept u State.reset := settled ▸ (LawsKept.refl u).settle
  refine ⟨worked.notices h.noticesLawful, worked.permits h.permitsLawful, worked.bounded h.bounded, ?_,
    worked.remainders h.remaindersLawful, worked.totals h.totalsLawful⟩
  refine ⟨defaultImage_lawful.1, defaultTable_lawful, defaultTable_lawful, fun c mem => ?_, fun w saving => nomatch saving⟩
  exact nomatch (Vector.mem_replicate.1 (Vector.mem_toList_iff.1 mem)).2

end

end Sys2Proof.Machine

/-! PROOF. The host link (O15 to O19): frames that are not acted on, BUSY, refusals at the link, the end of a
transmission, and a frame received byte by byte. -/

namespace Sys2Proof.Machine

section
variable {s t : State} {kind tag : Byte}

/-! ## Frames that are not acted on -/

/-- R194: a bad frame is counted, and answered when there is a place for the answer. -/
theorem HostLink.badFrame_eq (h : HostLink) : h.badFrame =
    if h.placeFull then
      { h with
        receiver := .hunting
        badFrames := min 65535 (h.badFrames + 1)
        overruns := min 65535 (h.overruns + 1) }
    else if h.transmitting = none then
      { h with
        receiver := .hunting
        badFrames := min 65535 (h.badFrames + 1)
        transmitting := some (.answer .badFrame) }
    else
      { h with
        receiver := .hunting
        badFrames := min 65535 (h.badFrames + 1)
        outgoing := h.outgoing ++ [.answer .badFrame] } := by
  unfold HostLink.badFrame HostLink.answer HostLink.placeFull HostLink.owe
  dsimp only
  split
  · rfl
  · cases free : h.transmitting <;> rfl

theorem Receiver.isCollecting_iff (r : Receiver) : r.isCollecting = true ↔ r ≠ .hunting := by
  cases r <;> simp [Receiver.isCollecting]

/-- Settles O15, by `HostLink.badFrame` and `HostLink.discardPartial`. -/
theorem frames_not_acted_on : Obligations.Frames_not_acted_on := by
  intro s
  refine ⟨fun c bad => ?_, rfl, fun midFrame => ?_⟩
  · rw [← HostLink.badFrame_eq]
    rcases bad with rfl | rfl <;> rfl
  · change execMissingStopBit midFrame s = _
    simp only [execMissingStopBit, Bool.or_eq_true, Receiver.isCollecting_iff]
    rfl

/-! ## Requests that are not served -/

/-- What the link does with a request frame that it does not serve: BUSY while WORKING, and from READY the refusal of a
body of the wrong length. -/
structure RequestEnds (s : State) (f : RequestFrame) (t : State) : Prop where
  busy : s.host.working = true → Ended { s with host := s.hostBusy f.kind f.tag } t
  wrongLength : s.host.working = false → f.wrongLength = true → Ended (s.answering f.kind f.tag .badArgument .none) t

theorem bodyFrame_kind {α : Type} (b : Body α) (kind tag : Byte) : (bodyFrame b kind tag).kind = kind := by
  cases b <;> rfl

theorem bodyFrame_tag {α : Type} (b : Body α) (kind tag : Byte) : (bodyFrame b kind tag).tag = tag := by
  cases b <;> rfl

theorem RequestEnds.request {α : Type} (s : State) (kind tag : Byte) (body : Body α)
    (serve : α → State → State × Answer) : RequestEnds s (bodyFrame body kind tag) (s.request kind tag body serve) where
  busy working := .inl (by rw [bodyFrame_kind, bodyFrame_tag, State.request_working body serve working])
  wrongLength ready wrong := by
    cases body with
    | wrongLength => exact .inl (State.request_wrongLength serve ready)
    | fields => exact nomatch wrong

theorem RequestEnds.settled {α : Type} (s : State) (kind tag : Byte) (body : Body α)
    (serve : α → State → State × Answer) :
    RequestEnds s (bodyFrame body kind tag) (s.request kind tag body serve).settle where
  busy working := .inr (by rw [bodyFrame_kind, bodyFrame_tag, State.request_working body serve working])
  wrongLength ready wrong := by
    cases body with
    | wrongLength => exact .inr (by rw [State.request_wrongLength serve ready]; rfl)
    | fields => exact nomatch wrong

/-- SETTINGS_SAVE is answered at the end of its write, but refused like any request. -/
theorem RequestEnds.settingsSave (s : State) (tag : Byte) (body : Body Unit) :
    ∃ t, execSettingsSave tag body s = .next t ∧ RequestEnds s (bodyFrame body 0x1B tag) t := by
  refine ⟨_, rfl, ⟨fun working => .inl ?_, fun ready wrong => .inl ?_⟩⟩
  · rw [if_pos working, bodyFrame_kind, bodyFrame_tag, ← HostLink.answerBusy_eq]
    rfl
  · rw [if_neg (by rw [ready]; exact Bool.false_ne_true)]
    cases body with
    | wrongLength => exact State.sendReply_answering (only .badArgument) s.beginRequest_working
    | fields => exact nomatch wrong

/-- Every request of Table 11-3. -/
theorem exec_requestEnds {c : Instr} {f : RequestFrame} (h : requestFrameOf c = some f) (s : State) :
    ∃ t, exec c s = .next t ∧ RequestEnds s f t := by
  cases c with
  | settingsSave tag body =>
    cases h
    exact RequestEnds.settingsSave s tag body
  | statusGet | slotGet | channelGet | historyGet | protectionGet | scheduleLoad | scheduleSelect | windowSet | policyLock
  | noticeGet | noticeMaskSet =>
    cases h
    exact ⟨_, rfl, .request ..⟩
  | channelSet | channelEnable | channelDisable | supplyMapSet | reserve | release | serviceDraw | commitNow | sense
  | scanSet | sensorCal | tagRead | tagWrite | historyClear | keyProvision | reset =>
    cases h
    exact ⟨_, rfl, .settled ..⟩
  | _ => cases h

/-- Settles O16, by `exec_requestEnds` and the request that UNKNOWN_KIND is. -/
theorem busy_frames : Obligations.Busy_frames := by
  intro s kind tag
  refine ⟨fun working => ⟨fun c wrong request => ?_, fun unknown => ?_, ?_⟩, fun ready => ?_⟩
  · obtain ⟨t, done, ends⟩ := exec_requestEnds request s
    exact ⟨t, done, ends.busy working⟩
  · change execUnknownKind kind tag s = _
    rw [execUnknownKind, unknown, State.request_working _ _ working]
    rfl
  · change execBusyAnswer kind tag s = _
    rw [execBusyAnswer, if_pos working, State.updHost, HostLink.answerBusy_eq]
  · change execBusyAnswer kind tag s = _
    rw [execBusyAnswer, ready]
    rfl

theorem knownKind_iff (kind : Byte) : knownKind kind = true ↔ 1 ≤ kind.toNat ∧ kind.toNat ≤ 0x1C := by
  rw [knownKind, Bool.and_eq_true, decide_eq_true_eq, decide_eq_true_eq]

/-- Settles O17, by `exec_requestEnds` and the two ranges of kinds. -/
theorem refused_at_the_link : Obligations.Refused_at_the_link := by
  intro s kind tag ready
  refine ⟨fun c request => ?_, fun unknown => ?_, fun known => ?_⟩
  · obtain ⟨t, done, ends⟩ := exec_requestEnds request s
    exact ⟨t, done, ends.wrongLength ready rfl⟩
  · have notKnown : ¬knownKind kind = true := by
      rw [knownKind_iff]
      omega
    change execUnknownKind kind tag s = _
    rw [execUnknownKind, if_neg notKnown, State.request_ready _ _ ready]
    exact congrArg _ (State.sendReply_answering (only .unknownKind) s.beginRequest_working)
  · exact congrArg Host.Outcome.next (if_pos ((knownKind_iff kind).2 known))

/-! ## The end of a transmission -/

/-- R195: the transmitter takes the next owed frame, and nothing else of the link changes. -/
theorem HostLink.nextFrame_eq (h : HostLink) :
    h.nextFrame = { h with transmitting := h.outgoing.head?, outgoing := h.outgoing.tail } := by
  unfold HostLink.nextFrame
  split
  case h_1 empty => rw [empty]; rfl
  case h_2 f rest owed => rw [owed]; rfl

theorem State.frameSent_answer {a : OwedAnswer} (sending : s.host.transmitting = some (.answer a)) :
    s.frameSent = { s with host :=
      { s.host with transmitting := s.host.outgoing.head?, outgoing := s.host.outgoing.tail } } := by
  rw [State.frameSent, sending]
  dsimp only [State.updHost]
  rw [HostLink.nextFrame_eq]

theorem State.frameSent_reply {r : Reply} (sending : s.host.transmitting = some (.reply r))
    (noReset : s.preparation = none) :
    s.frameSent = { s with host :=
      { s.host with transmitting := s.host.outgoing.head?, outgoing := s.host.outgoing.tail, working := false } } := by
  rw [State.frameSent, sending]
  dsimp only [State.updHost]
  rw [noReset]
  dsimp only
  rw [HostLink.nextFrame_eq]

/-- R204: the reply to RESET leaves the link WORKING. -/
theorem State.frameSent_resetReply {r : Reply} {p : ResetPreparation}
    (sending : s.host.transmitting = some (.reply r)) (reset : s.preparation = some p) :
    s.frameSent = { s with
      preparation := some { p with replySent := true }
      host := { s.host with transmitting := s.host.outgoing.head?, outgoing := s.host.outgoing.tail } } := by
  rw [State.frameSent, sending]
  dsimp only [State.updHost]
  rw [reset]
  dsimp only
  rw [HostLink.nextFrame_eq]

/-- Settles O18: no frame, an answer, and a reply without and with a host reset in preparation. -/
theorem frame_sent : Obligations.Frame_sent := by
  intro s
  refine ⟨fun idle => ?_, fun f sending => ?_⟩
  · change Host.Outcome.next s.frameSent = _
    rw [State.frameSent, idle]
  · cases f with
    | answer a =>
      exact ⟨_, congrArg Host.Outcome.next (State.frameSent_answer sending), rfl, rfl, rfl, rfl, fun _ h => (nomatch h),
        fun _ _ h => (nomatch h), fun _ _ => ⟨rfl, rfl⟩⟩
    | reply r =>
      cases preparation : s.preparation with
      | none =>
        exact ⟨_, congrArg Host.Outcome.next (State.frameSent_reply sending preparation), rfl, rfl, rfl, rfl,
          fun _ _ _ => ⟨rfl, preparation⟩, fun _ _ _ h => (nomatch h), fun _ h => (nomatch h)⟩
      | some p =>
        refine ⟨_, congrArg Host.Outcome.next (State.frameSent_resetReply sending preparation), rfl, rfl, rfl, rfl,
          fun _ _ h => (nomatch h), fun _ q _ h => ?_, fun _ h => (nomatch h)⟩
        cases h
        exact ⟨rfl, rfl⟩

/-! ## A frame received byte by byte -/

/-- A byte taken by a receiver that hands on commands: the receiver and the commands after it. -/
def feedByte (x : Receiver × List Instr) (b : Byte) : Receiver × List Instr :=
  ((x.1.feed b).1, x.2 ++ (x.1.feed b).2.toList)

theorem feedByte_partial {bytes : List Byte} {b : Byte} (h : readGathered (bytes ++ [b]) = .partialFrame) :
    feedByte (.collecting bytes, []) b = (.collecting (bytes ++ [b]), []) := by
  simp only [feedByte, Receiver.feed, h]
  rfl

theorem feedByte_complete {bytes : List Byte} {b : Byte} {c : Instr}
    (h : readGathered (bytes ++ [b]) = .complete c) : feedByte (.collecting bytes, []) b = (.hunting, [c]) := by
  simp only [feedByte, Receiver.feed, h]
  rfl

/-- Bytes of which no beginning completes a frame are gathered. -/
theorem feed_gathers {l : List Byte} {n : Nat} (le : n ≤ l.length)
    (h : ∀ m, 0 < m → m ≤ n → readGathered (l.take m) = .partialFrame) :
    (l.take n).foldl feedByte (.collecting [], []) = (.collecting (l.take n), []) := by
  induction n with
  | zero => rfl
  | succ n ih =>
    have last : l.take (n + 1) = l.take n ++ [l[n]] := (List.take_append_getElem le).symm
    have before := ih (Nat.le_of_succ_le le) fun m pos lt => h m pos (Nat.le_succ_of_le lt)
    rw [last, List.foldl_append, before]
    exact feedByte_partial (last ▸ h (n + 1) (Nat.succ_pos n) le_rfl)

theorem natOf_two (a b : Byte) : natOf [a, b] = a.toNat * 256 + b.toNat := by
  simp [natOf]

theorem natOf_bytesOf_two {n : Nat} (h : n < 65536) : natOf (bytesOf 2 n) = n := by
  rw [show bytesOf 2 n = [BitVec.ofNat 8 (n / 256), BitVec.ofNat 8 n] by simp [bytesOf], natOf_two]
  simp only [BitVec.toNat_ofNat]
  omega

/-- What follows the start byte in a host frame: length, kind, tag, body and CRC (Table 11-7). -/
def frameContent (kind tag : Byte) (body : List Byte) : List Byte := w2 body.length ++ [kind, tag] ++ body

theorem w2_length (n : Nat) : (w2 n).length = 2 := rfl

theorem crc16Bytes_length (l : List Byte) : (crc16Bytes l).length = 2 := rfl

theorem frameContent_length (kind tag : Byte) (body : List Byte) :
    (frameContent kind tag body).length = body.length + 4 := by
  simp only [frameContent, List.length_append, w2_length, List.length_cons, List.length_nil]
  omega

theorem hostFrame_eq (kind tag : Byte) (body : List Byte) :
    hostFrame kind tag body = 0xA5 :: (frameContent kind tag body ++ crc16Bytes (frameContent kind tag body)) := rfl

/-- The length field of a frame, once its two bytes are there. -/
theorem frame_lengthField {kind tag : Byte} {body : List Byte} (small : body.length ≤ 2048) {m : Nat} (two : 2 ≤ m) :
    fieldAt ((frameContent kind tag body ++ crc16Bytes (frameContent kind tag body)).take m) 0 2 = body.length := by
  have first : ((frameContent kind tag body ++ crc16Bytes (frameContent kind tag body)).take m).take 2 =
      w2 body.length := by
    rw [List.take_take, Nat.min_eq_left two, frameContent, List.append_assoc, List.append_assoc,
      List.take_left' (w2_length _)]
  rw [fieldAt, List.drop_zero, first, w2, natOf_bytesOf_two (by omega)]

theorem readGathered_partial {kind tag : Byte} {body : List Byte} (small : body.length ≤ 2048) {m : Nat}
    (lt : m < body.length + 6) :
    readGathered ((frameContent kind tag body ++ crc16Bytes (frameContent kind tag body)).take m) = .partialFrame := by
  have length : ((frameContent kind tag body ++ crc16Bytes (frameContent kind tag body)).take m).length = m := by
    rw [List.length_take, List.length_append, frameContent_length, crc16Bytes_length]
    omega
  unfold readGathered
  rw [length]
  split
  · rfl
  · dsimp only
    rw [frame_lengthField small (by omega), if_neg (show ¬bodyMax < body.length from Nat.not_lt.2 small), if_pos lt]

theorem readGathered_complete {kind tag : Byte} {body : List Byte} (small : body.length ≤ 2048) :
    readGathered (frameContent kind tag body ++ crc16Bytes (frameContent kind tag body)) =
      .complete (readRequest kind tag body) := by
  have content := frameContent_length kind tag body
  have length : (frameContent kind tag body ++ crc16Bytes (frameContent kind tag body)).length = body.length + 6 := by
    rw [List.length_append, content, crc16Bytes_length]
  have field := frame_lengthField (kind := kind) (tag := tag) small (m := body.length + 6) (by omega)
  rw [List.take_of_length_le length.le] at field
  have rest : (frameContent kind tag body ++ crc16Bytes (frameContent kind tag body)).drop 2 =
      kind :: tag :: (body ++ crc16Bytes (frameContent kind tag body)) := by
    conv_lhs => rw [frameContent, List.append_assoc, List.append_assoc, List.drop_left' (w2_length _)]
    rfl
  unfold readGathered
  rw [length, if_neg (by omega)]
  dsimp only
  rw [field, if_neg (show ¬bodyMax < body.length from Nat.not_lt.2 small), if_neg (lt_irrefl _),
    List.drop_left' content, List.take_left' content, if_pos rfl, rest]
  dsimp only
  rw [List.take_left' rfl]

/-- Settles O19: the start byte, the bytes that gather, and the last one. -/
theorem host_frames_are_received : Obligations.Host_frames_are_received := by
  intro kind tag body small
  have start : feedByte (.hunting, []) 0xA5 = (.collecting [], []) := rfl
  have length : (frameContent kind tag body ++ crc16Bytes (frameContent kind tag body)).length = body.length + 6 := by
    rw [List.length_append, frameContent_length, crc16Bytes_length]
  have gathers (n : Nat) (lt : n < body.length + 6) :=
    feed_gathers (l := frameContent kind tag body ++ crc16Bytes (frameContent kind tag body)) (n := n) (by omega)
      fun m _ le => readGathered_partial small (by omega)
  rw [hostFrame_eq]
  refine ⟨fun n lt => ?_, ?_⟩
  · rw [List.length_cons, length] at lt
    exact ⟨_, gathers n (by omega)⟩
  · change (frameContent kind tag body ++ crc16Bytes (frameContent kind tag body)).foldl feedByte
      (feedByte (.hunting, []) 0xA5) = _
    have last := List.take_append_getElem (l := frameContent kind tag body ++ crc16Bytes (frameContent kind tag body))
      (i := body.length + 5) (by omega)
    rw [List.take_of_length_le length.le] at last
    have completes := feedByte_complete (c := readRequest kind tag body) (by
      rw [last]
      exact readGathered_complete small)
    rw [start]
    conv_lhs => rw [← last]
    rw [List.foldl_append, gathers _ (by omega)]
    exact completes

end

end Sys2Proof.Machine

/-! PROOF. Requests answered from the READY link (O20, O22, O34, O41, O43) and two plain events (O11, O45). -/

namespace Sys2Proof.Machine

section
variable {s t u : State} {tag kind : Byte}

/-! ## A request served -/

/-- What a block leaves of a request, and what it answers, is the state after it. -/
theorem State.request_serves {α : Type} {serve : α → State → State × Answer} {f : α} {status : Status}
    {fields : ReplyFields} (ready : s.host.working = false)
    (served : serve f s.beginRequest = (u.beginRequest, ⟨status, fields⟩)) :
    s.request kind tag (.fields f) serve = u.answering kind tag status fields := by
  rw [State.request_ready _ _ ready, served]
  exact (State.sendReply_answering _ u.beginRequest_working).trans (State.answering_beginRequest _ _)

/-- R46: a violation does not touch the host link. -/
theorem State.violation_beginRequest (s : State) (v : Violation) :
    s.beginRequest.violation v = (s.violation v).beginRequest := by
  unfold State.violation
  split
  case isTrue empty => rw [if_pos (show s.bus.protection.count = 0 from empty)]; rfl
  case isFalse recorded => rw [if_neg (show ¬s.bus.protection.count = 0 from recorded)]; rfl

/-- R46: a violation after the first counts. -/
theorem State.violation_of_recorded (v : Violation) (recorded : 0 < s.bus.protection.count) :
    s.violation v = { s with bus := { s.bus with protection :=
      { s.bus.protection with count := min 65535 (s.bus.protection.count + 1) } } } :=
  if_neg (Nat.ne_of_gt recorded)

/-! ## Numbers that name a thing -/

theorem channelOf_eq_none {n : Nat} (h : 7 < n) : channelOf n = none := dif_neg (by omega)

@[simp] theorem channelOf_val (c : ChannelId) : channelOf c.val = some c := dif_pos c.isLt

theorem channelOf_of_val {c : ChannelId} {n : Nat} (h : c.val = n) : channelOf n = some c := h ▸ channelOf_val c

theorem slotOf_of_val {i : SlotId} {n : Nat} (h : i.val = n) : slotOf n = some i := h ▸ slotOf_val i

theorem windowOf_eq_none {n : Nat} (h : 3 < n) : windowOf n = none := dif_neg (by omega)

@[simp] theorem windowOf_val (w : Fin 4) : windowOf w.val = some w := dif_pos w.isLt

theorem placeOf_eq_none {n : Nat} (h : 63 < n) : placeOf n = none := dif_neg (by omega)

@[simp] theorem placeOf_val (p : PlaceId) : placeOf p.val = some p := dif_pos p.isLt

/-! ## STATUS_GET -/

theorem exec_statusGet_ok (ready : s.host.working = false) :
    exec (.statusGet tag (.fields ())) s = .next (s.answering 0x01 tag .ok (.status s.statusReport)) :=
  congrArg Host.Outcome.next (State.request_serves ready rfl)

theorem sensedLevel_eq (ring : List Nat) :
    sensedLevel ring = if ring.length = 4 then some (ring.sum / 4) else none := rfl

theorem History.count_eq (h : History) : h.count = h.places.toList.countP fun e => e.isSome :=
  List.countP_eq_length_filter.symm

theorem Lane.report_state (l : Lane) :
    (l.report.state = .idle ↔ l.state = .idle) ∧ (l.report.state = .onWire ↔ ∃ x, l.state = .onWire x) ∧
      (l.report.state = .held ↔ ∃ j, l.state = .held j) := by
  unfold Lane.report
  cases l.state <;> simp

theorem KeyStore.report_state (k : KeyStore) :
    (k.report = .unprovisioned ↔ k.state = .unprovisioned) ∧
      (k.report = .provisioned ↔ ∃ root, k.state = .provisioned root) ∧ (k.report = .damaged ↔ k.state = .damaged) := by
  unfold KeyStore.report
  cases k.state <;> simp

/-! ## HISTORY_GET -/

theorem State.historyAnswer_beginRequest (s : State) (name : HistoryName) :
    s.beginRequest.historyAnswer name = s.historyAnswer name := rfl

theorem exec_historyGet (name : HistoryName) (ready : s.host.working = false) :
    exec (.historyGet tag (.fields name)) s =
      .next (s.answering 0x04 tag (s.historyAnswer name).status (s.historyAnswer name).fields) :=
  congrArg Host.Outcome.next (State.request_serves ready rfl)

/-- The names that are not malformed: an index up to 63, and a serial. -/
theorem malformedName_index (p : PlaceId) : malformedName (.index p.val) = false := by
  simp only [malformedName, indexOutOfRange]
  have := p.isLt
  simp
  omega

theorem malformedName_serial (n : Word64) : malformedName (.serial n) = false := rfl

theorem malformedName_of {name : HistoryName} (h : name = .badSelector ∨ ∃ n, name = .index n ∧ 63 < n) :
    malformedName name = true := by
  rcases h with rfl | ⟨n, rfl, above⟩
  · rfl
  · simp [malformedName, indexOutOfRange, above]

/-- A name of a place: its index or the serial found there. -/
theorem State.namedPlace_of {p : PlaceId} {name : HistoryName}
    (h : name = .index p.val ∨ ∃ n, name = .serial n ∧ s.findEntry n = some p) :
    malformedName name = false ∧ s.namedPlace name = some p := by
  rcases h with rfl | ⟨n, rfl, found⟩
  · exact ⟨malformedName_index p, placeOf_val p⟩
  · exact ⟨rfl, found⟩

/-- A name of no entry: the index of an empty place or a serial not found. -/
theorem State.namedPlace_empty {name : HistoryName}
    (h : (∃ p : PlaceId, name = .index p.val ∧ s.place p = none) ∨ ∃ n, name = .serial n ∧ s.findEntry n = none) :
    malformedName name = false ∧ (s.namedPlace name = none ∨ ∃ p, s.namedPlace name = some p ∧ s.place p = none) := by
  rcases h with ⟨p, rfl, empty⟩ | ⟨n, rfl, absent⟩
  · exact ⟨malformedName_index p, .inr ⟨p, placeOf_val p, empty⟩⟩
  · exact ⟨rfl, .inl absent⟩

theorem History.standing_spec (h : History) (p : PlaceId) :
    (h.standing p = .urgent ↔ p ∈ h.urgent) ∧ (h.standing p = .ordinary ↔ p ∉ h.urgent ∧ p ∈ h.ordinary) ∧
      (h.standing p = .writing ↔ p ∉ h.urgent ∧ p ∉ h.ordinary ∧ ∃ w, h.writing = some w ∧ w.place = p) := by
  unfold History.standing
  by_cases urgent : p ∈ h.urgent
  · simp [urgent]
  · by_cases ordinary : p ∈ h.ordinary
    · simp [urgent, ordinary]
    · simp only [urgent, ordinary, if_false]
      cases h.writing with
      | none => simp
      | some w => by_cases here : w.place = p <;> simp [here]

/-- Settles O20, from the reports and the three kinds of names. -/
theorem status_and_history_get : Obligations.Status_and_history_get := by
  intro s tag ready
  refine ⟨⟨_, exec_statusGet_ok ready, rfl, rfl, rfl, rfl, rfl, rfl, rfl, rfl, rfl, rfl, rfl, rfl, rfl, rfl, rfl, rfl, rfl,
    rfl, rfl, rfl, rfl, rfl, rfl, fun i => Vector.getElem_map .., fun c => Vector.getElem_map .., fun i => ?items,
    s.keys.report_state.1, s.keys.report_state.2.1, s.keys.report_state.2.2, fun l => ?lanes, rfl, rfl, rfl, rfl, rfl, rfl,
    s.history.count_eq, rfl, rfl, rfl⟩, fun p e entry name named => ?entry, fun name unnamed => ?unnamed,
    fun name malformed => ?malformed⟩
  case items => exact (Vector.getElem_map ..).trans rfl
  case lanes =>
    have report : s.statusReport.lanes[l.val] = (s.lane l).report := Vector.getElem_map ..
    rw [report]
    exact ⟨rfl, (s.lane l).report_state⟩
  case entry =>
    obtain ⟨wellFormed, place⟩ := State.namedPlace_of named
    have answer : s.historyAnswer name = ⟨.ok, .history (s.historyReport p e)⟩ := by
      simp only [State.historyAnswer, wellFormed, place, entry, Bool.false_eq_true, if_false]
    refine ⟨s.historyReport p e, ?_, rfl, rfl, rfl, rfl, s.history.count_eq, s.history.standing_spec p⟩
    rw [exec_historyGet name ready, answer]
  case unnamed =>
    have answer : s.historyAnswer name = only .unknownId := by
      obtain ⟨wellFormed, absent | ⟨p, place, empty⟩⟩ := State.namedPlace_empty unnamed
      · simp only [State.historyAnswer, wellFormed, absent, Bool.false_eq_true, if_false]
      · simp only [State.historyAnswer, wellFormed, place, empty, Bool.false_eq_true, if_false]
    rw [exec_historyGet name ready, answer]
    rfl
  case malformed =>
    have answer : s.historyAnswer name = only .badArgument := if_pos (malformedName_of malformed)
    rw [exec_historyGet name ready, answer]
    rfl

/-! ## CHANNEL_GET -/

theorem exec_channelGet_ok (c : ChannelId) (ready : s.host.working = false) :
    exec (.channelGet tag (.fields c.val)) s =
      .next ((s.channelRead c).answering 0x03 tag .ok (.channel (s.channelReport c))) := by
  refine congrArg Host.Outcome.next (State.request_serves ready ?_)
  rw [channelOf_val]
  rfl

/-- Table 8-2: the state of a reservation. -/
theorem Reservation.state_eq (r : Reservation) : r.state =
    if r.wait ≠ none then .waiting else if r.size ≤ r.drawn then .filled else if r.drawn = 0 then .opened
      else .drawing := by
  unfold Reservation.state Reservation.isGranted
  cases r.wait <;> simp

/-- Settles O22, from the report. -/
theorem channel_get : Obligations.Channel_get := by
  intro s tag n ready
  refine ⟨fun above => ?_, ?_⟩
  · refine congrArg Host.Outcome.next (State.request_serves ready ?_)
    rw [channelOf_eq_none above]
    rfl
  · rintro c rfl
    refine ⟨_, exec_channelGet_ok c ready, rfl, rfl, rfl, rfl, rfl, rfl, rfl, rfl, rfl, rfl, rfl, rfl, rfl, rfl, rfl, rfl,
      rfl, List.length_map .., fun unserved => ?unserved, fun i serving => ⟨?serving, fun noFlow => ?noFlow,
      fun ms length flow => ?flow⟩, rfl, rfl, rfl, rfl, rfl, rfl, rfl, rfl, ?granted, ?waiting, fun k x at_k => ?listed⟩
    case unserved =>
      simp only [State.channelReport, State.volumeReport, State.timeToEmpty, unserved, Option.map_none]
      exact ⟨trivial, trivial⟩
    case serving =>
      simp only [State.channelReport, serving, Option.map_some, State.bandNow] <;> rfl
    case noFlow => simp only [State.channelReport, State.volumeReport, State.timeToEmpty, serving, noFlow, if_true]
    case flow =>
      simp only [State.channelReport, State.volumeReport, State.timeToEmpty, serving, length, Option.getD_some,
        if_neg (Nat.ne_of_gt flow)]
    case granted =>
      refine List.countP_eq_length_filter.symm.trans (List.countP_congr fun r _ => ?_)
      simp [Reservation.isGranted]
    case waiting =>
      refine List.countP_eq_length_filter.symm.trans (List.countP_congr fun r _ => ?_)
      simp [Reservation.isGranted, Option.ne_none_iff_isSome]
    case listed =>
      change ((s.channel c).reservations.map fun r => r.report s.clockMs)[k]? = _
      rw [List.getElem?_map, at_k, Option.map_some, Reservation.report, Reservation.state_eq]

/-! ## WINDOW_SET -/

/-- Settles O34: a window out of range, the lock's two cases, and the window taken. -/
theorem window_set : Obligations.Window_set := by
  intro s tag f ready
  refine ⟨fun above => ?_, fun inRange lock => ?_, fun w named unlocked => ⟨windowTaken f, rfl, ?_⟩⟩
  · refine congrArg Host.Outcome.next (State.request_serves ready ?_)
    rw [serveWindowSet, windowOf_eq_none above]
    rfl
  · have named : windowOf f.window = some ⟨f.window, by omega⟩ := windowOf_val ⟨f.window, by omega⟩
    have refused : exec (.windowSet tag (.fields f)) s =
        .next ((s.violation (.locked 0x13)).answering 0x13 tag .locked .none) := by
      refine congrArg Host.Outcome.next (State.request_serves ready ?_)
      rw [serveWindowSet, named, ← State.violation_beginRequest]
      exact if_pos lock
    refine ⟨fun empty => ?_, fun recorded => ?_⟩
    · rw [refused, State.violation_of_empty _ empty]
    · rw [refused, State.violation_of_recorded _ recorded]
  · have number : windowOf f.window = some w := named ▸ windowOf_val w
    refine congrArg Host.Outcome.next (State.request_serves ready ?_)
    rw [serveWindowSet, number]
    refine (if_neg (show ¬s.keys.policyLock = true by rw [unlocked]; exact Bool.false_ne_true)).trans ?_
    dsimp only
    split
    · rfl
    · rfl

/-! ## Notices -/

/-- Settles O41: masked, queued and dropped, and the mask bits. -/
theorem notice_raised : Obligations.Notice_raised := by
  refine ⟨fun s n => ⟨fun masked => ?_, fun unmasked => ⟨fun room => ?_, fun full => ?_⟩⟩, fun n => ?_⟩
  · rw [State.raise, NoticeUnit.raise, if_neg (by rw [masked]; exact Bool.false_ne_true)]
  · rw [State.raise, NoticeUnit.raise, if_pos unmasked, if_pos (show _ < Config.noticeCapacity from room)]
  · rw [State.raise, NoticeUnit.raise, if_pos unmasked, if_neg (show ¬_ < Config.noticeCapacity from Nat.not_lt.2 full)]
    rfl
  · cases n <;> rfl

/-! ## SETTINGS_SAVE -/

theorem SettingsStore.target_ne {st : SettingsStore} {k : Fin 2} (h : st.inForce = some k) : st.target ≠ k := by
  rw [SettingsStore.target, h]
  show 1 - k ≠ k
  omega

theorem SettingsStore.nextCount_eq {st : SettingsStore} {k : Fin 2} {c : SettingsCopy} (h : st.inForce = some k)
    (hc : st.copies[k.val] = some c) : st.nextCount = (c.saveCount + 1) % 4294967296 := by
  simp only [SettingsStore.nextCount, h, hc]
  rfl

/-- Settles O43: the copy started, and the end of its write. -/
theorem settings_save : Obligations.Settings_save := by
  intro s tag
  refine ⟨fun ready => ?_, fun w saving => ?_, fun idle => ?_⟩
  · refine ⟨⟨s.store.target, ⟨s.store.nextCount, s.settingsImage⟩, tag⟩, ?_, rfl, fun k => SettingsStore.target_ne,
      fun noCopy => ?_, fun k c inForce copy => ?_, rfl, rfl, rfl, rfl, rfl, rfl, rfl, rfl, fun c => ?_, fun i => ?_⟩
    · exact congrArg Host.Outcome.next (if_neg (by rw [ready]; exact Bool.false_ne_true))
    · simp only [SettingsStore.nextCount, noCopy]
    · have counted := SettingsStore.nextCount_eq inForce copy
      dsimp only
      omega
    · have saved : s.settingsImage.channels[c.val] =
          ⟨(s.channel c).settings, (s.channel c).pair, (s.channel c).state ≠ .idle⟩ := Vector.getElem_map ..
      dsimp only
      rw [saved]
      exact ⟨rfl, rfl, decide_eq_true_iff⟩
    · exact Vector.getElem_map ..
  · change execSettingsSaveWriteDone s = _
    rw [execSettingsSaveWriteDone, saving]
    rfl
  · change execSettingsSaveWriteDone s = _
    rw [execSettingsSaveWriteDone, idle]

/-! ## HISTORY_WRITE_DONE -/

theorem State.roundWritten_of_none {s : State} (p : PlaceId) (noRound : s.history.round = none) :
    s.roundWritten p = s := by
  rw [State.roundWritten, noRound]

/-- Settles O45: no write, a write outside a round, and a write of a round. -/
theorem history_write_done : Obligations.History_write_done := by
  intro s
  refine ⟨fun idle => ?_, fun w writing => ⟨fun noRound => ?_, fun r forRound round => ⟨fun last => ?_, fun more => ?_⟩⟩⟩
  · exact congrArg (fun u : State => Host.Outcome.next u.settle) (by rw [State.historyWritten, idle])
  · refine congrArg (fun u : State => Host.Outcome.next u.settle) ?_
    rw [State.historyWritten, writing]
    dsimp only
    rcases noRound with outside | noRound
    · rw [outside]
      rfl
    · split
      · exact State.roundWritten_of_none _ noRound
      · rfl
  · refine congrArg (fun u : State => Host.Outcome.next u.settle) ?_
    rw [State.historyWritten, writing]
    dsimp only
    rw [if_pos forRound, State.roundWritten, State.updHistory_history]
    dsimp only
    rw [round]
    dsimp only
    rw [last]
    rfl
  · refine congrArg (fun u : State => Host.Outcome.next u.settle) ?_
    rw [State.historyWritten, writing]
    dsimp only
    rw [if_pos forRound, State.roundWritten, State.updHistory_history]
    dsimp only
    rw [round]
    dsimp only
    rw [if_neg (by rwa [List.isEmpty_iff])]
    rfl

/-! ## Presence -/

/-- Settles O11: the two edges on a VACANT slot, and a gain on any other. -/
theorem presence_edges : Obligations.Presence_edges := by
  intro s i
  refine ⟨fun vacant => ⟨?_, fun c loss => ?_⟩, fun seated => ?_⟩
  · exact congrArg Host.Outcome.next (if_pos vacant)
  · have cancelled : s.presenceLost i = s.debounceCancelled i := if_pos vacant
    rcases loss with rfl | rfl
    · exact congrArg (fun u : State => Host.Outcome.next u.settle) cancelled
    · exact congrArg (fun u : State => Host.Outcome.next u.settle) cancelled
  · exact congrArg Host.Outcome.next (if_neg seated)

end

end Sys2Proof.Machine

/-! PROOF. The entry a lane takes (R25, R38, R40, R41, R45): the search of the wheel, the choice it makes and what the
lane does with the entry chosen; the Schedule Tables' requests (O33) and the debounce's end (O14). -/

namespace Sys2Proof.Machine

section
variable {s t : State}

/-! ## Transactions leave the Level Sense Unit's own items -/

theorem SenseOnly.discardConversion (h : SenseOnly s t) : SenseOnly s t.discardConversion := h.updSense _

theorem SenseOnly.holdAdmission (h : SenseOnly s t) (i : SlotId) : SenseOnly s (t.holdAdmission i) := h.updSense _

theorem SenseOnly.returnRequest (h : SenseOnly s t) (q : Injected) : SenseOnly s (t.returnRequest q) := by
  unfold State.returnRequest
  split
  case h_1 => exact h.updSense _
  case h_2 =>
    split
    case isTrue => exact h.updSense _
    case isFalse =>
      split
      case isTrue => exact h.holdAdmission _
      case isFalse => exact h

theorem SenseOnly.abandonRun (h : SenseOnly s t) : SenseOnly s t.abandonRun := by
  unfold State.abandonRun
  split
  case h_1 => exact (h.updSense _).discardConversion.returnRequest _
  case h_2 => exact h

/-- R157: what a lane on the wire spoils is the Level Sense Unit's. -/
theorem State.goesOnWire_only (s : State) (i : SlotId) : SenseOnly s (s.goesOnWire i) := by
  unfold State.goesOnWire
  split
  case h_1 =>
    split
    case isTrue =>
      split
      case isTrue => exact (SenseOnly.refl s).abandonRun
      case isFalse => exact (SenseOnly.refl s).discardConversion.updSense _
    case isFalse => exact .refl s
  case h_2 => exact .refl s

theorem State.commitSent_commits (s : State) (i : SlotId) :
    (s.commitSent i).commits = s.commits.set i.val { s.commit i with
      flight := (s.commit i).flight.map fun f => { f with phase := .sent } } i.isLt := rfl

/-- R25, R107: a transaction is on its lane, and a COMMIT entry's commit is SENT. -/
theorem State.startTransaction_eq (s : State) (l : LaneId) (e : LaneEntry) :
    s.startTransaction l e =
      State.goesOnWire
        (if e.laneClass = .commit then
          (s.updLane l fun lane => { lane with state := .onWire ⟨e, 0, 0, .replyWait, false⟩ }).commitSent e.slot
        else s.updLane l fun lane => { lane with state := .onWire ⟨e, 0, 0, .replyWait, false⟩ }) e.slot := by
  obtain ⟨slot, command, ticket⟩ := e
  cases command <;> rfl

theorem State.startTransaction_spec (s : State) (l : LaneId) (e : LaneEntry) :
    (s.startTransaction l e).lane l = { s.lane l with state := .onWire ⟨e, 0, 0, .replyWait, false⟩ } ∧
      (∀ k, l ≠ k → (s.startTransaction l e).lane k = s.lane k) ∧
      (s.startTransaction l e).notices = s.notices ∧ (s.startTransaction l e).engine = s.engine ∧
      (s.startTransaction l e).commits =
        if e.laneClass = .commit then
          s.commits.set e.slot.val { s.commit e.slot with
            flight := (s.commit e.slot).flight.map fun f => { f with phase := .sent } } e.slot.isLt
        else s.commits := by
  rw [State.startTransaction_eq]
  have only := State.goesOnWire_only (if e.laneClass = .commit then
    (s.updLane l fun lane => { lane with state := .onWire ⟨e, 0, 0, .replyWait, false⟩ }).commitSent e.slot
    else s.updLane l fun lane => { lane with state := .onWire ⟨e, 0, 0, .replyWait, false⟩ }) e.slot
  rw [only]
  split
  case isTrue =>
    exact ⟨State.updLane_lane_same .., fun k other => State.updLane_lane_other _ _ _ _ other, rfl, rfl, rfl⟩
  case isFalse =>
    exact ⟨State.updLane_lane_same .., fun k other => State.updLane_lane_other _ _ _ _ other, rfl, rfl, rfl⟩

/-! ## The search of the wheel (R38, R40) -/

/-- The phase that a search from phase `p` of table `t` reads after `n` others. -/
def Bus.phaseFrom (b : Bus) (t : TableId) (p : Fin 16) (n : Nat) : LaneClass :=
  (b.table (if p.val + n < 16 then t else b.requested))[(p.val + n) % 16]'(Nat.mod_lt _ (by decide))

theorem State.phaseAt_eq (s : State) (l : LaneId) (n : Nat) :
    s.phaseAt l n = s.bus.phaseFrom (s.lane l).inUse (s.lane l).wheel n := rfl

theorem Bus.phaseFrom_zero (b : Bus) (t : TableId) (p : Fin 16) : b.phaseFrom t p 0 = (b.table t)[p.val] := by
  have same : (p.val + 0) % 16 = p.val := by omega
  simp only [Bus.phaseFrom, same, if_pos (show p.val + 0 < 16 by omega)]

/-- One phase further: a wrap from phase 15 takes up the requested table. -/
theorem Bus.phaseFrom_succ (b : Bus) (t : TableId) (p : Fin 16) (n : Nat) :
    b.phaseFrom t p (n + 1) = b.phaseFrom (if p.val = 15 then b.requested else t) (p + 1) n := by
  have next : (p + 1).val = (p.val + 1) % 16 := by simp [Fin.val_add]
  have index : (p.val + (n + 1)) % 16 = ((p + 1).val + n) % 16 := by omega
  have table : (if p.val + (n + 1) < 16 then t else b.requested) =
      if (p + 1).val + n < 16 then (if p.val = 15 then b.requested else t) else b.requested := by
    have := p.isLt
    by_cases last : p.val = 15
    · rw [if_pos last, if_neg (by omega), ite_self]
    · rw [if_neg last]
      exact if_congr (by omega) rfl rfl
  simp only [Bus.phaseFrom, index, table]

/-- The table in use after a search that stopped after `n` phases. -/
def Bus.tableAfter (b : Bus) (t : TableId) (p : Fin 16) (n : Nat) : TableId :=
  if p.val + n + 1 < 16 then t else b.requested

theorem Bus.tableAfter_succ (b : Bus) (t : TableId) (p : Fin 16) (n : Nat) :
    b.tableAfter t p (n + 1) = b.tableAfter (if p.val = 15 then b.requested else t) (p + 1) n := by
  have next : (p + 1).val = (p.val + 1) % 16 := by simp [Fin.val_add]
  unfold Bus.tableAfter
  by_cases last : p.val = 15
  · rw [if_pos last, if_neg (by omega), ite_self]
  · rw [if_neg last]
    exact if_congr (by omega) rfl rfl

/-- A search stops at the first phase whose class has an entry. -/
theorem searchWheel_of {N n : Nat} {b : Bus} {q : List LaneEntry} {t : TableId} {p : Fin 16} {e : LaneEntry}
    (bound : n < N) (found : oldestOf q (b.phaseFrom t p n) = some e)
    (first : ∀ m < n, oldestOf q (b.phaseFrom t p m) = none) :
    ∃ wheel : Fin 16, wheel.val = (p.val + n + 1) % 16 ∧
      searchWheel N b q t p = some ⟨e, wheel, b.tableAfter t p n⟩ := by
  induction N generalizing n t p with
  | zero => omega
  | succ N ih =>
    have next : (p + 1).val = (p.val + 1) % 16 := by simp [Fin.val_add]
    cases n with
    | zero =>
      rw [Bus.phaseFrom_zero] at found
      refine ⟨p + 1, next, ?_⟩
      rw [searchWheel, found]
      refine congrArg (fun x => some (Choice.mk e (p + 1) x)) ?_
      have := p.isLt
      unfold Bus.tableAfter
      by_cases last : p.val = 15
      · rw [if_pos last, if_neg (by omega)]
      · rw [if_neg last, if_pos (by omega)]
    | succ n =>
      have here := first 0 (by omega)
      rw [Bus.phaseFrom_zero] at here
      rw [Bus.phaseFrom_succ] at found
      obtain ⟨wheel, position, stops⟩ := ih (by omega) found fun m below => by
        rw [← Bus.phaseFrom_succ]
        exact first (m + 1) (by omega)
      refine ⟨wheel, by omega, ?_⟩
      rw [searchWheel, here, Bus.tableAfter_succ]
      exact stops

theorem oldestOf_eq_some {q : List LaneEntry} {k : LaneClass} {e : LaneEntry} :
    oldestOf q k = some e ↔
      e.laneClass = k ∧ ∃ before after, q = before ++ e :: after ∧ ∀ x ∈ before, x.laneClass ≠ k := by
  unfold oldestOf
  rw [List.find?_eq_some_iff_append]
  simp

theorem oldestOf_eq_none {q : List LaneEntry} {k : LaneClass} :
    oldestOf q k = none ↔ ∀ x ∈ q, x.laneClass ≠ k := by
  unfold oldestOf
  rw [List.find?_eq_none]
  simp

/-- R37: within 32 phases a search reads a class of the requested table. -/
theorem Bus.phaseFrom_reaches {b : Bus} (lawful : tableLawful (b.table b.requested)) (t : TableId) (p : Fin 16)
    (k : LaneClass) : ∃ n < 32, b.phaseFrom t p n = k := by
  obtain ⟨i, inTable, phase⟩ := List.getElem_of_mem (lawful k)
  rw [Vector.length_toList] at inTable
  refine ⟨16 - p.val + i, by omega, ?_⟩
  have index : (p.val + (16 - p.val + i)) % 16 = i := by omega
  simp only [Bus.phaseFrom, index, if_neg (show ¬p.val + (16 - p.val + i) < 16 by omega)]
  rw [← phase, Vector.getElem_toList]

theorem Bus.table_lawful {b : Bus} (a : tableLawful b.tableA) (b' : tableLawful b.tableB) (t : TableId) :
    tableLawful (b.table t) := by
  cases t
  case a => exact a
  case b => exact b'

/-! ## The choice (R38, R40, R41) -/

/-- The choice that the lane makes is the one described. -/
theorem State.chooseEntry_chosen {l : LaneId} {before after : List LaneEntry} {e : LaneEntry} {wheel : Fin 16}
    {inUse : TableId} (h : s.Chosen l before e after wheel inUse) : s.chooseEntry l = some ⟨e, wheel, inUse⟩ := by
  have oldest : oldestOf (s.lane l).queue e.laneClass = some e :=
    oldestOf_eq_some.2 ⟨rfl, before, after, h.queue, h.oldest⟩
  unfold State.chooseEntry
  by_cases urgent : s.pins.powerWarn = true ∧ ∃ x ∈ (s.lane l).queue, x.laneClass = .commit
  · obtain ⟨asserted, queued⟩ := urgent
    obtain ⟨commit, rfl, rfl⟩ := h.urgent asserted queued
    rw [commit] at oldest
    simp only [asserted, if_true, oldest]
  · have ordinary : s.pins.powerWarn = false ∨ ∀ x ∈ (s.lane l).queue, x.laneClass ≠ .commit := by
      by_cases asserted : s.pins.powerWarn = true
      · exact .inr fun x queued commit => urgent ⟨asserted, x, queued, commit⟩
      · exact .inl (Bool.eq_false_iff.2 asserted)
    have absent : (if s.pins.powerWarn then oldestOf (s.lane l).queue .commit else none) = none := by
      rcases ordinary with quiet | noCommit
      · rw [quiet]; rfl
      · rw [oldestOf_eq_none.2 noCommit, ite_self]
    obtain ⟨n, bound, phase, first, position, table⟩ := h.searched ordinary
    rw [State.phaseAt_eq] at phase
    rw [← phase] at oldest
    obtain ⟨w, at_w, stops⟩ := searchWheel_of bound oldest fun m below => oldestOf_eq_none.2 (first m below)
    have : wheel = w := Fin.ext (position.trans at_w.symm)
    simp only [absent]
    rw [stops, this, table]
    rfl

/-- A lane with an entry, whose requested table names every class, has a choice. -/
theorem State.chosen_exists {l : LaneId} (nonempty : (s.lane l).queue ≠ [])
    (lawful : tableLawful (s.bus.table s.bus.requested)) :
    ∃ before e after wheel inUse, s.Chosen l before e after wheel inUse := by
  by_cases urgent : s.pins.powerWarn = true ∧ ∃ x ∈ (s.lane l).queue, x.laneClass = .commit
  · obtain ⟨asserted, queued⟩ := urgent
    cases oldest : oldestOf (s.lane l).queue .commit with
    | none =>
      obtain ⟨x, inQueue, commit⟩ := queued
      exact absurd commit (oldestOf_eq_none.1 oldest x inQueue)
    | some e =>
      obtain ⟨commit, before, after, queue, first⟩ := oldestOf_eq_some.1 oldest
      refine ⟨before, e, after, (s.lane l).wheel, (s.lane l).inUse, queue, commit ▸ first, fun _ _ => ⟨commit, rfl, rfl⟩,
        fun ordinary => ?_⟩
      obtain ⟨x, inQueue, isCommit⟩ := queued
      rcases ordinary with quiet | noCommit
      · exact absurd (asserted.symm.trans quiet) Bool.noConfusion
      · exact absurd isCommit (noCommit x inQueue)
  · have stops : ∃ n, n < 32 ∧ oldestOf (s.lane l).queue (s.phaseAt l n) ≠ none := by
      obtain ⟨x, inQueue⟩ := List.exists_mem_of_ne_nil _ nonempty
      obtain ⟨n, bound, phase⟩ := Bus.phaseFrom_reaches lawful (s.lane l).inUse (s.lane l).wheel x.laneClass
      refine ⟨n, bound, fun absent => oldestOf_eq_none.1 absent x inQueue ?_⟩
      rw [State.phaseAt_eq, phase]
    obtain ⟨bound, found⟩ := Nat.find_spec stops
    cases oldest : oldestOf (s.lane l).queue (s.phaseAt l (Nat.find stops)) with
    | none => exact absurd oldest found
    | some e =>
      obtain ⟨phase, before, after, queue, first⟩ := oldestOf_eq_some.1 oldest
      refine ⟨before, e, after, ⟨((s.lane l).wheel.val + Nat.find stops + 1) % 16, Nat.mod_lt _ (by decide)⟩,
        s.bus.tableAfter (s.lane l).inUse (s.lane l).wheel (Nat.find stops), queue, phase ▸ first,
        fun asserted queued => absurd ⟨asserted, queued⟩ urgent, fun _ =>
        ⟨Nat.find stops, bound, phase.symm, fun m below => ?_, rfl, rfl⟩⟩
      have notBefore := Nat.find_min stops below
      exact oldestOf_eq_none.1 (Classical.not_not.1 fun some => notBefore ⟨by omega, some⟩)

/-! ## Taking the entry (R25, R45) -/

theorem State.takeEntry_empty {l : LaneId} (empty : (s.lane l).queue = []) :
    s.takeEntry l = s.updLane l fun lane => lane.takeUp s.bus.requested := by
  rw [State.takeEntry, State.takeEntryN, if_pos (by rw [empty]; rfl)]

/-- The queue without the entry taken. -/
theorem eraseP_chosen {before after : List LaneEntry} {e : LaneEntry} (oldest : ∀ x ∈ before, x.laneClass ≠ e.laneClass) :
    (before ++ e :: after).eraseP (fun x => x.laneClass = e.laneClass) = before ++ after := by
  rw [List.eraseP_append_right _ fun x inBefore => by simpa using oldest x inBefore,
    List.eraseP_cons_of_pos (by simp)]

/-- The lane takes the entry chosen: refused, it makes no transaction and the next is taken; otherwise it starts one. -/
theorem State.takeEntry_chosen {l : LaneId} {before after : List LaneEntry} {e : LaneEntry} {wheel : Fin 16}
    {inUse : TableId} (h : s.Chosen l before e after wheel inUse) {v : State}
    (taken : v = s.updLane l fun lane => { lane with queue := before ++ after, wheel := wheel, inUse := inUse }) :
    s.takeEntry l =
      if e.laneClass = .pass ∧ (s.slot e.slot).state.isAdmitted = false then
        (v.passDone e (.failed .wrongState)).takeEntry l
      else v.startTransaction l e := by
  have nonempty : (s.lane l).queue.isEmpty = false := by rw [h.queue]; simp
  have record : s.updLane l (fun lane => { lane with
      queue := lane.queue.eraseP fun x => x.laneClass = e.laneClass, wheel := wheel, inUse := inUse }) = v := by
    rw [taken]
    have erased : (s.lane l).queue.eraseP (fun x => x.laneClass = e.laneClass) = before ++ after :=
      (congrArg _ h.queue).trans (eraseP_chosen h.oldest)
    have : ∀ lane, lane = s.lane l →
        ({ lane with queue := lane.queue.eraseP fun x => x.laneClass = e.laneClass, wheel := wheel, inUse := inUse } : Lane) =
          { lane with queue := before ++ after, wheel := wheel, inUse := inUse } := by
      rintro lane rfl
      rw [erased]
    simp only [State.updLane, modifyAt]
    exact congrArg (fun x => { s with bus := { s.bus with lanes := s.bus.lanes.set l.val x l.isLt } }) (this _ rfl)
  have left : ((v.passDone e (.failed .wrongState)).lane l).queue = before ++ after := by
    rw [taken, State.passDone]
    split
    · rw [State.raise_lane, State.updLane_lane_same]
    · rw [State.updLane_lane_same]
  have slots : (v.slot e.slot) = s.slot e.slot := by rw [taken]; rfl
  unfold State.takeEntry
  rw [State.takeEntryN, nonempty, State.chooseEntry_chosen h, left, h.queue]
  simp only [Bool.false_eq_true, if_false]
  rw [record, slots]
  simp only [List.length_append, List.length_cons, Nat.add_assoc]

/-- R25: a lone entry that is not refused is taken at once. -/
theorem State.takeEntry_alone {l : LaneId} {e : LaneEntry} (queue : (s.lane l).queue = [e])
    (accepted : e.laneClass ≠ .pass ∨ (s.slot e.slot).state.isAdmitted = true)
    (lawful : tableLawful (s.bus.table s.bus.requested)) :
    ∃ wheel inUse, s.takeEntry l = State.startTransaction
      (s.updLane l fun lane => { lane with queue := [], wheel := wheel, inUse := inUse }) l e := by
  obtain ⟨before, x, after, wheel, inUse, chosen⟩ :=
    State.chosen_exists (s := s) (l := l) (by rw [queue]; exact List.cons_ne_nil _ _) lawful
  have parts : before ++ x :: after = [e] := chosen.queue ▸ queue
  obtain ⟨rfl, rest⟩ : before = [] ∧ x :: after = [e] := by simpa [List.append_eq_singleton_iff] using parts
  obtain ⟨rfl, rfl⟩ := List.cons.inj rest
  refine ⟨wheel, inUse, (State.takeEntry_chosen chosen rfl).trans (if_neg ?_)⟩
  rintro ⟨pass, refused⟩
  rcases accepted with notPass | admitted
  · exact notPass pass
  · exact absurd (refused.symm.trans admitted) Bool.noConfusion

/-! ## An entry joins a lane (R25) -/

/-- A lane that is not IDLE keeps its state and has the entry last. -/
theorem State.enqueue_busy {e : LaneEntry} (busy : (s.lane (laneOf e.slot)).state ≠ .idle) :
    s.enqueue e = s.updLane (laneOf e.slot) fun lane => { lane with queue := lane.queue ++ [e] } := by
  unfold State.enqueue
  dsimp only
  rw [State.updLane_lane_same]
  split
  case h_1 idle => exact absurd idle busy
  case h_2 => rfl

/-- An IDLE lane with an empty queue takes the entry at once. -/
theorem State.enqueue_idle {e : LaneEntry} (idle : (s.lane (laneOf e.slot)).state = .idle)
    (empty : (s.lane (laneOf e.slot)).queue = [])
    (accepted : e.laneClass ≠ .pass ∨ (s.slot e.slot).state.isAdmitted = true)
    (lawful : tableLawful (s.bus.table s.bus.requested)) :
    ((s.enqueue e).lane (laneOf e.slot)).state = .onWire ⟨e, 0, 0, .replyWait, false⟩ ∧
      ((s.enqueue e).lane (laneOf e.slot)).queue = [] ∧ (s.enqueue e).notices = s.notices ∧
      (s.enqueue e).engine = s.engine ∧
      (s.enqueue e).commits =
        if e.laneClass = .commit then
          s.commits.set e.slot.val { s.commit e.slot with
            flight := (s.commit e.slot).flight.map fun f => { f with phase := .sent } } e.slot.isLt
        else s.commits := by
  have takes : s.enqueue e = (s.updLane (laneOf e.slot) fun lane =>
      { lane with queue := lane.queue ++ [e] }).takeEntry (laneOf e.slot) := by
    unfold State.enqueue
    dsimp only
    rw [State.updLane_lane_same, idle]
  obtain ⟨wheel, inUse, started⟩ := State.takeEntry_alone
    (s := s.updLane (laneOf e.slot) fun lane => { lane with queue := lane.queue ++ [e] }) (l := laneOf e.slot) (e := e)
    (by rw [State.updLane_lane_same, empty]; rfl) accepted lawful
  rw [takes, started]
  obtain ⟨lane, _, notices, engine, commits⟩ := State.startTransaction_spec (State.updLane
    (s.updLane (laneOf e.slot) fun lane => { lane with queue := lane.queue ++ [e] }) (laneOf e.slot)
    fun lane => { lane with queue := [], wheel := wheel, inUse := inUse }) (laneOf e.slot) e
  refine ⟨by rw [lane], ?_, notices, engine, commits⟩
  rw [lane, State.updLane_lane_same]

/-! ## Schedule Tables -/

theorem classOf_eq_some {v : Nat} {k : LaneClass} : classOf v = some k ↔ v = k.number := by
  match v with
  | 0 => cases k <;> simp [classOf, LaneClass.number]
  | 1 => cases k <;> simp [classOf, LaneClass.number]
  | 2 => cases k <;> simp [classOf, LaneClass.number]
  | 3 => cases k <;> simp [classOf, LaneClass.number]
  | v + 4 => cases k <;> simp [classOf, LaneClass.number]

theorem LaneClass.number_lt (k : LaneClass) : k.number < 4 := by cases k <;> decide

theorem classOf_of_le {v : Nat} (h : v ≤ 3) : ∃ k, classOf v = some k := by
  match v, h with
  | 0, _ => exact ⟨_, rfl⟩
  | 1, _ => exact ⟨_, rfl⟩
  | 2, _ => exact ⟨_, rfl⟩
  | 3, _ => exact ⟨_, rfl⟩

theorem mem_phases {phases : Vector Nat 16} {v : Nat} : v ∈ phases.toList ↔ ∃ k : Fin 16, phases[k.val] = v := by
  rw [Vector.mem_toList_iff, Vector.mem_iff_getElem]
  exact ⟨fun ⟨k, bound, here⟩ => ⟨⟨k, bound⟩, here⟩, fun ⟨k, here⟩ => ⟨k.val, k.isLt, here⟩⟩

/-- R39: valid phases, as numbers. -/
theorem phasesValid_iff (phases : Vector Nat 16) :
    phasesValid phases = true ↔ (∀ k : Fin 16, phases[k.val] ≤ 3) ∧ ∀ n < 4, ∃ k : Fin 16, phases[k.val] = n := by
  unfold phasesValid
  rw [Bool.and_eq_true, List.all_eq_true, List.all_eq_true]
  refine and_congr ⟨fun each k => ?_, fun small v standing => ?_⟩ ⟨fun each n small => ?_, fun each k _ => ?_⟩
  · obtain ⟨c, isClass⟩ := Option.isSome_iff_exists.1 (each _ (mem_phases.2 ⟨k, rfl⟩))
    rw [classOf_eq_some.1 isClass]
    exact Nat.le_of_lt_succ c.number_lt
  · obtain ⟨k, rfl⟩ := mem_phases.1 standing
    obtain ⟨c, isClass⟩ := classOf_of_le (small k)
    rw [isClass]
    rfl
  · obtain ⟨c, isClass⟩ := classOf_of_le (Nat.le_of_lt_succ small)
    have member : c ∈ allClasses := by cases c <;> decide
    obtain ⟨v, standing, same⟩ := List.any_eq_true.1 (each c member)
    obtain ⟨k, rfl⟩ := mem_phases.1 standing
    exact ⟨k, (classOf_eq_some.1 (of_decide_eq_true same)).trans (classOf_eq_some.1 isClass).symm⟩
  · obtain ⟨i, here⟩ := each k.number k.number_lt
    exact List.any_eq_true.2 ⟨_, mem_phases.2 ⟨i, rfl⟩, decide_eq_true (classOf_eq_some.2 here)⟩

theorem phaseTable_number {phases : Vector Nat 16} (small : ∀ k : Fin 16, phases[k.val] ≤ 3) (k : Fin 16) :
    (phaseTable phases)[k.val].number = phases[k.val] := by
  have entry : (phaseTable phases)[k.val] = (classOf phases[k.val]).getD .admission := Vector.getElem_map ..
  obtain ⟨c, isClass⟩ := classOf_of_le (small k)
  rw [entry, isClass]
  exact (classOf_eq_some.1 isClass).symm

theorem tableOf_of_lt {n : Nat} (h : 1 < n) : tableOf n = none := by
  match n, h with
  | n + 2, _ => rfl

theorem tableOf_of {n : Nat} {t : TableId} (h : n = 0 ∧ t = .a ∨ n = 1 ∧ t = .b) : tableOf n = some t := by
  rcases h with ⟨rfl, rfl⟩ | ⟨rfl, rfl⟩
  · rfl
  · rfl

theorem State.tableBusy_iff (s : State) (t : TableId) :
    s.tableBusy t = true ↔ s.bus.requested = t ∨ ∃ l, (s.lane l).inUse = t := by
  unfold State.tableBusy
  rw [Bool.or_eq_true, decide_eq_true_iff, List.any_eq_true]
  refine or_congr Iff.rfl ⟨fun ⟨lane, member, same⟩ => ?_, fun ⟨l, same⟩ => ?_⟩
  · obtain ⟨k, bound, rfl⟩ := Vector.mem_iff_getElem.1 (Vector.mem_toList_iff.1 member)
    exact ⟨⟨k, bound⟩, of_decide_eq_true same⟩
  · exact ⟨s.lane l, Vector.mem_toList_iff.2 (Vector.getElem_mem _), decide_eq_true same⟩

theorem Lane.selected_eq (lane : Lane) (t : TableId) :
    lane.selected t =
      if lane.state = .idle ∧ lane.queue = [] ∧ lane.inUse ≠ t then { lane with inUse := t, wheel := 0 } else lane := by
  obtain ⟨state, queue, wheel, inUse⟩ := lane
  unfold Lane.selected Lane.takeUp
  cases state with
  | idle =>
    cases queue with
    | nil => by_cases same : inUse = t <;> simp [same]
    | cons e rest => simp
  | onWire x => simp
  | held j => simp

/-- Settles O33: the load's three answers, the select, and the entry a lane takes. -/
theorem schedules : Obligations.Schedules := by
  intro s
  refine ⟨fun tag ready => ⟨fun f refused => ?_, fun f t named small each => ⟨fun busy => ?_, fun notRequested unused =>
    ⟨phaseTable f.phases, phaseTable_number small, ?_⟩⟩, fun n above => ?_, fun n t named =>
    ⟨(s.selectTable t).bus.lanes, ?_, fun l => ?_⟩⟩, fun l => ⟨fun empty => ?_, fun nonempty a b => ?_,
    fun before e after wheel inUse chosen v taken => ⟨fun ticket pass refused ticketed => ?_, fun accepted => ?_⟩⟩⟩
  · refine congrArg Host.Outcome.next (State.request_serves ready ?_)
    unfold serveScheduleLoad
    split
    case h_1 => rfl
    case h_2 t named =>
      rw [if_pos]
      · rfl
      · refine Bool.eq_false_iff.2 fun valid => ?_
        obtain ⟨small, each⟩ := (phasesValid_iff _).1 valid
        rcases refused with above | ⟨k, above⟩ | ⟨n, bound, absent⟩
        · rw [tableOf_of_lt above] at named
          cases named
        · exact Nat.not_le.2 above (small k)
        · obtain ⟨k, here⟩ := each n bound
          exact absent k here
  · refine congrArg Host.Outcome.next (State.request_serves ready ?_)
    rw [serveScheduleLoad, tableOf_of named]
    have valid : ¬phasesValid f.phases = false := by rw [(phasesValid_iff _).2 ⟨small, each⟩]; exact Bool.noConfusion
    exact (if_neg valid).trans (if_pos ((State.tableBusy_iff s t).2 busy))
  · refine congrArg Host.Outcome.next (State.request_serves ready ?_)
    rw [serveScheduleLoad, tableOf_of named]
    have valid : ¬phasesValid f.phases = false := by rw [(phasesValid_iff _).2 ⟨small, each⟩]; exact Bool.noConfusion
    have free : ¬s.tableBusy t = true := fun busy => by
      rcases (State.tableBusy_iff s t).1 busy with requested | ⟨l, used⟩
      · exact notRequested requested
      · exact unused l used
    refine ((if_neg valid).trans (if_neg free)).trans ?_
    cases t
    case a => rfl
    case b => rfl
  · refine congrArg Host.Outcome.next (State.request_serves ready ?_)
    rw [serveScheduleSelect, tableOf_of_lt above]
    rfl
  · refine congrArg Host.Outcome.next (State.request_serves ready ?_)
    rw [serveScheduleSelect, tableOf_of named]
    rfl
  · have lane : (s.selectTable t).bus.lanes[l.val] = (s.lane l).selected t := Vector.getElem_map ..
    rw [lane, Lane.selected_eq]
  · exact State.takeEntry_empty empty
  · exact State.chosen_exists nonempty (Bus.table_lawful a b _)
  · rw [State.takeEntry_chosen chosen taken, if_pos ⟨pass, refused⟩, State.passDone, ticketed]
  · have starts : s.takeEntry l = v.startTransaction l e := by
      refine (State.takeEntry_chosen chosen taken).trans (if_neg ?_)
      rintro ⟨pass, refused⟩
      rcases accepted with notPass | admitted
      · exact notPass pass
      · exact absurd (refused.symm.trans admitted) Bool.noConfusion
    obtain ⟨lane, _, notices, engine, commits⟩ := State.startTransaction_spec v l e
    refine ⟨starts ▸ lane, (RecordsKept.refl s).takeEntry l, ?_, ?_, ?_⟩
    · rw [starts, notices, taken]; rfl
    · rw [starts, engine, taken]; rfl
    · rw [starts, commits, taken]; rfl

/-! ## A slot is seated (R10, R17) -/

theorem State.moveSlot_lane (s : State) (i : SlotId) (f : SlotRecord → SlotRecord) (l : LaneId) :
    (s.moveSlot i f).lane l = s.lane l := by
  rw [State.moveSlot, State.raise_lane, State.updSlot_lane]

theorem State.moveSlot_slot (s : State) (i j : SlotId) (f : SlotRecord → SlotRecord) :
    (s.moveSlot i f).slot j = if i = j then f (s.slot j) else s.slot j := by
  rw [State.moveSlot, State.raise_slot, State.updSlot_slot]

/-- R14: the records after a slot enters READING. -/
theorem State.enterReading_records (s : State) (i : SlotId) :
    RecordsKept (s.moveSlot i fun r => { r with state := .reading }) (s.enterReading i) :=
  (RecordsKept.refl _).enqueue _

/-- R10, R17: the slot's record after it is seated; no other slot changes. -/
theorem State.seat_slot (s : State) (i j : SlotId) (f : SlotRecord → SlotRecord) :
    (s.seat i f).slot j =
      if i = j then { f (s.slot j) with state := if (f (s.slot j)).channel.isSome then .reading else .seating }
      else s.slot j := by
  unfold State.seat
  dsimp only
  split
  case isTrue named =>
    rw [(State.enterReading_records _ i).slot, State.moveSlot_slot, State.moveSlot_slot]
    by_cases same : i = j
    · subst same
      rw [State.moveSlot_slot, if_pos rfl] at named
      have : (f (s.slot i)).channel.isSome = true := named
      simp only [if_true, this]
    · simp only [same, if_false]
  case isFalse parked =>
    rw [State.moveSlot_slot]
    by_cases same : i = j
    · subst same
      rw [State.moveSlot_slot, if_pos rfl] at parked
      have : ¬(f (s.slot i)).channel.isSome = true := parked
      simp only [if_true, this, if_false, Bool.false_eq_true]
    · simp only [same, if_false]

/-- One slot's record replaced, as a vector. -/
theorem State.slots_eq_set {i : SlotId} {r : SlotRecord} (h : ∀ j, t.slot j = if i = j then r else s.slot j) :
    t.slots = s.slots.set i.val r i.isLt := by
  refine Vector.ext fun k bound => (h ⟨k, bound⟩).trans ?_
  rw [Vector.getElem_set]
  exact if_congr Fin.ext_iff rfl rfl

/-- Settles O14: parked, admitted, and nothing done. -/
theorem debounce_expiry_seats : Obligations.Debounce_expiry_seats := by
  intro s i
  refine ⟨fun timer vacant parked => ?_, fun c timer vacant named => ?_, fun quiet => ?_⟩
  · refine congrArg (fun u : State => Host.Outcome.next u.settle) ?_
    rw [State.debounceExpired, if_pos ⟨timer, vacant⟩, State.seat]
    dsimp only
    have noChannel : ¬(((s.setDebounce i none).moveSlot i fun r => { id r with state := .seating }).slot i).channel.isSome = true := by
      rw [State.moveSlot_slot, if_pos rfl]
      show ¬(s.slot i).channel.isSome = true
      rw [parked]
      exact Bool.false_ne_true
    rw [if_neg noChannel, State.moveSlot]
    show State.raise _ (slotChangedNotice i (s.slot i).state _) = _
    rw [vacant]
    rfl
  · have seats : s.debounceExpired i = (s.setDebounce i none).seat i id := if_pos ⟨timer, vacant⟩
    have moves : (s.setDebounce i none).seat i id =
        ((s.setDebounce i none).moveSlot i fun r => { id r with state := .seating }).enterReading i := by
      refine if_pos ?_
      rw [State.moveSlot_slot, if_pos rfl]
      show (s.slot i).channel.isSome = true
      rw [named]
      rfl
    have lane : ∀ l, (((s.setDebounce i none).moveSlot i fun r => { id r with state := .seating }).moveSlot i
        fun r => { r with state := .reading }).lane l = s.lane l := fun l => by
      rw [State.moveSlot_lane, State.moveSlot_lane]
      rfl
    refine ⟨_, rfl, ?_, ?_, ?_, fun busy => ?_, fun idle empty a b => ?_⟩
    · rw [seats]
      exact ((Undisturbed.refl _).seat i id).settle
    · refine State.slots_eq_set fun j => ?_
      rw [State.settle_slot, seats, State.seat_slot]
      by_cases same : i = j
      · subst same
        have channel : (s.slot i).channel.isSome = true := by rw [named]; rfl
        simp only [if_true, id, State.setDebounce_slot, channel]
      · simp only [same, if_false, State.setDebounce_slot]
    · rw [State.settle_channels, seats, moves]
      exact (State.enterReading_records _ i).channels
    · rw [State.settle_lane, seats, moves, State.enterReading, State.enqueue_busy, State.updLane_lane_same, lane]
      rwa [lane]
    · rw [State.settle_lane, seats, moves, State.enterReading]
      obtain ⟨onWire, taken, _⟩ := State.enqueue_idle (e := ⟨i, .describe, none⟩) ((congrArg Lane.state (lane _)).trans idle)
        ((congrArg Lane.queue (lane _)).trans empty) (.inl LaneClass.noConfusion) (Bus.table_lawful a b _)
      exact ⟨onWire, taken⟩
  · refine congrArg (fun u : State => Host.Outcome.next u.settle) (if_neg ?_)
    rintro ⟨timer, vacant⟩
    rcases quiet with noTimer | seated
    · exact absurd (timer.symm.trans noTimer) Bool.noConfusion
    · exact seated vacant

end

end Sys2Proof.Machine

/-! PROOF. The requests of the Level Sense Unit (O36 to O38), of the History Unit and the Key Store (O39, O40), and RESET
(O44). -/

namespace Sys2Proof.Machine

section
variable {s t u : State} {tag kind : Byte}

/-! ## A request served, its event ended -/

theorem exec_served {α : Type} {serve : α → State → State × Answer} {f : α} {status : Status} {fields : ReplyFields}
    (ready : s.host.working = false) (served : serve f s.beginRequest = (u.beginRequest, ⟨status, fields⟩)) :
    Host.Outcome.next (s.request kind tag (.fields f) serve).settle =
      (.next (u.answering kind tag status fields).settle : Result) :=
  congrArg (fun v : State => Host.Outcome.next v.settle) (State.request_serves ready served)

/-- The same where the block leaves a state that has taken the request. -/
theorem exec_answered {α : Type} {serve : α → State → State × Answer} {f : α} {status : Status} {fields : ReplyFields}
    (ready : s.host.working = false) (served : serve f s.beginRequest = (u, ⟨status, fields⟩))
    (taken : u.host = s.beginRequest.host) :
    Host.Outcome.next (s.request kind tag (.fields f) serve).settle =
      (.next (u.answering kind tag status fields).settle : Result) := by
  refine congrArg (fun v : State => Host.Outcome.next v.settle) ?_
  rw [State.request_ready _ _ ready, served]
  exact State.sendReply_answering _ (by rw [taken, State.beginRequest_working])

/-! ## SENSE (R158) -/

/-- A queued request for the slot takes the reason; no other request changes. -/
theorem State.placeRequest_merges {i : SlotId} {why : Reasons} {before after : List Injected} {q : Injected}
    (queue : s.sense.injected = before ++ q :: after) (own : q.slot = i) (above : ∀ x ∈ before, x.slot ≠ i)
    (below : ∀ x ∈ after, x.slot ≠ i) :
    s.placeRequest i why = some { s with sense := { s.sense with
      injected := before ++ { q with reasons := q.reasons.or why } :: after } } := by
  have queued : (s.sense.injected.any (·.slot = i)) = true :=
    List.any_eq_true.2 ⟨q, by rw [queue]; simp, decide_eq_true own⟩
  have others : ∀ l : List Injected, (∀ x ∈ l, x.slot ≠ i) →
      l.map (fun q => if q.slot = i then { q with reasons := q.reasons.or why } else q) = l := fun l absent =>
    (List.map_congr_left fun x inList => if_neg (absent x inList)).trans (List.map_id' l)
  rw [State.placeRequest, if_pos queued, State.updSense, queue, List.map_append, List.map_cons, others _ above,
    others _ below, if_pos own]

theorem State.not_queued {i : SlotId} (absent : ∀ q ∈ s.sense.injected, q.slot ≠ i) :
    ¬(s.sense.injected.any (·.slot = i)) = true := by
  simpa using absent

theorem State.placeRequest_joins {i : SlotId} {why : Reasons} (absent : ∀ q ∈ s.sense.injected, q.slot ≠ i)
    (room : s.sense.injected.length < 8) :
    s.placeRequest i why = some { s with
      sense := { s.sense with injected := s.sense.injected ++ [⟨i, why, s.joinStamps⟩] }
      joinStamps := s.joinStamps + 1 } := by
  rw [State.placeRequest, if_neg (State.not_queued absent), if_pos (show _ < Config.injectedCapacity from room)]
  rfl

theorem State.placeRequest_full {i : SlotId} {why : Reasons} (absent : ∀ q ∈ s.sense.injected, q.slot ≠ i)
    (full : 8 ≤ s.sense.injected.length) : s.placeRequest i why = none := by
  rw [State.placeRequest, if_neg (State.not_queued absent),
    if_neg (show ¬_ < Config.injectedCapacity from Nat.not_lt.2 full)]

/-- The position of the only request of a slot. -/
theorem State.requestPosition_eq {i : SlotId} {before after : List Injected} {q : Injected}
    (queue : s.sense.injected = before ++ q :: after) (own : q.slot = i) (above : ∀ x ∈ before, x.slot ≠ i) :
    s.requestPosition i = before.length + 1 := by
  rw [State.requestPosition, queue, List.findIdx_append,
    List.findIdx_eq_length.2 fun x inBefore => by simpa using above x inBefore, if_neg (Nat.lt_irrefl _),
    List.findIdx_cons]
  simp [own]

theorem serveSense_of {n : Nat} {i : SlotId} (named : i.val = n) (seated : (s.slot i).state ≠ .vacant) :
    serveSense n s = match s.placeRequest i ⟨false, true⟩ with
      | some s => (s, ⟨.queued, .position (s.requestPosition i)⟩)
      | none => (s, only .full) := by
  rw [serveSense, slotOf_of_val named]
  exact if_neg seated

/-- Settles O36: the two refusals, the merge, the join and the full queue. -/
theorem sense : Obligations.Sense := by
  intro s tag n ready
  refine ⟨fun above => ?_, fun i named => ⟨fun vacant => ?_, fun seated =>
    ⟨fun before q after queue own above below => ?_, fun absent => ⟨fun room => ?_, fun full => ?_⟩⟩⟩⟩
  · refine exec_served ready ?_
    rw [serveSense, slotOf_eq_none above]
    rfl
  · refine exec_served ready ?_
    rw [serveSense, slotOf_of_val named]
    exact if_pos vacant
  · refine exec_served ready ?_
    rw [serveSense_of (s := s.beginRequest) named (show (s.slot i).state ≠ .vacant from seated),
      State.placeRequest_merges (s := s.beginRequest) queue own above below]
    dsimp only
    rw [State.requestPosition_eq (q := { q with reasons := q.reasons.or ⟨false, true⟩ }) rfl own above]
    simp only [Reasons.or, Bool.or_false, Bool.or_true]
    rfl
  · refine exec_served ready ?_
    rw [serveSense_of (s := s.beginRequest) named (show (s.slot i).state ≠ .vacant from seated),
      State.placeRequest_joins (s := s.beginRequest) absent room]
    dsimp only
    rw [State.requestPosition_eq (q := ⟨i, ⟨false, true⟩, s.joinStamps⟩) rfl rfl absent]
    rfl
  · refine exec_served ready ?_
    rw [serveSense_of (s := s.beginRequest) named (show (s.slot i).state ≠ .vacant from seated),
      State.placeRequest_full (s := s.beginRequest) absent full]
    rfl

/-! ## SCAN_SET (R155) -/

theorem sourceOf_number (x : Source) : sourceOf x.number = some x := by
  cases x with
  | slot i =>
    have := i.isLt
    rw [sourceOf, if_neg (show ¬Source.number (.slot i) = 17 by simp only [Source.number]; omega)]
    show (match slotOf i.val with | some i => some (Source.slot i) | none => none) = _
    rw [slotOf_val]
  | reference => rfl

theorem sourceOf_eq_none {n : Nat} (above : 15 < n) (notReference : n ≠ 17) : sourceOf n = none := by
  rw [sourceOf, if_neg notReference, slotOf_eq_none above]

theorem readAll_map {α β : Type} {f : α → Option β} {g : β → α} (inverse : ∀ x, f (g x) = some x) (l : List β) :
    readAll f (l.map g) = some l := by
  induction l with
  | nil => rfl
  | cons x l ih => rw [List.map_cons, readAll, inverse, ih]

theorem readAll_eq_none {α β : Type} {f : α → Option β} {l : List α} {x : α} (member : x ∈ l) (unread : f x = none) :
    readAll f l = none := by
  induction member with
  | head l => rw [readAll, unread]
  | tail y _ ih =>
    rw [readAll, ih]
    split
    case h_1 h => cases h
    case h_2 => rfl

theorem scanListOf_refused {sources : List Nat} (h : 24 < sources.length ∨ ∃ n ∈ sources, 15 < n ∧ n ≠ 17) :
    scanListOf sources = none := by
  unfold scanListOf
  rcases h with long | ⟨n, member, above, notReference⟩
  · rw [if_neg (show ¬_ ≤ Config.scanListMax from Nat.not_le.2 long)]
  · rw [readAll_eq_none member (sourceOf_eq_none above notReference), ite_self]

theorem scanListOf_numbers {list : List Source} (short : list.length ≤ 24) :
    scanListOf (list.map fun x => x.number) = some list := by
  rw [scanListOf, if_pos (show _ ≤ Config.scanListMax by rw [List.length_map]; exact short), readAll_map sourceOf_number]

/-- R155: only the Level Sense Unit's items change, as its scan stands. -/
theorem State.setScan_eq (s : State) (list : List Source) (pause : Nat) :
    s.setScan list pause = { s with sense :=
      if s.sense.scan = .halted then
        { s.sense with list := list, pause := pause, pendingScan := none, position := 0, passConverted := false }
      else if s.sense.list = [] then
        { s.sense with
          list := list
          pause := pause
          pendingScan := none
          scan := if list = [] then .pausing else .running
          pauseTimer := none
          position := 0
          passConverted := false }
      else { s.sense with pendingScan := some ⟨list, pause⟩ } } := by
  unfold State.setScan
  split
  case h_1 halted => rw [if_pos halted]; rfl
  case h_2 going =>
    rw [if_neg fun halted => going halted]
    by_cases empty : s.sense.list = []
    · rw [if_pos empty, if_pos (by rw [empty]; rfl)]
      cases list
      case nil => rfl
      case cons => rfl
    · rw [if_neg empty, if_neg (by rwa [List.isEmpty_iff])]
      rfl

/-- Settles O37: the refusals, and the list taken up or pending. -/
theorem scan_set : Obligations.Scan_set := by
  intro s tag f ready
  refine ⟨fun refused => ?_, fun list spelt short =>
    ⟨pauseTaken f.pause, debounceTaken f.debounce, (s.setScan list (pauseTaken f.pause)).sense, rfl, rfl, ?_,
      fun halted => ?_, fun going full => ?_, fun going empty => ?_⟩⟩
  · refine exec_served ready ?_
    rw [serveScanSet, scanListOf_refused refused]
    rfl
  · refine exec_served ready ?_
    rw [serveScanSet, spelt, scanListOf_numbers short]
    dsimp only
    rw [State.setScan_eq, State.setScan_eq]
    by_cases asGiven : pauseTaken f.pause = f.pause ∧ debounceTaken f.debounce = f.debounce
    · rw [if_pos asGiven, if_pos asGiven, if_pos asGiven]
      rfl
    · rw [if_neg asGiven, if_neg asGiven, if_neg asGiven]
      rfl
  · rw [State.setScan_eq]
    exact if_pos halted
  · rw [State.setScan_eq]
    exact (if_neg going).trans (if_neg full)
  · rw [State.setScan_eq]
    exact (if_neg going).trans (if_pos empty)

/-! ## SENSOR_CAL (R163) -/

theorem State.returnRequest_run (s : State) (q : Injected) :
    (s.returnRequest q).sense.run = s.sense.run ∧ (s.returnRequest q).sense.slots = s.sense.slots := by
  unfold State.returnRequest
  split
  case h_1 => exact ⟨rfl, rfl⟩
  case h_2 =>
    split
    case isTrue => exact ⟨rfl, rfl⟩
    case isFalse =>
      split
      case isTrue => exact ⟨rfl, rfl⟩
      case isFalse => exact ⟨rfl, rfl⟩

theorem State.slotSense_congr (h : u.sense.slots = t.sense.slots) (i : SlotId) : u.slotSense i = t.slotSense i := by
  simp only [State.slotSense, h]

/-- R159: only the Level Sense Unit's items change; the slots' own stay, and the slot has no run. -/
theorem State.abandonRunOf_spec (s : State) (i : SlotId) :
    SenseOnly s (s.abandonRunOf i) ∧ (s.abandonRunOf i).sense.slots = s.sense.slots ∧
      ∀ r, (s.abandonRunOf i).sense.run = some r → r.request.slot ≠ i := by
  unfold State.abandonRunOf
  split
  case h_1 r running =>
    split
    case isTrue own =>
      refine ⟨(SenseOnly.refl s).abandonRun, ?_⟩
      unfold State.abandonRun
      rw [running]
      dsimp only
      obtain ⟨run, slots⟩ := State.returnRequest_run
        ((s.updSense fun u => { u with run := none }).discardConversion) r.request
      exact ⟨slots, fun x other => nomatch run.symm.trans other⟩
    case isFalse other =>
      exact ⟨.refl s, rfl, fun x running' => Option.some.inj (running.symm.trans running') ▸ other⟩
  case h_2 idle => exact ⟨.refl s, rfl, fun x running => nomatch idle.symm.trans running⟩

/-- Settles O38: the refusal, and the calibration taken. -/
theorem sensor_cal : Obligations.Sensor_cal := by
  intro s tag f ready
  refine ⟨fun above => ?_, fun i named => ?_⟩
  · refine exec_served ready ?_
    rw [serveSensorCal, slotOf_eq_none above]
    rfl
  · obtain ⟨only, items, noRun⟩ := State.abandonRunOf_spec
      (s.beginRequest.updSlotSense i fun u => u.calibrated (offsetTaken f.offset) (gainTaken f.gain)) i
    have records := (((RecordsKept.refl s).of_eq (u := s.beginRequest) rfl rfl rfl).updSlotSense i
      fun u => u.calibrated (offsetTaken f.offset) (gainTaken f.gain))
    refine ⟨_, offsetTaken f.offset, gainTaken f.gain, rfl, rfl, exec_answered ready ?_ ?_, ?_, ?_, ?_, ?_, ?_, ?_,
      fun j other => ?_, noRun⟩
    · rw [serveSensorCal, slotOf_of_val named]
      dsimp only
      split
      case isTrue => rfl
      case isFalse => rfl
    · rw [only]; rfl
    · rw [only]; exact records.of_eq rfl rfl rfl
    · rw [only]; rfl
    · rw [only]; rfl
    · rw [only]; rfl
    · rw [only]; rfl
    · exact (State.slotSense_congr items i).trans (State.updSlotSense_slotSense_same ..)
    · exact (State.slotSense_congr items j).trans (State.updSlotSense_slotSense_other _ _ _ _ (Ne.symm other))

/-! ## HISTORY_CLEAR (R188) -/

theorem SlotRecord.seats_iff (r : SlotRecord) (serial : Word64) :
    r.seats serial = true ↔ r.state ≠ .vacant ∧ ∃ d, r.description = some d ∧ d.serial = serial := by
  unfold SlotRecord.seats
  cases r.description <;> simp

theorem State.seatedIn_isSome_iff (s : State) (serial : Word64) :
    (s.seatedIn serial).isSome = true ↔
      ∃ i, (s.slot i).state ≠ .vacant ∧ ∃ d, (s.slot i).description = some d ∧ d.serial = serial := by
  unfold State.seatedIn
  rw [List.find?_isSome]
  simp only [SlotRecord.seats_iff, List.mem_finRange, true_and]

theorem State.placeStored_empty {p : PlaceId} (empty : s.place p = none) :
    s.placeStored p false = s.updHistory fun h => h.placed p false := by
  rw [State.placeStored, empty]
  simp only [Bool.and_false, Bool.or_false]

theorem History.placed_ordinary (h : History) (p : PlaceId) :
    h.placed p false = { h with ordinary :=
      if p ∈ h.urgent ∨ p ∈ h.ordinary then h.ordinary else h.ordinary ++ [p] } := by
  unfold History.placed
  by_cases urgent : p ∈ h.urgent
  · rw [if_pos urgent, if_pos (.inl urgent)]
  · by_cases ordinary : p ∈ h.ordinary
    · rw [if_neg urgent, if_neg Bool.false_ne_true, if_pos ordinary, if_pos (.inr ordinary)]
    · rw [if_neg urgent, if_neg Bool.false_ne_true, if_neg ordinary, if_neg (by simp [urgent, ordinary])]

/-- R188: the clear changes the History Unit alone. -/
theorem State.clearPlace_eq (s : State) (p : PlaceId) (e : HistoryEntry) :
    s.clearPlace p e = { s with history := { s.history with
      places := s.history.places.set p.val none p.isLt
      forfeited := min 281474976710655 (s.history.forfeited + e.pendingCharge.getD 0)
      ordinary :=
        if p ∈ s.history.urgent ∨ p ∈ s.history.ordinary then s.history.ordinary
        else s.history.ordinary ++ [p] } } := by
  have empty : ((s.forfeit e.pendingCharge).updHistory fun h =>
      { h with places := modifyAt h.places p fun _ => none }).place p = none := modifyAt_same ..
  rw [State.clearPlace, State.writePlace, State.placeStored_empty empty, State.updHistory, History.placed_ordinary]
  rfl

theorem serveHistoryClear_named {name : HistoryName} (wellFormed : malformedName name = false)
    (unlocked : s.keys.policyLock = false) : serveHistoryClear name s = s.clearNamed name := by
  have inRange : indexOutOfRange name = false := (Bool.or_eq_false_iff.1 wellFormed).1
  simp only [serveHistoryClear, inRange, unlocked, wellFormed, Bool.false_eq_true, if_false]

theorem State.clearNamed_of {name : HistoryName} {p : PlaceId} {e : HistoryEntry} (place : s.namedPlace name = some p)
    (entry : s.place p = some e) :
    s.clearNamed name = if (s.seatedIn e.serial).isSome then (s, only .wrongState)
      else (s.clearPlace p e, ⟨.ok, .cleared e.serial (e.pendingCharge.getD 0)⟩) := by
  simp only [State.clearNamed, place, entry]

/-- Settles O39: the refusals in their order, and the clear. -/
theorem history_clear : Obligations.History_clear := by
  intro s tag name ready
  refine ⟨?_, fun inRange => ⟨fun lock => ?_, fun unlocked => ⟨?_, fun unnamed => ?_, fun p e entry named =>
    ⟨fun seated => ?_, fun unseated => ?_⟩⟩⟩⟩
  · rintro ⟨n, rfl, above⟩
    refine exec_served ready ?_
    exact if_pos (by simpa [indexOutOfRange] using above)
  · refine exec_served ready ?_
    have : ¬indexOutOfRange name = true := by
      cases name with
      | index n => simpa [indexOutOfRange] using inRange n rfl
      | serial n => exact Bool.false_ne_true
      | badSelector => exact Bool.false_ne_true
    rw [serveHistoryClear, if_neg this, if_pos (show s.beginRequest.keys.policyLock = true from lock),
      State.violation_beginRequest]
    rfl
  · rintro rfl
    refine exec_served ready ?_
    exact (if_neg Bool.false_ne_true).trans ((if_neg (by rw [← Bool.not_eq_true] at unlocked; exact unlocked)).trans
      (if_pos rfl))
  · obtain ⟨wellFormed, absent | ⟨p, named, empty⟩⟩ := State.namedPlace_empty unnamed
    · refine exec_served ready ?_
      rw [serveHistoryClear_named (s := s.beginRequest) wellFormed unlocked, State.clearNamed,
        show s.beginRequest.namedPlace name = none from absent]
      rfl
    · refine exec_served ready ?_
      rw [serveHistoryClear_named (s := s.beginRequest) wellFormed unlocked, State.clearNamed,
        show s.beginRequest.namedPlace name = some p from named]
      dsimp only
      rw [show s.beginRequest.place p = none from empty]
      rfl
  · obtain ⟨wellFormed, place⟩ := State.namedPlace_of named
    refine exec_served ready ?_
    rw [serveHistoryClear_named (s := s.beginRequest) wellFormed unlocked,
      State.clearNamed_of (s := s.beginRequest) place entry]
    exact if_pos ((State.seatedIn_isSome_iff s e.serial).2 seated)
  · obtain ⟨wellFormed, place⟩ := State.namedPlace_of named
    refine exec_served ready ?_
    rw [serveHistoryClear_named (s := s.beginRequest) wellFormed unlocked,
      State.clearNamed_of (s := s.beginRequest) place entry, State.clearPlace_eq]
    refine if_neg fun seated => ?_
    obtain ⟨i, occupied, d, described, same⟩ := (State.seatedIn_isSome_iff s e.serial).1 seated
    exact unseated i occupied d described same

/-! ## The Key Store -/

/-- A fold over different slots whose step changes its own slot's record alone. -/
theorem foldl_slots {f : State → SlotId → State} {g : SlotRecord → SlotRecord}
    (step : ∀ (s : State) (i j : SlotId), (f s i).slot j = if i = j then g (s.slot j) else s.slot j) (l : List SlotId)
    (different : l.Nodup) (s : State) (j : SlotId) :
    (l.foldl f s).slot j = if j ∈ l then g (s.slot j) else s.slot j := by
  induction l generalizing s with
  | nil => simp
  | cons i l ih =>
    obtain ⟨absent, rest⟩ := List.nodup_cons.1 different
    rw [List.foldl_cons, ih rest, step]
    by_cases own : i = j
    · subst own
      simp [absent]
    · simp [own, Ne.symm own]

theorem State.mem_awaitingKey (s : State) (i : SlotId) :
    i ∈ s.awaitingKey ↔ (s.slot i).state = .rejected ∧ (s.slot i).rejectReason = some .authUnavailable := by
  unfold State.awaitingKey
  simp

/-- R17: a slot restarted: without its description, in SEATING or READING. -/
def SlotRecord.restarted (r : SlotRecord) : SlotRecord :=
  { r with
    description := none
    rejectReason := none
    state := if r.channel.isSome then .reading else .seating }

/-- R61: the slots that waited for a key restart. -/
theorem State.provision_slot (s : State) (key : Word128) (i : SlotId) :
    (s.provision key).slot i =
      if (s.slot i).state = .rejected ∧ (s.slot i).rejectReason = some .authUnavailable then (s.slot i).restarted
      else s.slot i := by
  have folded := foldl_slots (f := fun s i => s.restartSlot i) (g := SlotRecord.restarted)
    (fun s i j => State.seat_slot s i j _)
    ({ s with keys := { s.keys with state := .provisioned key, writing := some key } } : State).awaitingKey
    ((List.nodup_finRange 16).filter _) { s with keys := { s.keys with state := .provisioned key, writing := some key } } i
  exact folded.trans (if_congr (State.mem_awaitingKey _ i) rfl rfl)

/-- Settles O40: KEY_PROVISION's answers, the cell write, and POLICY_LOCK. -/
theorem key_requests : Obligations.Key_requests := by
  intro s tag
  refine ⟨fun ready key => ⟨fun refused => ?_, fun notZeros notOnes => ⟨fun held => ?_, fun unprovisioned => ?_⟩⟩,
    fun key writing => ?_, fun idle => ?_, fun ready => ?_⟩
  · exact exec_served ready (if_pos refused)
  · refine exec_served ready ((if_neg fun refused => refused.elim notZeros notOnes).trans ?_)
    split
    case h_1 unprovisioned => exact absurd unprovisioned held
    case h_2 => rfl
  · have kept := Undisturbed.provision s.beginRequest key
    refine ⟨s.beginRequest.provision key, exec_answered ready ?_ kept.host, kept, fun i =>
      ⟨fun rejected reason => ?_, fun other => ?_⟩⟩
    · refine (if_neg fun refused => refused.elim notZeros notOnes).trans ?_
      rw [show s.beginRequest.keys.state = .unprovisioned from unprovisioned]
      rfl
    · rw [State.provision_slot]
      refine (congrArg (fun r : SlotRecord => r.description = none ∧ r.rejectReason = none ∧ r.state = _)
        (if_pos ⟨rejected, reason⟩)).mpr ⟨rfl, rfl, rfl⟩
    · rw [State.provision_slot]
      refine if_neg ?_
      rintro ⟨rejected, reason⟩
      exact other.elim (fun h => h rejected) fun h => h reason
  · exact congrArg Host.Outcome.next (by rw [writing])
  · exact congrArg Host.Outcome.next (by rw [idle])
  · exact congrArg Host.Outcome.next (State.request_serves ready rfl)

end

end Sys2Proof.Machine

/-! PROOF. The commits' taking (O32) and the pass-throughs (O35). -/

namespace Sys2Proof.Machine

section
variable {s t u : State} {tag kind : Byte}

/-! ## What a lane does to the commits (R107) -/

/-- The commit in flight, if there is one, in phase SENT. -/
def CommitState.sent (c : CommitState) : CommitState :=
  { c with flight := c.flight.map fun f => { f with phase := .sent } }

theorem CommitState.sent_sent (c : CommitState) : c.sent.sent = c.sent := by
  obtain ⟨flight, again, failures, doubtful⟩ := c
  cases flight <;> rfl

theorem CommitState.sent_flight (c : CommitState) : c.sent.flight.isSome = c.flight.isSome := Option.isSome_map ..

/-- Each slot's commit state stays, or its commit is SENT. -/
def CommitsSent (s t : State) : Prop := ∀ i, t.commit i = s.commit i ∨ t.commit i = (s.commit i).sent

theorem CommitsSent.of_eq (h : t.commits = s.commits) : CommitsSent s t := fun i =>
  .inl (by simp only [State.commit, h])

theorem CommitsSent.trans (h : CommitsSent s t) (k : CommitsSent t u) : CommitsSent s u := fun i => by
  rcases k i with same | sent
  · exact same ▸ h i
  · rw [sent]
    rcases h i with same | sent
    · exact .inr (by rw [same])
    · exact .inr (by rw [sent, CommitState.sent_sent])

theorem CommitsSent.flight (h : CommitsSent s t) (i : SlotId) :
    (t.commit i).flight.isSome = (s.commit i).flight.isSome := by
  rcases h i with same | sent
  · rw [same]
  · rw [sent, CommitState.sent_flight]

theorem State.startTransaction_sent (s : State) (l : LaneId) (e : LaneEntry) : CommitsSent s (s.startTransaction l e) := by
  obtain ⟨_, _, _, _, commits⟩ := State.startTransaction_spec s l e
  intro i
  by_cases commit : e.laneClass = .commit
  · rw [if_pos commit] at commits
    by_cases own : e.slot = i
    · refine .inr ?_
      subst own
      simp only [State.commit, commits, Vector.getElem_set_self]
      rfl
    · refine .inl ?_
      simp only [State.commit, commits]
      exact Vector.getElem_set_ne _ _ fun same => own (Fin.ext same)
  · rw [if_neg commit] at commits
    exact .inl (by simp only [State.commit, commits])

/-- What a lane does when it takes entries: its own record, the commits it sends, the Level Sense Unit's items but the
slots' own, and the notices of pass-throughs refused. -/
structure LaneWork (s t : State) (l : LaneId) : Prop where
  only : t = { s with
    bus := { s.bus with lanes := t.bus.lanes }
    commits := t.commits
    sense := t.sense
    joinStamps := t.joinStamps
    notices := t.notices }
  commits : CommitsSent s t
  lanes : ∀ k, l ≠ k → t.lane k = s.lane k
  items : t.sense.slots = s.sense.slots
  raises : Raises s.notices t.notices

theorem LaneWork.refl (s : State) (l : LaneId) : LaneWork s s l :=
  ⟨rfl, .of_eq rfl, fun _ _ => rfl, rfl, .refl⟩

theorem LaneWork.trans {l : LaneId} (h : LaneWork s t l) (k : LaneWork t u l) : LaneWork s u l where
  only := by
    have first := h.only
    have second := k.only
    rw [second, first]
  commits := h.commits.trans k.commits
  lanes := fun x other => (k.lanes x other).trans (h.lanes x other)
  items := k.items.trans h.items
  raises := h.raises.trans k.raises

theorem LaneWork.updLane (s : State) (l : LaneId) (f : Lane → Lane) : LaneWork s (s.updLane l f) l :=
  ⟨rfl, .of_eq rfl, fun _ other => State.updLane_lane_other _ _ _ _ other, rfl, .refl⟩

theorem State.passDone_work (s : State) (l : LaneId) (e : LaneEntry) (status : PassStatus) :
    LaneWork s (s.passDone e status) l := by
  unfold State.passDone
  split
  case h_1 => exact ⟨rfl, .of_eq rfl, fun _ _ => rfl, rfl, .raise _ .refl⟩
  case h_2 => exact .refl s l

theorem State.goesOnWire_items (s : State) (i : SlotId) : (s.goesOnWire i).sense.slots = s.sense.slots := by
  unfold State.goesOnWire
  split
  case h_1 =>
    split
    case isTrue =>
      split
      case isTrue =>
        unfold State.abandonRun
        split
        case h_1 => exact (State.returnRequest_run _ _).2
        case h_2 => rfl
      case isFalse => rfl
    case isFalse => rfl
  case h_2 => rfl

theorem State.startTransaction_work (s : State) (l : LaneId) (e : LaneEntry) :
    LaneWork s (s.startTransaction l e) l := by
  obtain ⟨_, lanes, notices, _, _⟩ := State.startTransaction_spec s l e
  have sent := State.startTransaction_sent s l e
  refine ⟨?_, sent, lanes, ?_, notices ▸ .refl⟩
  · rw [State.startTransaction_eq]
    split
    case isTrue =>
      have only := State.goesOnWire_only
        ((s.updLane l fun lane => { lane with state := .onWire ⟨e, 0, 0, .replyWait, false⟩ }).commitSent e.slot) e.slot
      unfold SenseOnly at only
      rw [only]
      rfl
    case isFalse =>
      have only := State.goesOnWire_only
        (s.updLane l fun lane => { lane with state := .onWire ⟨e, 0, 0, .replyWait, false⟩ }) e.slot
      unfold SenseOnly at only
      rw [only]
      rfl
  · rw [State.startTransaction_eq, State.goesOnWire_items]
    split
    case isTrue => rfl
    case isFalse => rfl

theorem State.takeEntryN_work (n : Nat) (s : State) (l : LaneId) : LaneWork s (State.takeEntryN n s l) l := by
  induction n generalizing s with
  | zero => exact .refl s l
  | succ n ih =>
    unfold State.takeEntryN
    split
    case isTrue => exact .updLane s l _
    case isFalse =>
      split
      case h_1 => exact .refl s l
      case h_2 =>
        dsimp only
        split
        case isTrue => exact ((LaneWork.updLane s l _).trans (State.passDone_work _ l _ _)).trans (ih _)
        case isFalse => exact (LaneWork.updLane s l _).trans (State.startTransaction_work _ _ _)

theorem State.takeEntry_work (s : State) (l : LaneId) : LaneWork s (s.takeEntry l) l := State.takeEntryN_work _ _ _

theorem State.enqueue_work (s : State) (e : LaneEntry) : LaneWork s (s.enqueue e) (laneOf e.slot) := by
  unfold State.enqueue
  dsimp only
  split
  case h_1 => exact (LaneWork.updLane s _ _).trans (State.takeEntry_work _ _)
  case h_2 => exact .updLane s _ _

/-! ## Triggers (R103 to R106) -/

/-- R105: a commit as it is taken. -/
def State.newFlight (s : State) (i : SlotId) (phase : FlightPhase) : Flight :=
  ⟨phase, (s.slot i).uncommitted, (s.slot i).committed + (s.slot i).uncommitted, s.nextNonce⟩

/-- R105: the commit taken, WAITING or already SENT; another slot's commit may be SENT by its lane. -/
theorem State.takeCommit_spec (s : State) (i : SlotId) :
    (∃ phase, (phase = .waiting ∨ phase = .sent) ∧
      ((s.takeCommit i).commit i).flight = some (s.newFlight i phase)) ∧
      (∀ j, i ≠ j → ((s.takeCommit i).commit j).flight.isSome = (s.commit j).flight.isSome) ∧
      (s.takeCommit i).nonceDraws = s.nonceDraws + 1 := by
  have work := State.enqueue_work (s.nonceDrawn.updCommit i fun c => { c with flight := some (s.newFlight i .waiting) })
    ⟨i, .odoAdvance ((s.slot i).committed + (s.slot i).uncommitted) (s.slot i).generation s.nextNonce, none⟩
  have sent := work.commits
  refine ⟨?_, fun j other => ?_, ?_⟩
  · rcases sent i with same | sent
    · exact ⟨.waiting, .inl rfl, (congrArg CommitState.flight same).trans
        (congrArg CommitState.flight (State.updCommit_commit_same ..))⟩
    · refine ⟨.sent, .inr rfl, (congrArg CommitState.flight sent).trans ?_⟩
      rw [State.updCommit_commit_same]
      rfl
  · refine (sent.flight j).trans ?_
    rw [State.updCommit_commit_other _ _ _ _ other]
    rfl
  · exact (congrArg State.nonceDraws work.only).trans rfl

/-- A trigger leaves a commit in flight for its slot, and takes none away. -/
theorem State.actTrigger_flight (s : State) (i : SlotId) (forced : Bool) :
    ((s.actTrigger i forced).commit i).flight.isSome = true ∧
      ∀ j, (s.commit j).flight.isSome = true → ((s.actTrigger i forced).commit j).flight.isSome = true := by
  have kept : ∀ (f : CommitState → CommitState) (v : State), (∀ c, (f c).flight.isSome = c.flight.isSome) →
      (∀ j, v.commit j = (s.updCommit i f).commit j) → ∀ j, (v.commit j).flight.isSome = (s.commit j).flight.isSome := by
    intro f v flight same j
    rw [same, State.updCommit_commit]
    split
    case isTrue => rw [flight]
    case isFalse => rfl
  unfold State.actTrigger
  split
  case h_1 idle =>
    obtain ⟨⟨phase, _, taken⟩, others, _⟩ := State.takeCommit_spec s i
    have own : ((s.takeCommit i).commit i).flight.isSome = true := by rw [taken]; rfl
    refine ⟨own, fun j inFlight => ?_⟩
    by_cases same : i = j
    · exact same ▸ own
    · rw [others j same, inFlight]
  case h_2 f inFlight =>
    have own : (s.commit i).flight.isSome = true := by rw [inFlight]; rfl
    split
    case isTrue waiting =>
      have each := kept (fun c => { c with flight := c.flight.map fun f =>
        { f with snapshot := (s.slot i).uncommitted, advance := (s.slot i).committed + (s.slot i).uncommitted } })
        (s.enlargeCommit i) (fun c => Option.isSome_map ..) fun j => rfl
      exact ⟨(each i).trans own, fun j inFlight => (each j).trans inFlight⟩
    case isFalse =>
      split
      case isTrue => exact ⟨own, fun j inFlight => inFlight⟩
      case isFalse =>
        have each := kept (fun c => { c with again := c.again.after forced })
          (s.updCommit i fun c => { c with again := c.again.after forced }) (fun c => rfl) fun j => rfl
        exact ⟨(each i).trans own, fun j inFlight => (each j).trans inFlight⟩

theorem State.triggerActs_iff (s : State) (i : SlotId) :
    s.triggerActs i = true ↔ (s.slot i).state.isAdmitted = true ∧ 0 < (s.slot i).uncommitted := by
  rw [State.triggerActs, Bool.and_eq_true, decide_eq_true_iff]

theorem State.triggerActs_congr (h : RecordsKept s t) (i : SlotId) : t.triggerActs i = s.triggerActs i := by
  rw [State.triggerActs, h.slot, State.triggerActs]

/-- R116: forced triggers of several slots leave a commit in flight for each that they act on. -/
theorem State.forcedTriggers_flight (l : List SlotId) (s : State) :
    (∀ j, (s.commit j).flight.isSome = true →
      ((l.foldl (fun s i => s.forcedTrigger i) s).commit j).flight.isSome = true) ∧
    ∀ i ∈ l, s.triggerActs i = true →
      ((l.foldl (fun s i => s.forcedTrigger i) s).commit i).flight.isSome = true := by
  induction l generalizing s with
  | nil => exact ⟨fun j inFlight => inFlight, fun i inList => nomatch inList⟩
  | cons k l ih =>
    obtain ⟨kept, acted⟩ := ih (s.forcedTrigger k)
    have stays : ∀ j, (s.commit j).flight.isSome = true → ((s.forcedTrigger k).commit j).flight.isSome = true := by
      intro j inFlight
      unfold State.forcedTrigger
      split
      case isTrue => exact (State.actTrigger_flight s k true).2 j inFlight
      case isFalse => exact inFlight
    refine ⟨fun j inFlight => kept j (stays j inFlight), fun i inList acts => ?_⟩
    rcases List.mem_cons.1 inList with rfl | later
    · refine kept i ?_
      rw [State.forcedTrigger, if_pos acts]
      exact (State.actTrigger_flight s i true).1
    · exact acted i later ((State.triggerActs_congr ((RecordsKept.refl s).forcedTrigger k) i).trans acts)

/-! ## COMMIT_NOW (R115) -/

theorem CommitState.advance_of {c : CommitState} {f : Flight} (h : c.flight = some f) : c.advance = f.advance := by
  rw [CommitState.advance, h]

theorem serveCommitNow_slot (i : SlotId) : serveCommitNow (some i.val) s = s.commitNamed i := by
  rw [serveCommitNow, slotOf_val]

theorem State.actTrigger_idle {i : SlotId} {forced : Bool} (idle : (s.commit i).flight = none) :
    s.actTrigger i forced = s.takeCommit i := by
  rw [State.actTrigger, idle]

theorem State.actTrigger_waiting {i : SlotId} {forced : Bool} {f : Flight} (inFlight : (s.commit i).flight = some f)
    (waiting : f.phase = .waiting) : s.actTrigger i forced = s.enlargeCommit i := by
  rw [State.actTrigger, inFlight]
  exact if_pos waiting

theorem State.actTrigger_sent {i : SlotId} {forced : Bool} {f : Flight} (inFlight : (s.commit i).flight = some f)
    (sent : f.phase ≠ .waiting) :
    s.actTrigger i forced = if (s.slot i).uncommitted = f.snapshot then s
      else s.updCommit i fun c => { c with again := c.again.after forced } := by
  rw [State.actTrigger, inFlight]
  exact if_neg sent

/-- Settles O32: the refusals, the three phases, and the trigger of every slot. -/
theorem commit_now : Obligations.Commit_now := by
  intro s tag ready
  refine ⟨fun n above => ?_, fun i => ⟨fun refused => ?_, fun admitted zero => ?_, fun admitted positive => ?_⟩, ?_⟩
  · refine exec_served ready ?_
    rw [serveCommitNow, slotOf_eq_none above]
    rfl
  · refine exec_served ready ?_
    rw [serveCommitNow_slot]
    exact if_pos refused
  · refine exec_served ready ?_
    rw [serveCommitNow_slot]
    exact (if_neg (by rw [Bool.not_eq_false]; exact admitted)).trans (if_pos zero)
  · have acts : s.beginRequest.forcedTrigger i = s.beginRequest.actTrigger i true :=
      if_pos ((State.triggerActs_iff s i).2 ⟨admitted, positive⟩)
    have undisturbed : Undisturbed s.beginRequest (s.beginRequest.actTrigger i true) := (Undisturbed.refl _).actTrigger i true
    obtain ⟨sent, inFlight⟩ := Option.isSome_iff_exists.1 (State.actTrigger_flight s.beginRequest i true).1
    refine ⟨s.beginRequest.actTrigger i true, sent, inFlight, exec_answered ready ?_ undisturbed.host, undisturbed,
      ((RecordsKept.refl s).of_eq (u := s.beginRequest) rfl rfl rfl).actTrigger i true, fun idle => ?_, fun f flying waiting => ?_,
      fun f flying onWire => ?_⟩
    · rw [serveCommitNow_slot]
      refine ((if_neg (by rw [Bool.not_eq_false]; exact admitted)).trans (if_neg (Nat.ne_of_gt positive))).trans ?_
      dsimp only
      rw [acts, CommitState.advance_of inFlight]
    · rw [State.actTrigger_idle (s := s.beginRequest) idle]
      obtain ⟨⟨phase, ofTwo, taken⟩, _, draws⟩ := State.takeCommit_spec s.beginRequest i
      exact ⟨phase, taken, ofTwo, draws⟩
    · rw [State.actTrigger_waiting (s := s.beginRequest) flying waiting]
      refine ⟨(State.updCommit_commit_same ..).trans ?_, (State.updLane_lane_same ..).trans rfl, rfl⟩
      show ({ s.commit i with flight := (s.commit i).flight.map _ } : CommitState) = _
      rw [flying]
      rfl
    · rw [State.actTrigger_sent (s := s.beginRequest) flying onWire]
      by_cases same : (s.slot i).uncommitted = f.snapshot
      · rw [if_pos same, if_pos (show (s.beginRequest.slot i).uncommitted = f.snapshot from same)]
        rfl
      · rw [if_neg same, if_neg (show ¬(s.beginRequest.slot i).uncommitted = f.snapshot from same),
          State.updCommit_commit_same]
        rfl
  · have acting : ∀ i, i ∈ (List.finRange 16).filter (fun i => s.triggerActs i) ↔
        (s.slot i).state.isAdmitted = true ∧ 0 < (s.slot i).uncommitted := fun i => by
      rw [List.mem_filter, State.triggerActs_iff]
      simp
    have undisturbed := Undisturbed.foldl (fun s i => State.forcedTrigger s i)
      ((List.finRange 16).filter fun i => s.triggerActs i) (Undisturbed.refl s.beginRequest) fun u i h => h.forcedTrigger i
    have records := RecordsKept.foldl (fun s i => State.forcedTrigger s i)
      ((List.finRange 16).filter fun i => s.triggerActs i)
      ((RecordsKept.refl s).of_eq (u := s.beginRequest) rfl rfl rfl) fun u i h => h.forcedTrigger i
    have flights := State.forcedTriggers_flight ((List.finRange 16).filter fun i => s.triggerActs i) s.beginRequest
    refine ⟨_, (List.finRange 16).filter fun i => s.triggerActs i, exec_answered ready ?_ undisturbed.host, undisturbed,
      records, acting, fun i acted => flights.2 i acted (List.mem_filter.1 acted).2⟩
    refine Prod.ext rfl (congrArg (fun status => Answer.mk status _) ?_)
    exact if_congr List.isEmpty_iff rfl rfl

/-! ## Pass-throughs (R43, R44) -/

theorem State.violation_host (s : State) (v : Violation) : (s.violation v).host = s.host := by
  unfold State.violation
  split
  case isTrue => rfl
  case isFalse => rfl

theorem State.accessPermitted_iff (s : State) (address length : Nat) (isWrite : Bool) :
    s.accessPermitted address length isWrite = true ↔ ∃ w ∈ s.bus.windows.toList,
      w.low ≤ address ∧ address + length - 1 ≤ w.high ∧ (if isWrite then w.writeEnable else w.readEnable) = true := by
  unfold State.accessPermitted
  rw [List.any_eq_true]
  simp only [Window.permits, Bool.and_eq_true, decide_eq_true_iff, and_assoc]

/-- A pass-through request of a kind: its check 1, and that checks 2 to 4 and the acceptance answer the rest. -/
structure Passes (s : State) (c : Instr) (kind tag : Byte) (slot address length : Nat) (command : TagCommand)
    (isWrite : Bool) : Prop where
  bad : (15 < slot ∨ length = 0 ∨ 16 < length) → exec c s = .next (s.answering kind tag .badArgument .none).settle
  checked : ∀ (i : SlotId) (u : State) (status : Status) (fields : ReplyFields), i.val = slot → 0 < length →
    length ≤ 16 → s.beginRequest.passThrough i command address length isWrite = (u, ⟨status, fields⟩) →
      u.host = s.beginRequest.host → exec c s = .next (u.answering kind tag status fields).settle

theorem tagRead_passes (ready : s.host.working = false) (slot address length : Nat) :
    Passes s (.tagRead tag (.fields ⟨slot, address, length⟩)) 0x14 tag slot address length (.memRead address length)
      false where
  bad := fun refused => exec_served ready (serve := serveTagRead) <| by
    unfold serveTagRead
    split
    case h_1 => rfl
    case h_2 i named =>
      refine if_pos (refused.resolve_left fun above => ?_)
      rw [slotOf_eq_none above] at named
      cases named
  checked := fun i u status fields named positive short served host => exec_answered ready (serve := serveTagRead)
    (by
      rw [serveTagRead, slotOf_of_val named]
      exact (if_neg fun bad => bad.elim (Nat.ne_of_gt positive) (Nat.not_lt.2 short)).trans served) host

theorem tagWrite_passes (ready : s.host.working = false) (slot address : Nat) (data : List Byte) :
    Passes s (.tagWrite tag (.fields ⟨slot, address, data⟩)) 0x15 tag slot address data.length (.memWrite address data)
      true where
  bad := fun refused => exec_served ready (serve := serveTagWrite) <| by
    unfold serveTagWrite
    split
    case h_1 => rfl
    case h_2 i named =>
      refine if_pos (refused.resolve_left fun above => ?_)
      rw [slotOf_eq_none above] at named
      cases named
  checked := fun i u status fields named positive short served host => exec_answered ready (serve := serveTagWrite)
    (by
      rw [serveTagWrite, slotOf_of_val named]
      exact (if_neg fun bad => bad.elim (Nat.ne_of_gt positive) (Nat.not_lt.2 short)).trans served) host

theorem State.passThrough_permitted {i : SlotId} {command : TagCommand} {address length : Nat} {isWrite : Bool}
    (admitted : (s.slot i).state.isAdmitted = true) (permitted : s.accessPermitted address length isWrite = true) :
    s.passThrough i command address length isWrite =
      if 4 ≤ s.passQueued (laneOf i) then (s, only .full)
      else (State.enqueue { s with bus := { s.bus with lastTicket := s.nextTicket } } ⟨i, command, some s.nextTicket⟩,
        ⟨.accepted, .ticket s.nextTicket⟩) := by
  rw [State.passThrough, if_neg (by rw [Bool.not_eq_false]; exact admitted),
    if_neg (by rw [Bool.not_eq_false]; exact permitted)]
  rfl

/-- Settles O35: the checks in their order, and the entry that joins. -/
theorem tag_access : Obligations.Tag_access := by
  intro s tag kind c slot address length command isWrite ready form
  have passes : Passes s c kind tag slot address length command isWrite := by
    rcases form with ⟨rfl, rfl, rfl, rfl⟩ | ⟨data, rfl, rfl, rfl, rfl, rfl⟩
    · exact tagRead_passes ready slot address length
    · exact tagWrite_passes ready slot address data
  refine ⟨passes.bad, fun i named positive short => ⟨fun refused => ?_, fun admitted => ⟨fun noWindow => ?_,
    fun permitted => ⟨fun full => ?_, fun room => ?_⟩⟩⟩⟩
  · exact passes.checked i s.beginRequest .wrongState .none named positive short (if_pos refused) rfl
  · have unpermitted : s.beginRequest.accessPermitted address length isWrite = false := by
      refine Bool.eq_false_iff.2 fun permitted => ?_
      obtain ⟨w, inWindows, low, high, enabled⟩ := (State.accessPermitted_iff s address length isWrite).1 permitted
      rcases noWindow w inWindows with below | above | disabled
      · omega
      · omega
      · exact absurd (enabled.symm.trans disabled) Bool.noConfusion
    refine (passes.checked i _ .isProtected .none named positive short
      ((if_neg (by rw [Bool.not_eq_false]; exact admitted)).trans (if_pos unpermitted)) ?_).trans ?_
    · exact State.violation_host _ _
    · rw [State.violation_beginRequest]
      rfl
  · exact passes.checked i s.beginRequest .full .none named positive short
      ((State.passThrough_permitted (s := s.beginRequest) admitted
        ((State.accessPermitted_iff s _ _ _).2 permitted)).trans (if_pos full)) rfl
  · have undisturbed := (Undisturbed.refl { s.beginRequest with bus := { s.bus with lastTicket := s.nextTicket } }).enqueue
      ⟨i, command, some s.nextTicket⟩
    have passClass : (⟨i, command, some s.nextTicket⟩ : LaneEntry).laneClass ≠ .pass ∨
        (s.slot i).state.isAdmitted = true := .inr admitted
    refine ⟨_, passes.checked i _ _ _ named positive short
      ((State.passThrough_permitted (s := s.beginRequest) admitted
        ((State.accessPermitted_iff s _ _ _).2 permitted)).trans (if_neg (Nat.not_le.2 room))) undisturbed.host, undisturbed,
      ((RecordsKept.refl s).of_eq (u := { s.beginRequest with bus := { s.bus with lastTicket := s.nextTicket } })
        rfl rfl rfl).enqueue _, fun busy => ?_, fun idle empty a b => ?_⟩
    · exact (congrArg (fun v : State => v.lane (laneOf i)) (State.enqueue_busy (e := ⟨i, command, some s.nextTicket⟩)
        (s := { s.beginRequest with bus := { s.bus with lastTicket := s.nextTicket } }) busy)).trans
          (State.updLane_lane_same ..)
    · obtain ⟨onWire, taken, _⟩ := State.enqueue_idle (e := ⟨i, command, some s.nextTicket⟩)
        (s := { s.beginRequest with bus := { s.bus with lastTicket := s.nextTicket } }) idle empty passClass
        (Bus.table_lawful a b _)
      exact ⟨onWire, taken⟩

end

end Sys2Proof.Machine

/-! PROOF. The preservation writes (R109): what they leave in the entries and in the store queue; RESET (O44) and the
edges of POWER_WARN (O9, O10). -/

namespace Sys2Proof.Machine

section
variable {s t u : State} {tag kind : Byte}

/-! ## Entries written in place -/

/-- Only places and the store queue differ: each entry keeps its serial, and no index leaves the queue. -/
structure PlacesWritten (s t : State) : Prop where
  only : t = { s with history := { s.history with
    places := t.history.places
    urgent := t.history.urgent
    ordinary := t.history.ordinary } }
  serials : ∀ p, (t.place p).map HistoryEntry.serial = (s.place p).map HistoryEntry.serial
  urgent : ∀ p ∈ s.history.urgent, p ∈ t.history.urgent
  ordinary : ∀ p ∈ s.history.ordinary, p ∈ t.history.urgent ∨ p ∈ t.history.ordinary

theorem PlacesWritten.refl (s : State) : PlacesWritten s s := ⟨rfl, fun _ => rfl, fun _ h => h, fun _ h => .inr h⟩

theorem PlacesWritten.trans (h : PlacesWritten s t) (k : PlacesWritten t u) : PlacesWritten s u where
  only := by
    have first := h.only
    have second := k.only
    rw [second, first]
  serials := fun p => (k.serials p).trans (h.serials p)
  urgent := fun p queued => k.urgent p (h.urgent p queued)
  ordinary := fun p queued => (h.ordinary p queued).elim (fun urgent => .inl (k.urgent p urgent)) (k.ordinary p)

theorem PlacesWritten.slot (h : PlacesWritten s t) (i : SlotId) : t.slot i = s.slot i := by rw [h.only]; rfl

theorem PlacesWritten.commit (h : PlacesWritten s t) (i : SlotId) : t.commit i = s.commit i := by rw [h.only]; rfl

theorem PlacesWritten.exposed (h : PlacesWritten s t) (i : SlotId) : t.exposed i = s.exposed i := by
  rw [State.exposed, State.exposed, h.slot, h.commit]

theorem State.findEntry_congr (h : ∀ p, (t.place p).map HistoryEntry.serial = (s.place p).map HistoryEntry.serial)
    (serial : Word64) : t.findEntry serial = s.findEntry serial := by
  unfold State.findEntry
  congr 1
  funext p
  have same := h p
  cases later : t.place p with
  | none =>
    cases earlier : s.place p with
    | none => rfl
    | some e => rw [later, earlier] at same; cases same
  | some x =>
    cases earlier : s.place p with
    | none => rw [later, earlier] at same; cases same
    | some e =>
      rw [later, earlier] at same
      exact congrArg (· == serial) (Option.some.inj same)

theorem PlacesWritten.entryOf (h : PlacesWritten s t) (i : SlotId) : t.entryOf i = s.entryOf i := by
  unfold State.entryOf
  rw [h.slot]
  cases (s.slot i).description with
  | none => rfl
  | some d => exact State.findEntry_congr h.serials d.serial

/-- The place found holds an entry of the serial. -/
theorem State.findEntry_some {serial : Word64} {p : PlaceId} (found : s.findEntry serial = some p) :
    ∃ e, s.place p = some e ∧ e.serial = serial := by
  have holds := List.find?_some found
  cases entry : s.place p with
  | none => rw [entry] at holds; cases holds
  | some e =>
    rw [entry] at holds
    exact ⟨e, rfl, eq_of_beq holds⟩

theorem State.entryOf_some {i : SlotId} {p : PlaceId} (found : s.entryOf i = some p) :
    ∃ d e, (s.slot i).description = some d ∧ s.place p = some e ∧ e.serial = d.serial := by
  unfold State.entryOf at found
  cases described : (s.slot i).description with
  | none => rw [described] at found; cases found
  | some d =>
    rw [described] at found
    obtain ⟨e, entry, same⟩ := State.findEntry_some found
    exact ⟨d, e, rfl, entry, same⟩

/-! ## The store queue (R185) -/

theorem History.placed_places (h : History) (p : PlaceId) (urgent : Bool) :
    h.placed p urgent = { h with urgent := (h.placed p urgent).urgent, ordinary := (h.placed p urgent).ordinary } := by
  unfold History.placed
  split
  case isTrue => rfl
  case isFalse =>
    split
    case isTrue => rfl
    case isFalse =>
      split
      case isTrue => rfl
      case isFalse => rfl

theorem History.placed_queue (h : History) (p : PlaceId) (urgent : Bool) :
    (∀ q ∈ h.urgent, q ∈ (h.placed p urgent).urgent) ∧
      (∀ q ∈ h.ordinary, q ∈ (h.placed p urgent).urgent ∨ q ∈ (h.placed p urgent).ordinary) ∧
      (urgent = true → p ∈ (h.placed p urgent).urgent ∧ ∀ q ∈ (h.placed p urgent).ordinary, q ∈ h.ordinary) := by
  unfold History.placed
  split
  case isTrue queued => exact ⟨fun _ h => h, fun _ h => .inr h, fun _ => ⟨queued, fun _ h => h⟩⟩
  case isFalse =>
    split
    case isTrue =>
      refine ⟨fun q queued => List.mem_append_left _ queued, fun q queued => ?_, fun _ =>
        ⟨List.mem_append_right _ (List.mem_singleton.2 rfl), fun q queued => (List.mem_filter.1 queued).1⟩⟩
      by_cases same : q = p
      · exact .inl (List.mem_append_right _ (List.mem_singleton.2 same))
      · exact .inr (List.mem_filter.2 ⟨queued, decide_eq_true same⟩)
    case isFalse ordinary =>
      split
      case isTrue => exact ⟨fun _ h => h, fun _ h => .inr h, fun is => absurd is ordinary⟩
      case isFalse =>
        exact ⟨fun _ h => h, fun _ h => .inr (List.mem_append_left _ h), fun is => absurd is ordinary⟩

/-- R172: the place written holds the entry given; every other keeps its own. -/
theorem State.writePlace_place (s : State) (p q : PlaceId) (e : Option HistoryEntry) (urgent : Bool) :
    (s.writePlace p e urgent).place q = if p = q then e else s.place q := by
  rw [State.writePlace, State.placeStored]
  show (History.placed _ p _).places[q.val] = _
  rw [History.placed_places]
  exact modifyAt_get ..

/-- R185: the index is placed, urgent where the rule says so. -/
theorem State.writePlace_history (s : State) (p : PlaceId) (e : Option HistoryEntry) (urgent : Bool) :
    ∃ inUrgent, (s.writePlace p e urgent).history =
      ({ s.history with places := modifyAt s.history.places p fun _ => e } : History).placed p inUrgent ∧
      (urgent = true → inUrgent = true) := by
  refine ⟨_, rfl, ?_⟩
  rintro rfl
  exact Bool.true_or _

/-- An entry rewritten under its own serial. -/
theorem State.writePlace_written {p : PlaceId} {e x : HistoryEntry} (entry : s.place p = some x)
    (serial : e.serial = x.serial) (urgent : Bool) : PlacesWritten s (s.writePlace p (some e) urgent) := by
  refine ⟨?_, fun q => ?_, ?_, ?_⟩
  · rw [State.writePlace, State.placeStored]
    show State.updHistory _ _ = _
    rw [State.updHistory, History.placed_places]
    rfl
  · rw [State.writePlace_place]
    split
    case isTrue same => rw [← same, entry, Option.map_some, Option.map_some, serial]
    case isFalse => rfl
  · obtain ⟨inUrgent, placed, _⟩ := s.writePlace_history p (some e) urgent
    rw [placed]
    exact (History.placed_queue { s.history with places := modifyAt s.history.places p fun _ => some e } p inUrgent).1
  · obtain ⟨inUrgent, placed, _⟩ := s.writePlace_history p (some e) urgent
    rw [placed]
    exact (History.placed_queue { s.history with places := modifyAt s.history.places p fun _ => some e } p inUrgent).2.1

theorem State.writePlace_urgent (s : State) (p : PlaceId) (e : Option HistoryEntry) :
    p ∈ (s.writePlace p e true).history.urgent ∧
      ∀ q ∈ (s.writePlace p e true).history.ordinary, q ∈ s.history.ordinary := by
  obtain ⟨inUrgent, placed, urgent⟩ := s.writePlace_history p e true
  rw [placed]
  exact (History.placed_queue _ _ _).2.2 (urgent rfl)

/-! ## The preservation write (R109) -/

/-- The entry as the preservation write of slot `i` leaves it. -/
def State.preserved (s : State) (i : SlotId) (e : HistoryEntry) : HistoryEntry :=
  { e with pendingCharge := nonzero (s.slot i).uncommitted, uncertain := nonzero (s.exposed i) }

theorem State.preserve_eq {i : SlotId} {p : PlaceId} {e : HistoryEntry} (found : s.entryOf i = some p)
    (entry : s.place p = some e) (urgent : Bool) :
    s.preserve i urgent = s.writePlace p (some (s.preserved i e)) urgent := by
  rw [State.preserve, found]
  dsimp only
  rw [State.editEntry, entry]
  rfl

theorem State.preserve_written (s : State) (i : SlotId) (urgent : Bool) : PlacesWritten s (s.preserve i urgent) := by
  cases found : s.entryOf i with
  | none => rw [State.preserve, found]; exact .refl s
  | some p =>
    obtain ⟨d, e, _, entry, _⟩ := State.entryOf_some found
    rw [State.preserve_eq found entry]
    exact State.writePlace_written (e := s.preserved i e) entry rfl urgent

theorem State.preserve_place (s : State) (i : SlotId) (urgent : Bool) (p : PlaceId) :
    (s.preserve i urgent).place p = if s.entryOf i = some p then (s.place p).map (s.preserved i) else s.place p := by
  cases found : s.entryOf i with
  | none => rw [State.preserve, found]; rfl
  | some q =>
    obtain ⟨d, e, _, entry, _⟩ := State.entryOf_some found
    rw [State.preserve_eq found entry, State.writePlace_place]
    by_cases same : q = p
    · subst same
      rw [if_pos rfl, if_pos rfl, entry]
      rfl
    · rw [if_neg same, if_neg fun other => same (Option.some.inj other)]

/-- The preservation writes of the reconciled slots of a list, placed urgent. -/
def State.preserveSlots (l : List SlotId) (s : State) : State :=
  l.foldl (fun s i => if (s.slot i).isReconciled then s.preserve i true else s) s

theorem State.preserveAll_eq (s : State) : s.preserveAll = State.preserveSlots (List.finRange 16) s := rfl

theorem State.preserveSlots_cons (i : SlotId) (l : List SlotId) (s : State) :
    State.preserveSlots (i :: l) s =
      State.preserveSlots l (if (s.slot i).isReconciled then s.preserve i true else s) := rfl

theorem State.preserveOne_written (s : State) (i : SlotId) :
    PlacesWritten s (if (s.slot i).isReconciled then s.preserve i true else s) := by
  split
  case isTrue => exact s.preserve_written i true
  case isFalse => exact .refl s

theorem State.preserveSlots_written (l : List SlotId) (s : State) : PlacesWritten s (State.preserveSlots l s) := by
  induction l generalizing s with
  | nil => exact .refl s
  | cons i l ih => exact (s.preserveOne_written i).trans (ih _)

/-- A place of no reconciled slot's entry stays. -/
theorem State.preserveSlots_other (l : List SlotId) (s : State) (p : PlaceId)
    (none : ∀ i ∈ l, (s.slot i).isReconciled = true → s.entryOf i ≠ some p) :
    (State.preserveSlots l s).place p = s.place p := by
  induction l generalizing s with
  | nil => rfl
  | cons i l ih =>
    have written := s.preserveOne_written i
    rw [State.preserveSlots_cons, ih _ fun j inList reconciled => by
      rw [written.entryOf]
      exact none j (List.mem_cons_of_mem _ inList) (written.slot j ▸ reconciled)]
    split
    case isTrue reconciled =>
      rw [State.preserve_place, if_neg (none i List.mem_cons_self reconciled)]
    case isFalse => rfl

/-- The place of one reconciled slot's entry alone takes that slot's account. -/
theorem State.preserveSlots_own (l : List SlotId) (s : State) {i : SlotId} {p : PlaceId} {e : HistoryEntry}
    (reconciled : (s.slot i).isReconciled = true) (found : s.entryOf i = some p) (entry : s.place p = some e)
    (alone : ∀ j, j ≠ i → (s.slot j).isReconciled = true → s.entryOf j ≠ some p) (inList : i ∈ l) :
    (State.preserveSlots l s).place p = some (s.preserved i e) := by
  induction l generalizing s e with
  | nil => cases inList
  | cons k l ih =>
    have written := s.preserveOne_written k
    have later : ∀ x, (if (s.slot k).isReconciled then s.preserve k true else s).place p = some x → i ∈ l →
        (State.preserveSlots (k :: l) s).place p = some (s.preserved i x) := by
      intro x here inRest
      have := ih (if (s.slot k).isReconciled then s.preserve k true else s) (written.slot i ▸ reconciled)
        ((written.entryOf i).trans found) here
        (fun j other isReconciled => (written.entryOf j).symm ▸ alone j other (written.slot j ▸ isReconciled)) inRest
      rw [State.preserved, written.slot, written.exposed] at this
      exact this
    by_cases own : k = i
    · subst own
      have here : (if (s.slot k).isReconciled then s.preserve k true else s).place p = some (s.preserved k e) := by
        rw [if_pos reconciled, State.preserve_place, if_pos found, entry]
        rfl
      by_cases again : k ∈ l
      · exact later (s.preserved k e) here again
      · rw [State.preserveSlots_cons, State.preserveSlots_other l _ p fun j inRest isReconciled => ?_, here]
        rw [written.entryOf]
        exact alone j (fun same => again (same ▸ inRest)) (written.slot j ▸ isReconciled)
    · refine later e ?_ ((List.mem_cons.1 inList).resolve_left (Ne.symm own))
      split
      case isTrue isReconciled => rw [State.preserve_place, if_neg (alone k own isReconciled), entry]
      case isFalse => exact entry

/-- The indexes of the reconciled slots' entries are urgent, and nothing joins the ordinary part. -/
theorem State.preserveSlots_queue (l : List SlotId) (s : State) :
    (∀ i ∈ l, ∀ p, (s.slot i).isReconciled = true → s.entryOf i = some p →
      p ∈ (State.preserveSlots l s).history.urgent) ∧
      ∀ p ∈ (State.preserveSlots l s).history.ordinary, p ∈ s.history.ordinary := by
  induction l generalizing s with
  | nil => exact ⟨fun i inList => (nomatch inList), fun p queued => queued⟩
  | cons k l ih =>
    have written := s.preserveOne_written k
    obtain ⟨urgent, ordinary⟩ := ih (if (s.slot k).isReconciled then s.preserve k true else s)
    have first : ∀ p, (s.slot k).isReconciled = true → s.entryOf k = some p →
        p ∈ (if (s.slot k).isReconciled then s.preserve k true else s).history.urgent := by
      intro p reconciled found
      obtain ⟨d, e, _, entry, _⟩ := State.entryOf_some found
      rw [if_pos reconciled, State.preserve_eq found entry]
      exact (State.writePlace_urgent ..).1
    refine ⟨fun i inList p reconciled found => ?_, fun p queued => ?_⟩
    · rcases List.mem_cons.1 inList with rfl | inRest
      · exact (State.preserveSlots_written l _).urgent p (first p reconciled found)
      · exact urgent i inRest p (written.slot i ▸ reconciled) ((written.entryOf i).trans found)
    · have before := ordinary p queued
      split at before
      case isTrue =>
        cases found : s.entryOf k with
        | none => rwa [State.preserve, found] at before
        | some q =>
          obtain ⟨d, e, _, entry, _⟩ := State.entryOf_some found
          rw [State.preserve_eq found entry] at before
          exact (State.writePlace_urgent ..).2 p before
      case isFalse => exact before

theorem nonzero_eq (n : Nat) : nonzero n = if n = 0 then none else some n := rfl

/-! ## RESET (R191, R204) -/

/-- R191: the reset prepared, from what the preservation writes leave. -/
def State.waitingForWrites (v : State) : State :=
  { v with
    preparation := some ⟨false, v.history.urgent ++ v.history.ordinary⟩
    history := { v.history with writing := v.history.writing.map fun w => { w with forReset := true } } }

theorem State.prepareReset_eq (s : State) :
    s.prepareReset = (State.preserveSlots (List.finRange 16) s).waitingForWrites := by
  unfold State.prepareReset
  rw [State.preserveAll_eq]
  rfl

/-- Settles O44, from the preservation writes of all slots. -/
theorem reset_request : Obligations.Reset_request := by
  intro s tag ready
  obtain ⟨v, here⟩ : ∃ v, v = State.preserveSlots (List.finRange 16) s.beginRequest := ⟨_, rfl⟩
  have written : PlacesWritten s.beginRequest v := here ▸ State.preserveSlots_written _ _
  have queue := State.preserveSlots_queue (List.finRange 16) s.beginRequest
  have own := fun i p e reconciled found entry alone => State.preserveSlots_own (List.finRange 16) s.beginRequest
    (i := i) (p := p) (e := e) reconciled found entry alone (List.mem_finRange i)
  have other := fun p none => State.preserveSlots_other (List.finRange 16) s.beginRequest p none
  rw [← here] at queue own other
  obtain ⟨urgent, ordinary⟩ := queue
  have only := written.only
  refine ⟨v.waitingForWrites, exec_answered ready (Prod.ext (here ▸ State.prepareReset_eq _) rfl) ?_, ?_, rfl, ?_, ?_, ?_,
    fun p queued => written.urgent p queued, fun i p e reconciled found _ => urgent i (List.mem_finRange i) p reconciled found,
    fun i p e reconciled found entry alone => own i p e reconciled found entry alone,
    fun p queued => written.ordinary p queued, fun p queued => ordinary p queued, ?_, ?_,
    fun p unowned => other p fun i _ => unowned i⟩
  · rw [only]; rfl
  · rw [only]; rfl
  · rw [only]; rfl
  · rw [only]; rfl
  · rw [only]; rfl
  · rw [only]; rfl
  · rw [only]; rfl

/-! ## POWER_WARN (R116, R161, R189) -/

theorem State.haltScan_spec (s : State) : SenseOnly s s.haltScan ∧ s.haltScan.sense.scan = .halted := by
  unfold State.haltScan
  split
  case h_1 => exact ⟨(SenseOnly.refl s).updSense _, rfl⟩
  case h_2 =>
    refine ⟨SenseOnly.updSense ?_ _, rfl⟩
    unfold State.takeUpScan
    split
    case h_1 => exact (SenseOnly.refl s).updSense _
    case h_2 => exact .refl s
  case h_3 halted => exact ⟨.refl s, halted⟩

/-- R161: with POWER_WARN asserted and the scan HALTED the converter takes no work. -/
theorem State.converterWork_halted (warned : s.pins.powerWarn = true) (halted : s.sense.scan = .halted) :
    s.converterWork = s := by
  have notRunning : s.sense.scan ≠ .running := by rw [halted]; exact ScanState.noConfusion
  have same : s.passOver = s := if_neg fun running => notRunning running.1
  have idle : s.startInjected = none := if_pos warned
  unfold State.converterWork
  split
  case h_1 => rfl
  case h_2 =>
    dsimp only
    rw [same, idle]
    exact if_neg notRunning

/-- The state in which a round's preservation writes are made. -/
def State.roundBegun (s : State) : State :=
  (s.setPowerWarn true).updHistory fun h =>
    { h with
      round := some ⟨s.preservedPlaces, s.preservedPlaces.length⟩
      writing := h.writing.map fun w => { w with forRound := false } }

/-- What the assertion leaves before the triggers: the writes made, and a round of no entry ended. -/
def State.roundStarted (v : State) (places : List PlaceId) : State :=
  if places = [] then (v.updHistory fun h => { h with round := none }).raise (.powerPreserved 0) else v

theorem State.startRound_eq (s : State) : (s.setPowerWarn true).startRound =
    (State.preserveSlots (List.finRange 16) s.roundBegun).roundStarted s.preservedPlaces := by
  rw [← State.preserveAll_eq]
  exact if_congr List.isEmpty_iff rfl rfl

/-- R116: the triggers of all slots, from `v` to `u`. -/
structure Triggered (v u : State) : Prop where
  undisturbed : Undisturbed v u
  records : RecordsKept v u
  flights : ∀ i, v.triggerActs i = true → (u.commit i).flight.isSome = true

theorem State.triggerEvery_triggered (v : State) : Triggered v v.triggerEvery :=
  ⟨(Undisturbed.refl v).triggerEvery,
    RecordsKept.foldl (fun s i => State.forcedTrigger s i) _ (RecordsKept.refl v) fun _ i h => h.forcedTrigger i,
    fun i => (State.forcedTriggers_flight (List.finRange 16) v).2 i (List.mem_finRange i)⟩

/-- The whole assertion: the writes, the triggers, the scan's halt, and the next write; the converter takes no work. -/
theorem exec_powerWarnAssert (low : s.pins.powerWarn = false) :
    ∃ v u, v = State.preserveSlots (List.finRange 16) s.roundBegun ∧ Triggered (v.roundStarted s.preservedPlaces) u ∧
      exec .powerWarnAssert s = .next u.haltScan.startWrite := by
  obtain ⟨v, writes⟩ : ∃ v, v = State.preserveSlots (List.finRange 16) s.roundBegun := ⟨_, rfl⟩
  have written : PlacesWritten s.roundBegun v := writes ▸ State.preserveSlots_written _ _
  obtain ⟨u, triggers⟩ : ∃ u, u = (v.roundStarted s.preservedPlaces).triggerEvery := ⟨_, rfl⟩
  have triggered : Triggered (v.roundStarted s.preservedPlaces) u := triggers ▸ State.triggerEvery_triggered _
  refine ⟨v, u, writes, triggered,
    congrArg Host.Outcome.next ((if_neg (by rw [low]; exact Bool.false_ne_true)).trans ?_)⟩
  obtain ⟨halts, halted⟩ := State.haltScan_spec u
  have warned : v.pins.powerWarn = true := by rw [written.only]; rfl
  have started : (v.roundStarted s.preservedPlaces).pins.powerWarn = true := by
    unfold State.roundStarted
    split
    case isTrue => exact warned
    case isFalse => exact warned
  unfold SenseOnly at halts
  rw [State.startRound_eq, ← writes, ← triggers, State.settle, State.converterWork_halted ?_ halted]
  rw [halts]
  exact (congrArg Pins.powerWarn triggered.undisturbed.pins).trans started

/-- What the scan's halt and the next write leave. -/
theorem State.halted_written (u : State) :
    ∃ (sense : LevelSense) (history : History) (preparation : Option ResetPreparation) (stamps : Nat),
      sense.scan = .halted ∧
      u.haltScan.startWrite = { u with
        sense := sense
        history := history
        preparation := preparation
        joinStamps := stamps } ∧
      history.round = u.history.round := by
  obtain ⟨halts, halted⟩ := State.haltScan_spec u
  have writes := State.startWrite_only u.haltScan
  unfold SenseOnly at halts
  unfold WriteOnly at writes
  refine ⟨u.haltScan.startWrite.sense, u.haltScan.startWrite.history, u.haltScan.startWrite.preparation,
    u.haltScan.startWrite.joinStamps, ?_, ?_, ?_⟩
  · rw [writes]; exact halted
  · rw [writes, halts]
  · rw [writes, halts]

/-- Settles O9: the assertion, the deassertion, and the edges to the level held. -/
theorem power_warn_edges : Obligations.Power_warn_edges := by
  intro s
  refine ⟨fun low => ⟨congrArg Host.Outcome.next (if_neg (by rw [low]; exact Bool.false_ne_true)), ?_⟩,
    fun high => ⟨congrArg Host.Outcome.next (if_pos high), ?_⟩⟩
  · obtain ⟨v, u, writes, triggered, result⟩ := exec_powerWarnAssert low
    have written : PlacesWritten s.roundBegun v := writes ▸ State.preserveSlots_written _ _
    have only := written.only
    obtain ⟨sense, history, preparation, stamps, halted, ends, round⟩ := State.halted_written u
    have undisturbed := triggered.undisturbed
    have starts : v.roundStarted s.preservedPlaces = { v with
        history := (v.roundStarted s.preservedPlaces).history
        notices := (v.roundStarted s.preservedPlaces).notices } := by
      unfold State.roundStarted
      split
      case isTrue => rfl
      case isFalse => rfl
    refine ⟨_, result, ?_, ?_, ?_, ?_, ?_, ?_, ?_, ?_, ?_, ?_, ?_, fun empty => ?_, fun i admitted positive => ?_⟩
    · rw [ends]; exact undisturbed.pins.trans (by rw [starts, only]; rfl)
    · rw [ends]; exact triggered.records.slots.trans (by rw [starts, only]; rfl)
    · rw [ends]; exact triggered.records.channels.trans (by rw [starts, only]; rfl)
    · rw [ends]; exact undisturbed.host.trans (by rw [starts, only]; rfl)
    · rw [ends]; exact undisturbed.keys.trans (by rw [starts, only]; rfl)
    · rw [ends]; exact undisturbed.tally.trans (by rw [starts, only]; rfl)
    · rw [ends]; exact undisturbed.store.trans (by rw [starts, only]; rfl)
    · rw [ends]; exact undisturbed.windows.trans (by rw [starts, only]; rfl)
    · rw [ends]; exact undisturbed.debounce.trans (by rw [starts, only]; rfl)
    · rw [ends]; exact halted
    · rw [ends]
      refine (round.trans (congrArg History.round triggered.records.history)).trans ?_
      unfold State.roundStarted
      split
      case isTrue => rfl
      case isFalse => rw [only]; rfl
    · rw [ends]
      refine Announced.trans ?_ undisturbed.notices
      rw [State.roundStarted, if_pos empty]
      have same : v.notices = s.notices := by rw [only]; rfl
      exact same ▸ Announced.now v.notices _
    · rw [ends]
      refine triggered.flights i ?_
      have same : (v.roundStarted s.preservedPlaces).slot i = s.slot i := by rw [starts, only]; rfl
      rw [State.triggerActs_iff, same]
      exact ⟨admitted, positive⟩
  · refine congrArg Host.Outcome.next ((if_pos high).trans (congrArg State.settle ?_))
    unfold State.resumeScan
    split
    case h_1 halted => rw [if_pos (show s.sense.scan = .halted from halted)]; rfl
    case h_2 going => rw [if_neg (show ¬s.sense.scan = .halted from going)]; rfl

/-- R186: an index of the urgent part stays there or its write starts with the content of that moment. -/
theorem State.startWrite_urgent {p : PlaceId} (queued : p ∈ s.history.urgent) :
    p ∈ s.startWrite.history.urgent ∨ ∃ w, s.startWrite.history.writing = some w ∧ w.place = p ∧
      w.content = s.place p ∧ ∀ r, s.history.round = some r → p ∈ r.remaining → w.forRound = true := by
  unfold State.startWrite
  split
  case h_1 => exact .inl queued
  case h_2 =>
    split
    case h_1 q rest _ urgent =>
      rw [urgent] at queued
      rcases List.mem_cons.1 queued with rfl | later
      · refine .inr ⟨_, rfl, rfl, rfl, fun r round inRound => ?_⟩
        show (match s.history.round with | some r => decide (p ∈ r.remaining) | none => false) = true
        rw [round]
        exact decide_eq_true inRound
      · exact .inl later
    case h_2 urgent _ => rw [urgent] at queued; cases queued
    case h_3 urgent _ => rw [urgent] at queued; cases queued

theorem State.mem_preservedPlaces {i : SlotId} {p : PlaceId} (reconciled : (s.slot i).isReconciled = true)
    (found : s.entryOf i = some p) : p ∈ s.preservedPlaces :=
  List.mem_filterMap.2 ⟨i, List.mem_finRange i, (if_pos reconciled).trans found⟩

/-- Settles O10: the entry written, and its place in the queue. -/
theorem power_warn_preserves : Obligations.Power_warn_preserves := by
  intro s i p e low reconciled found entry alone
  obtain ⟨v, u, writes, triggered, result⟩ := exec_powerWarnAssert low
  have member := State.mem_preservedPlaces reconciled found
  have here : v.roundStarted s.preservedPlaces = v := if_neg (List.ne_nil_of_mem member)
  rw [here] at triggered
  have written : PlacesWritten s.roundBegun v := writes ▸ State.preserveSlots_written _ _
  have own : v.place p = some (s.preserved i e) := writes ▸
    State.preserveSlots_own (List.finRange 16) s.roundBegun reconciled found entry alone (List.mem_finRange i)
  have urgent : p ∈ v.history.urgent := writes ▸
    (State.preserveSlots_queue (List.finRange 16) s.roundBegun).1 i (List.mem_finRange i) p reconciled found
  have round : v.history.round = some ⟨s.preservedPlaces, s.preservedPlaces.length⟩ := by rw [written.only]; rfl
  have halts := (State.haltScan_spec u).1
  unfold SenseOnly at halts
  have history : u.haltScan.history = v.history := by rw [halts]; exact triggered.records.history
  have place : u.haltScan.startWrite.place p = some (s.preserved i e) := by
    have writesOnly := State.startWrite_only u.haltScan
    unfold WriteOnly at writesOnly
    rw [writesOnly]
    exact (congrArg (fun h : History => h.places[p.val]) history).trans own
  refine ⟨_, result, place, ?_⟩
  rcases State.startWrite_urgent (s := u.haltScan) (by rw [history]; exact urgent) with queued | ⟨w, writing, at_p, content, forRound⟩
  · exact .inl queued
  · refine .inr ⟨w, writing, at_p, content.trans ?_, forRound _ (by rw [history]; exact round) member⟩
    exact ((congrArg (fun h : History => h.places[p.val]) history).trans own).trans place.symm

end

end Sys2Proof.Machine

/-! PROOF. The end of an event (O3): the converter's next work (R154 to R161) and the next write (R186). -/

namespace Sys2Proof.Machine

section
variable {s t u : State}

/-! ## A run starts (R158, R159) -/

/-- Only the injected queue, the held admissions and the order of joining differ. -/
def QueuesOnly (s t : State) : Prop :=
  t = { s with
    sense := { s.sense with injected := t.sense.injected, heldAdmissions := t.sense.heldAdmissions }
    joinStamps := t.joinStamps }

theorem QueuesOnly.trans (h : QueuesOnly s t) (k : QueuesOnly t u) : QueuesOnly s u := by
  unfold QueuesOnly at h k ⊢
  rw [k, h]

theorem State.placeRequest_queues {i : SlotId} {why : Reasons} (placed : s.placeRequest i why = some t) :
    QueuesOnly s t := by
  unfold State.placeRequest at placed
  split at placed
  case isTrue => cases placed; rfl
  case isFalse =>
    split at placed
    case isTrue => cases placed; rfl
    case isFalse => cases placed

theorem State.placeHeldN_queues (n : Nat) (s : State) : QueuesOnly s (State.placeHeldN n s) := by
  induction n generalizing s with
  | zero => rfl
  | succ n ih =>
    unfold State.placeHeldN
    split
    case h_1 => rfl
    case h_2 i rest _ =>
      split
      case h_1 placed =>
        have first : QueuesOnly s (s.updSense fun u => { u with heldAdmissions := rest }) := rfl
        exact (first.trans (State.placeRequest_queues placed)).trans (ih _)
      case h_2 => rfl

theorem State.placeHeld_none (empty : s.sense.heldAdmissions = []) : s.placeHeld = s := by
  rw [State.placeHeld, empty]
  rfl

/-- The state in which a run's first conversion starts. -/
def State.runStarted (s : State) (q : Injected) : State :=
  (s.updSense fun u => { u with injected := u.injected.filter (·.slot ≠ q.slot), run := some ⟨q, []⟩ }).startConversion
    (.slot q.slot) true

theorem State.runStarted_held (s : State) (q : Injected) : QueuesOnly (s.runStarted q) (s.runStarted q).placeHeld :=
  State.placeHeldN_queues _ _

theorem State.startInjected_some {q : Injected} (high : s.pins.powerWarn = false)
    (oldest : (s.sense.injected.find? fun q => !s.heldOff q.slot) = some q) :
    s.startInjected = some (s.runStarted q).placeHeld := by
  rw [State.startInjected, if_neg (by rw [high]; exact Bool.false_ne_true), oldest]
  rfl

theorem State.startInjected_none (blocked : s.pins.powerWarn = true ∨ ∀ q ∈ s.sense.injected, s.heldOff q.slot = true) :
    s.startInjected = none := by
  unfold State.startInjected
  split
  case isTrue => rfl
  case isFalse high =>
    have absent : (s.sense.injected.find? fun q => !s.heldOff q.slot) = none := by
      refine List.find?_eq_none.2 fun q queued => ?_
      rw [blocked.resolve_left high q queued]
      exact Bool.false_ne_true
    rw [absent]

/-- What a run's start leaves of the scan. -/
theorem State.startInjected_scan (started : s.startInjected = some t) :
    t.sense = { s.sense with
      injected := t.sense.injected
      heldAdmissions := t.sense.heldAdmissions
      run := t.sense.run
      conversion := t.sense.conversion } := by
  unfold State.startInjected at started
  split at started
  case isTrue => cases started
  case isFalse =>
    split at started
    case h_1 q _ =>
      have queues := s.runStarted_held q
      rw [show (s.runStarted q).placeHeld = t from Option.some.inj started] at queues
      unfold QueuesOnly at queues
      rw [queues]
      rfl
    case h_2 => cases started

/-! ## The scan goes on (R156, R157) -/

/-- The scan with entries passed over. -/
def State.passedOver (s : State) (before : List Source) : State :=
  s.updSense fun u => { u with position := u.position + before.length, deferred := s.deferredAfter before }

theorem State.deferrals_cons (s : State) (x : Source) (l : List Source) :
    s.deferrals (x :: l) = s.deferrals l + s.deferrals [x] := by
  unfold State.deferrals
  rw [List.countP_cons]
  simp only [List.countP_cons, List.countP_nil, Nat.zero_add]

/-- The deferred count adds up, held at its maximum. -/
theorem State.deferredAfter_cons (s : State) (x : Source) (l : List Source) :
    (s.passedOver [x]).deferredAfter l = s.deferredAfter (x :: l) := by
  have same : ∀ l, (s.passedOver [x]).deferrals l = s.deferrals l := fun _ => rfl
  have count : (s.passedOver [x]).sense.deferred = s.deferredAfter [x] := rfl
  unfold State.deferredAfter at count ⊢
  rw [same, count, State.deferrals_cons s x l]
  have one : s.deferrals [x] ≤ 1 := List.countP_le_length
  split
  · split <;> split <;> omega
  · split <;> split <;> omega

/-- An entry passed over. -/
theorem State.scanFrom_passes {x : Source} (passed : s.passesOver x) (l : List Source) :
    State.scanFrom (x :: l) s = State.scanFrom l (s.passedOver [x]) := by
  obtain ⟨i, rfl, why⟩ := passed
  have count : s.deferrals [.slot i] = if (s.slot i).state = .vacant then 0 else 1 := by
    unfold State.deferrals
    by_cases vacant : (s.slot i).state = .vacant <;> simp [vacant]
  rw [State.scanFrom]
  by_cases vacant : (s.slot i).state = .vacant
  · rw [if_pos vacant] at count
    refine (if_pos vacant).trans (congrArg (State.scanFrom l) ?_)
    unfold State.passedOver State.deferredAfter
    rw [if_pos count]
    rfl
  · rw [if_neg vacant] at count
    refine ((if_neg vacant).trans (if_pos (why.resolve_left vacant))).trans (congrArg (State.scanFrom l) ?_)
    unfold State.passedOver State.deferredAfter
    rw [if_neg (by omega), count]
    rfl

theorem State.passesOver_passedOver (l : List Source) (x : Source) :
    (s.passedOver l).passesOver x ↔ s.passesOver x := Iff.rfl

theorem State.scanFrom_append (before l : List Source) (s : State) (passed : ∀ x ∈ before, s.passesOver x) :
    State.scanFrom (before ++ l) s = State.scanFrom l (s.passedOver before) := by
  induction before generalizing s with
  | nil =>
    have same : s.passedOver [] = s := by
      unfold State.passedOver State.deferredAfter State.deferrals
      rw [List.countP_nil, if_pos rfl]
      rfl
    rw [same]
    rfl
  | cons x before ih =>
    rw [List.cons_append, State.scanFrom_passes (passed x List.mem_cons_self),
      ih (s.passedOver [x]) fun y later => passed y (List.mem_cons_of_mem _ later)]
    refine congrArg (State.scanFrom l) ?_
    have total := State.deferredAfter_cons s x before
    have length : s.sense.position + 1 + before.length = s.sense.position + (x :: before).length := by
      rw [List.length_cons]; omega
    change ({ s with sense := { s.sense with
      position := s.sense.position + 1 + before.length, deferred := (s.passedOver [x]).deferredAfter before } } : State) = _
    rw [total, length]
    rfl

/-- An entry that is not passed over is converted. -/
theorem State.scanFrom_converts {x : Source} (converted : ¬s.passesOver x) (l : List Source) :
    (State.scanFrom (x :: l) s).sense = { s.sense with
      position := s.sense.position + 1
      passConverted := true
      conversion := some (s.regularOf x) } := by
  cases x with
  | reference => rfl
  | slot i =>
    rw [State.scanFrom]
    have occupied : ¬(s.slot i).state = .vacant := fun vacant => converted ⟨i, rfl, .inl vacant⟩
    have free : ¬s.heldOff i = true := fun held => converted ⟨i, rfl, .inr held⟩
    exact congrArg State.sense ((if_neg occupied).trans (if_neg free))

/-! ## The converter's work (R154) -/

theorem State.converterWork_busy (working : s.sense.conversion.isSome = true) : s.converterWork = s := by
  obtain ⟨c, converting⟩ := Option.isSome_iff_exists.1 working
  rw [State.converterWork, converting]

/-- A free converter takes a request when there is one to take. -/
theorem State.converterWork_injected {t : State} (free : s.sense.conversion = none)
    (started : s.passOver.startInjected = some t) : s.converterWork = t := by
  rw [State.converterWork, free]
  dsimp only
  rw [started]

/-- A free converter with no request to take goes on with the scan. -/
theorem State.converterWork_scan (free : s.sense.conversion = none) (none : s.passOver.startInjected = none) :
    s.converterWork = if s.passOver.sense.scan = .running then
      State.scanFrom (s.passOver.sense.list.drop s.passOver.sense.position) s.passOver else s.passOver := by
  rw [State.converterWork, free]
  dsimp only
  rw [none]

theorem State.passOver_stays (going : s.sense.scan ≠ .running ∨ s.sense.position < s.sense.list.length) :
    s.passOver = s := by
  refine if_neg ?_
  rintro ⟨running, ended⟩
  exact going.elim (fun other => other running) fun before => Nat.not_le.2 before ended

theorem State.passOver_ends (running : s.sense.scan = .running) (ended : s.sense.list.length ≤ s.sense.position) :
    s.passOver = s.endPass := if_pos ⟨running, ended⟩

theorem State.passOver_blocked (blocked : s.pins.powerWarn = true ∨ ∀ q ∈ s.sense.injected, s.heldOff q.slot = true) :
    s.passOver.startInjected = none := by
  refine State.startInjected_none ?_
  unfold State.passOver
  split
  case isTrue => exact blocked
  case isFalse => exact blocked

/-- A pass's end leaves the queues, the slots and the lanes. -/
theorem State.passOver_kept (s : State) :
    s.passOver.pins = s.pins ∧ s.passOver.sense.injected = s.sense.injected ∧
      s.passOver.sense.heldAdmissions = s.sense.heldAdmissions ∧ (∀ i, s.passOver.slotSense i = s.slotSense i) ∧
      ∀ i, s.passOver.heldOff i = s.heldOff i := by
  unfold State.passOver
  split
  case isTrue => exact ⟨rfl, rfl, rfl, fun _ => rfl, fun _ => rfl⟩
  case isFalse => exact ⟨rfl, rfl, rfl, fun _ => rfl, fun _ => rfl⟩

theorem State.deferredAfter_nil (s : State) : s.deferredAfter [] = s.sense.deferred := by
  unfold State.deferredAfter State.deferrals
  rw [List.countP_nil, if_pos rfl]

theorem State.startWrite_sense (s : State) : s.startWrite.sense = s.sense ∧ s.startWrite.joinStamps = s.joinStamps := by
  have only := State.startWrite_only s
  unfold WriteOnly at only
  rw [only]
  exact ⟨rfl, rfl⟩

theorem State.settle_sense (s : State) :
    s.settle.sense = s.converterWork.sense ∧ s.settle.joinStamps = s.converterWork.joinStamps :=
  State.startWrite_sense _

/-! ## The next write (R186) -/

theorem State.startWrite_busy (writing : s.history.writing.isSome = true) : s.startWrite = s := by
  obtain ⟨w, under⟩ := Option.isSome_iff_exists.1 writing
  rw [State.startWrite, under]

theorem State.startWrite_nothing (idle : s.history.writing = none) (urgent : s.history.urgent = [])
    (ordinary : s.history.ordinary = []) : s.startWrite = s := by
  rw [State.startWrite, idle, urgent, ordinary]

theorem State.startWrite_first {p : PlaceId} {rest : List PlaceId} (idle : s.history.writing = none)
    (urgent : s.history.urgent = p :: rest) :
    s.startWrite = (s.updHistory fun h => { h with urgent := rest }).startWriteOf p := by
  rw [State.startWrite, idle, urgent]

theorem State.startWrite_ordinary {p : PlaceId} {rest : List PlaceId} (idle : s.history.writing = none)
    (urgent : s.history.urgent = []) (ordinary : s.history.ordinary = p :: rest) :
    s.startWrite = (s.updHistory fun h => { h with ordinary := rest }).startWriteOf p := by
  rw [State.startWrite, idle, urgent, ordinary]

/-- The converter's work leaves the History Unit and the reset's preparation. -/
theorem State.converterWork_history (s : State) :
    s.converterWork.history = s.history ∧ s.converterWork.preparation = s.preparation := by
  have only := s.converterWork_only
  unfold SenseOnly at only
  rw [only]
  exact ⟨rfl, rfl⟩

theorem State.converterWork_place (s : State) (p : PlaceId) : s.converterWork.place p = s.place p :=
  congrArg (fun h : History => h.places[p.val]) s.converterWork_history.1

/-- Settles O3, the converter's part and the store queue's part by part. -/
theorem event_end : Obligations.Event_end := by
  intro s
  obtain ⟨history, preparation⟩ := s.converterWork_history
  refine ⟨State.settle_only s, State.settle_items s, fun working => ?_, fun writing => ?_, fun idle urgent ordinary => ?_,
    fun idle p rest urgent => ?_, fun idle urgent p rest ordinary => ?_, fun free high q oldest => ?_,
    fun free running blocked before src after entries passed converted => ?_,
    fun free running blocked rest entries passed => ?_, fun still blocked => ?_⟩
  · rw [s.settle_sense.1, s.settle_sense.2, State.converterWork_busy working]
    exact ⟨rfl, rfl⟩
  · rw [State.settle, State.startWrite_busy (history ▸ writing)]
    exact ⟨history, preparation⟩
  · rw [State.settle, State.startWrite_nothing (history ▸ idle) (history ▸ urgent) (history ▸ ordinary)]
    exact ⟨history, preparation⟩
  · rw [State.settle, State.startWrite_first (p := p) (rest := rest) (history ▸ idle) (history ▸ urgent)]
    have kept : s.converterWork.history.ordinary = s.history.ordinary := by rw [history]
    exact ⟨rfl, kept, _, rfl, rfl, s.converterWork_place p⟩
  · rw [State.settle, State.startWrite_ordinary (p := p) (rest := rest) (history ▸ idle) (history ▸ urgent)
      (history ▸ ordinary)]
    exact ⟨(congrArg History.urgent history).trans urgent, rfl, _, rfl, rfl, s.converterWork_place p⟩
  · obtain ⟨pins, injected, held, items, heldOff⟩ := s.passOver_kept
    have first : (s.passOver.sense.injected.find? fun q => !s.passOver.heldOff q.slot) = some q := by
      simp only [injected, heldOff]
      exact oldest
    have work := State.converterWork_injected free (State.startInjected_some (pins ▸ high) first)
    have queues := s.passOver.runStarted_held q
    unfold QueuesOnly at queues
    rw [s.settle_sense.1, work]
    refine ⟨?_, ?_, fun noneHeld => ?_, fun going => ?_⟩
    · rw [queues, ← items]
      rfl
    · rw [queues]
      rfl
    · rw [State.placeHeld_none (s := s.passOver.runStarted q) (held.trans noneHeld), ← injected]
      rfl
    · rw [queues, State.passOver_stays going]
      exact ⟨rfl, rfl, rfl, rfl⟩
  · have going : s.passOver = s := by
      refine State.passOver_stays (.inr ?_)
      have := congrArg List.length entries
      rw [List.length_drop, List.length_append, List.length_cons] at this
      omega
    rw [s.settle_sense.1, State.converterWork_scan free (State.passOver_blocked blocked), going, if_pos running, entries,
      State.scanFrom_append _ _ _ passed, State.scanFrom_converts (s := s.passedOver before) converted]
    rfl
  · by_cases ended : s.sense.list.length ≤ s.sense.position
    · have nothing : rest = [] := entries.symm.trans (List.drop_eq_nil_of_le ended)
      have ends := State.passOver_ends running ended
      rw [s.settle_sense.1, nothing, State.deferredAfter_nil]
      cases started : s.passOver.startInjected with
      | some t =>
        rw [State.converterWork_injected free started, State.startInjected_scan started, ends]
        exact ⟨rfl, rfl, rfl, rfl, rfl⟩
      | none =>
        rw [State.converterWork_scan free started, ends, if_neg (show ¬s.endPass.sense.scan = .running from
          ScanState.noConfusion)]
        exact ⟨rfl, rfl, rfl, rfl, rfl⟩
    · have going : s.passOver = s := State.passOver_stays (.inr (Nat.lt_of_not_le ended))
      have onward := State.scanFrom_append rest [] s passed
      rw [List.append_nil] at onward
      rw [s.settle_sense.1, State.converterWork_scan free (State.passOver_blocked (blocked.resolve_left ended)), going,
        if_pos running, entries, onward]
      exact ⟨rfl, rfl, rfl, rfl, rfl⟩
  · rw [s.settle_sense.1]
    cases converting : s.sense.conversion with
    | some c => rw [State.converterWork_busy (by rw [converting]; rfl)]
    | none =>
      rw [State.converterWork_scan converting (State.passOver_blocked blocked), State.passOver_stays (.inl still),
        if_neg still]

end

end Sys2Proof.Machine

/-! PROOF. Numbers issued (O28), the Reservation Unit's requests (O29, O30), and the channel's enabling and disabling (O25,
O26). -/

namespace Sys2Proof.Machine

section
variable {s t u : State} {tag kind : Byte}

/-! ## Numbers issued (R44, R139) -/

/-- The number `m` places after `last`, in the order 1 to 255 and then 1 again. -/
def numberAfter (last m : Nat) : Nat := (last + m - 1) % 255 + 1

theorem numberAfter_one {last : Nat} (h : last ≤ 255) : (if last < 255 then last + 1 else 1) = numberAfter last 1 := by
  unfold numberAfter
  split <;> omega

theorem numberAfter_succ {last m : Nat} (h : 1 ≤ m) : numberAfter (numberAfter last 1) m = numberAfter last (m + 1) := by
  unfold numberAfter
  omega

theorem numberAfter_le (last m : Nat) : numberAfter last m ≤ 255 := by
  unfold numberAfter
  omega

/-- Of the numbers that follow the last one, the first that is free. -/
theorem nextNumber_first {N : Nat} {taken : List Nat} {last : Nat} (bound : last ≤ 255)
    (free : ∃ m, 1 ≤ m ∧ m ≤ N ∧ numberAfter last m ∉ taken) :
    ∃ k, 1 ≤ k ∧ k ≤ N ∧ nextNumber N taken last = numberAfter last k ∧ numberAfter last k ∉ taken ∧
      ∀ m, 1 ≤ m → m < k → numberAfter last m ∈ taken := by
  induction N generalizing last with
  | zero =>
    obtain ⟨m, positive, small, _⟩ := free
    omega
  | succ N ih =>
    rw [nextNumber]
    rw [numberAfter_one bound]
    by_cases held : numberAfter last 1 ∈ taken
    · rw [if_pos held]
      obtain ⟨m, positive, small, isFree⟩ := free
      have beyond : m ≠ 1 := fun one => isFree (one ▸ held)
      obtain ⟨k, first, within, next, nextFree, before⟩ := ih (numberAfter_le last 1)
        ⟨m - 1, by omega, by omega, by rwa [numberAfter_succ (by omega), Nat.sub_add_cancel positive]⟩
      rw [numberAfter_succ first] at next nextFree
      refine ⟨k + 1, by omega, by omega, next, nextFree, fun j one less => ?_⟩
      by_cases isOne : j = 1
      · exact isOne ▸ held
      · have := before (j - 1) (by omega) (by omega)
        rwa [numberAfter_succ (by omega), Nat.sub_add_cancel one] at this
    · rw [if_neg held]
      exact ⟨1, le_refl _, by omega, rfl, held, fun j one less => by omega⟩

/-- Fewer than 255 numbers leave one free. -/
theorem exists_free {taken : List Nat} (few : taken.length < 255) {last : Nat} (bound : last ≤ 255) :
    ∃ m, 1 ≤ m ∧ m ≤ 255 ∧ numberAfter last m ∉ taken := by
  by_contra none
  have held : List.range' 1 255 ⊆ taken := by
    intro v inRange
    obtain ⟨low, high⟩ := List.mem_range'_1.1 inRange
    by_contra isFree
    refine none ⟨(v + 254 - last) % 255 + 1, by omega, by omega, ?_⟩
    have : numberAfter last ((v + 254 - last) % 255 + 1) = v := by
      unfold numberAfter
      omega
    rwa [this]
  have := ((List.nodup_range' (step := 1)).subperm held).length_le
  rw [List.length_range'] at this
  omega

/-- Settles O28: the numbers, the tickets held and the ids. -/
theorem numbers_issued_are_free : Obligations.Numbers_issued_are_free := by
  refine ⟨fun taken last few bound => ?_, fun s => ⟨rfl, fun n => ?_⟩, fun ch => rfl⟩
  · obtain ⟨k, positive, small, next, free, before⟩ := nextNumber_first bound (exists_free few bound)
    exact ⟨k, positive, small, next, next ▸ free, before⟩
  · unfold State.ticketsHeld
    rw [List.mem_flatMap]
    constructor
    · rintro ⟨l, _, held⟩
      obtain ⟨e, standing, ticket⟩ := List.mem_filterMap.1 held
      refine ⟨l, e, ticket, ?_⟩
      rcases List.mem_append.1 standing with flying | queued
      · refine .inr ?_
        split at flying
        case h_1 x onWire => exact ⟨x, onWire, (List.mem_singleton.1 flying).symm⟩
        case h_2 => cases flying
      · exact .inl queued
    · rintro ⟨l, e, ticket, standing⟩
      refine ⟨l, List.mem_finRange l, List.mem_filterMap.2 ⟨e, List.mem_append.2 ?_, ticket⟩⟩
      rcases standing with queued | ⟨x, onWire, rfl⟩
      · exact .inr queued
      · refine .inl ?_
        rw [onWire]
        exact List.mem_singleton.2 rfl

/-! ## RESERVE (R140, R141) -/

theorem serveReserve_of {f : ReserveFields} {c : ChannelId} (named : c.val = f.channel) (positive : 0 < f.size) :
    serveReserve f s =
      if (s.channel c).state = .idle ∨ (s.channel c).settings.upperThreshold = 0 then (s, only .wrongState)
      else if (s.channel c).settings.upperThreshold < f.size then (s, only .tooLarge)
      else s.reserveTested c f.size := by
  rw [serveReserve, channelOf_of_val named]
  exact if_neg (Nat.ne_of_gt positive)

/-- A granted request is counted in what is outstanding. -/
theorem outstanding_append (l : List Reservation) (r : Reservation) (granted : r.wait = none) (undrawn : r.drawn = 0) :
    ((l ++ [r]).filter (·.isGranted)).map (fun r => r.size - r.drawn) =
      (l.filter (·.isGranted)).map (fun r => r.size - r.drawn) ++ [r.size] := by
  have : r.isGranted = true := by rw [Reservation.isGranted, granted]; rfl
  rw [List.filter_append, List.filter_cons_of_pos this, List.filter_nil, List.map_append, List.map_singleton, undrawn]
  rfl

theorem Channel.outstanding_append (ch : Channel) (r : Reservation) (granted : r.wait = none) (undrawn : r.drawn = 0)
    (id : Nat) :
    ({ ch with reservations := ch.reservations ++ [r], lastId := id, unreservedDraw := false } : Channel).outstanding =
      ch.outstanding + r.size := by
  refine (congrArg List.sum (Sys2Proof.Machine.outstanding_append ch.reservations r granted undrawn)).trans ?_
  rw [List.sum_append, List.sum_singleton]
  rfl

/-- A granted request: the channel with it. -/
theorem State.reserveTested_granted {c : ChannelId} {size : Nat} (noneWaits : (s.channel c).waiting = [])
    (passes : s.grantPasses c size = true) :
    s.reserveTested c size = (s.grantNew c size, ⟨.granted,
      .reservationGranted (s.channel c).nextId ((s.channel c).outstanding + size)⟩) := by
  refine (if_pos ⟨by rw [noneWaits]; rfl, passes⟩).trans ?_
  rw [State.grantNew, State.updChannel_eq, State.withChannel_channel,
    Channel.outstanding_append _ ⟨(s.channel c).nextId, size, 0, false, none⟩ rfl rfl]

theorem State.withChannel_withChannel (s : State) (c : ChannelId) (a b : Channel) :
    (s.withChannel c a).withChannel c b = s.withChannel c b :=
  congrArg (fun l => { s with channels := l }) (Vector.set_set ..)

/-- R140, R141: the stall flag when a request of a size has been tested. -/
def Channel.stallTested (ch : Channel) (size : Nat) : Bool :=
  if ch.waiting.isEmpty then ch.stall || !ch.underCeiling size else ch.stall

theorem Channel.stallTested_iff (ch : Channel) (size : Nat) :
    ch.stallTested size = true ↔
      ch.stall = true ∨ ch.waiting = [] ∧ ch.settings.upperThreshold < ch.outstanding + size := by
  unfold Channel.stallTested
  cases ch.waiting with
  | nil => simp [Channel.underCeiling]
  | cons r rest => simp

theorem State.queueNew_eq (s : State) (c : ChannelId) (size : Nat) :
    s.queueNew c size = s.withChannel c { s.channel c with
      reservations := (s.channel c).reservations ++
        [⟨(s.channel c).nextId, size, 0, false, some ⟨(s.channel c).settings.waitLimit, s.clockMs⟩⟩]
      lastId := (s.channel c).nextId } := State.updChannel_eq ..

/-- A request that waits: the stall flag the test leaves, and the channel with it. -/
theorem State.reserveTested_queued {c : ChannelId} {size : Nat}
    (refused : ¬((s.channel c).waiting.isEmpty = true ∧ s.grantPasses c size = true))
    (room : (s.channel c).waiting.length < 4) :
    s.reserveTested c size =
      (s.withChannel c { s.channel c with
        reservations := (s.channel c).reservations ++
          [⟨(s.channel c).nextId, size, 0, false, some ⟨(s.channel c).settings.waitLimit, s.clockMs⟩⟩]
        lastId := (s.channel c).nextId
        stall := (s.channel c).stallTested size },
      ⟨.queued, .reservationQueued (s.channel c).nextId ((s.channel c).waiting.length + 1)
        ((s.channel c).stallTested size)⟩) := by
  refine ((if_neg refused).trans (if_pos room)).trans ?_
  unfold Channel.stallTested
  dsimp only
  by_cases empty : (s.channel c).waiting.isEmpty = true
  · rw [if_pos empty, if_pos empty, State.queueNew_eq, State.grantTested, State.updChannel_eq,
      State.withChannel_withChannel, State.withChannel_channel, State.withChannel_channel]
    rfl
  · rw [if_neg empty, if_neg empty, State.queueNew_eq, State.withChannel_channel]

/-- Settles O29: the refusals of Table 8-3, the grant, the queue and the full list. -/
theorem reserve : Obligations.Reserve := by
  intro s tag f ready
  refine ⟨fun refused => ?_, fun c named positive => ⟨fun wrong => ?_, fun active ceiling => ⟨fun large => ?_, fun fits =>
    ⟨fun noneWaits supplied unstalled few available under => ?_, fun room why => ?_, fun full => ?_⟩⟩⟩⟩
  · refine exec_served ready ?_
    unfold serveReserve
    split
    case h_1 => rfl
    case h_2 c named =>
      refine if_pos (refused.resolve_left fun above => ?_)
      rw [channelOf_eq_none above] at named
      cases named
  · refine exec_served ready ?_
    rw [serveReserve_of (s := s.beginRequest) named positive]
    exact if_pos wrong
  · refine exec_served ready ?_
    rw [serveReserve_of (s := s.beginRequest) named positive]
    exact (if_neg fun wrong => wrong.elim active ceiling).trans (if_pos large)
  · have state : (s.channel c).state = .supplied ∨ (s.channel c).state = .switching := by
      cases here : (s.channel c).state with
      | idle => exact absurd here active
      | unsupplied => exact absurd here supplied
      | supplied => exact .inl rfl
      | switching => exact .inr rfl
    have passes : s.grantPasses c f.size = true :=
      (State.grantPasses_iff s c f.size).2 ⟨state, unstalled, few, available, under⟩
    refine exec_served ready ?_
    rw [serveReserve_of (s := s.beginRequest) named positive]
    refine ((if_neg fun wrong => wrong.elim active ceiling).trans (if_neg (Nat.not_lt.2 fits))).trans ?_
    exact (State.reserveTested_granted (s := s.beginRequest) noneWaits passes).trans (Prod.ext (State.updChannel_eq ..) rfl)
  · have refused : ¬((s.channel c).waiting.isEmpty = true ∧ s.grantPasses c f.size = true) := by
      rintro ⟨empty, passes⟩
      obtain ⟨state, stall, capacity, available, under⟩ := (State.grantPasses_iff s c f.size).1 passes
      rcases why with waits | unsupplied | stalled | many | short | above
      · exact waits (List.isEmpty_iff.1 empty)
      · rw [unsupplied] at state
        exact state.elim ChannelState.noConfusion ChannelState.noConfusion
      · exact absurd (stalled.symm.trans stall) Bool.noConfusion
      · omega
      · omega
      · omega
    refine ⟨(s.channel c).stallTested f.size, exec_served ready ?_, (s.channel c).stallTested_iff f.size⟩
    · rw [serveReserve_of (s := s.beginRequest) named positive]
      refine ((if_neg fun wrong => wrong.elim active ceiling).trans (if_neg (Nat.not_lt.2 fits))).trans ?_
      exact State.reserveTested_queued (s := s.beginRequest) refused room
  · refine exec_served ready ?_
    rw [serveReserve_of (s := s.beginRequest) named positive]
    refine ((if_neg fun wrong => wrong.elim active ceiling).trans (if_neg (Nat.not_lt.2 fits))).trans ?_
    refine (if_neg ?_).trans (if_neg (Nat.not_lt.2 full))
    rintro ⟨empty, _⟩
    rw [show (s.channel c).waiting = [] from List.isEmpty_iff.1 empty] at full
    exact absurd full (by decide)

/-! ## RELEASE (R146) -/

/-- Settles O30, from what follows a leaving. -/
theorem release : Obligations.Release := by
  intro s tag f ready
  refine ⟨fun above => ?_, fun c named => ⟨fun absent => ?_, fun r found => ?_⟩⟩
  · refine exec_served ready ?_
    rw [serveRelease, channelOf_eq_none above]
    rfl
  · refine exec_served ready ?_
    rw [serveRelease, channelOf_of_val named]
    have none : (s.beginRequest.channel c).findReservation f.id = none :=
      List.find?_eq_none.2 fun r member => by simpa using absent r member
    dsimp only
    rw [none]
    rfl
  · have undisturbed := ((Undisturbed.refl s.beginRequest).leaveList c f.id).afterLeaving c
    refine ⟨_, exec_answered ready ?_ undisturbed.host, undisturbed, ?_⟩
    · rw [serveRelease, channelOf_of_val named]
      dsimp only
      rw [show (s.beginRequest.channel c).findReservation f.id = some r from found]
    · have := State.afterLeaving_spec s.beginRequest c ((s.channel c).reservations.filter fun x => x.id ≠ f.id)
      rw [State.leaveList, State.updChannel_eq]
      exact this

/-! ## CHANNEL_DISABLE (R126) -/

/-- R103: the slot that returns to READY takes its commit. -/
theorem State.toReady_flight (s : State) (i : SlotId) (positive : 0 < (s.slot i).uncommitted) :
    ((s.toReady i).commit i).flight.isSome = true := by
  have acts : (s.moveSlot i fun r => { r with state := .ready }).triggerActs i = true := by
    rw [State.triggerActs_iff, State.moveSlot_slot, if_pos rfl]
    exact ⟨rfl, positive⟩
  rw [State.toReady, State.forcedTrigger, if_pos acts]
  exact (State.actTrigger_flight _ i true).1

theorem State.toReady_slots (s : State) (i : SlotId) :
    (s.toReady i).slots = s.slots.set i.val { s.slot i with state := .ready } i.isLt :=
  (s.toReady_records i).slots

theorem State.headTest_nothing {c : ChannelId} (noneWaits : (s.channel c).waiting = []) : s.headTest c = s := by
  rw [State.headTest, noneWaits]
  rfl

/-- A channel without reservations disabled. -/
theorem State.disableChannel_eq {c : ChannelId} (empty : (s.channel c).reservations = []) :
    s.disableChannel c = (State.withChannel (s.servingReturned c) c (s.channel c).disabled).raise
      (.channelChanged c ⟨.disable, (s.channel c).state, .idle, (s.channel c).serving, none, none, none⟩) := by
  have same : (s.servingReturned c).channel c = s.channel c := by
    unfold State.servingReturned
    split
    case h_1 i _ => exact (s.toReady_records i).channel c
    case h_2 => rfl
  have record := State.updChannel_eq (s.servingReturned c) c Channel.disabled
  rw [same] at record
  have disabled : ((s.servingReturned c).updChannel c Channel.disabled).channel c = (s.channel c).disabled := by
    rw [record, State.withChannel_channel]
  have noneWaits : (((s.servingReturned c).updChannel c Channel.disabled).channel c).waiting = [] := by
    rw [disabled, Channel.waiting]
    show (s.channel c).reservations.filter _ = []
    rw [empty]
    rfl
  obtain ⟨d, here⟩ : ∃ d, d = (s.servingReturned c).updChannel c Channel.disabled := ⟨_, rfl⟩
  rw [← here] at record disabled noneWaits
  have disables : s.disableChannel c = (d.headTest c).raise
      (.channelChanged c (channelMove .disable (s.channel c) ((d.headTest c).channel c) none)) := by rw [here]; rfl
  rw [disables, State.headTest_nothing noneWaits, disabled, record]
  rfl

/-- What the serving slot's return leaves. -/
theorem State.servingReturned_spec (s : State) (c : ChannelId) :
    (s.servingReturned c).channels = s.channels ∧ (s.servingReturned c).history = s.history ∧
      Undisturbed s (s.servingReturned c) ∧
      (∀ i, (s.channel c).serving = some i → s.servingReturned c = s.toReady i) ∧
      ((s.channel c).serving = none → s.servingReturned c = s) := by
  refine ⟨?_, ?_, (Undisturbed.refl s).servingReturned c, fun i serving => ?_, fun unserved => ?_⟩
  · unfold State.servingReturned
    split
    case h_1 i _ => exact (s.toReady_records i).channels
    case h_2 => rfl
  · unfold State.servingReturned
    split
    case h_1 i _ => exact (s.toReady_records i).history
    case h_2 => rfl
  · rw [State.servingReturned, serving]
  · rw [State.servingReturned, unserved]

/-- Settles O26: the refusals, and the channel disabled. -/
theorem channel_disable : Obligations.Channel_disable := by
  intro s tag n ready
  refine ⟨fun above => ?_, fun c named => ⟨fun idle => ?_, fun active held => ?_, fun active empty => ?_⟩⟩
  · refine exec_served ready ?_
    rw [channelOf_eq_none above]
    rfl
  · refine exec_served ready ?_
    rw [channelOf_of_val named]
    exact if_pos idle
  · refine exec_served ready ?_
    rw [channelOf_of_val named]
    refine (if_neg active).trans (if_pos ?_)
    exact Bool.eq_false_iff.2 fun none => held (List.isEmpty_iff.1 none)
  · obtain ⟨channels, history, undisturbed, returned, kept⟩ := s.beginRequest.servingReturned_spec c
    have disables := State.disableChannel_eq (s := s.beginRequest) (c := c) empty
    refine ⟨s.beginRequest.disableChannel c, exec_answered ready ?_ ?_, ?_, fun i serving => ?_, fun unserved => ?_,
      fun i serving positive => ?_, ?_, ?_, ?_, ?_, ?_, ?_, ?_, ?_, ?_⟩
    · rw [channelOf_of_val named]
      refine (if_neg active).trans (if_neg ?_)
      show ¬(s.channel c).reservations.isEmpty = false
      rw [empty]
      exact Bool.noConfusion
    · rw [disables]; exact undisturbed.host
    · rw [disables]
      exact congrArg (fun l : Vector Channel 8 => l.set c.val (s.channel c).disabled c.isLt) channels
    · rw [disables, returned i serving]
      exact State.toReady_slots _ i
    · rw [disables, kept unserved]
      rfl
    · rw [disables, returned i serving]
      exact State.toReady_flight _ i positive
    · rw [disables]
      exact ⟨_, undisturbed.notices, rfl⟩
    · rw [disables]; exact undisturbed.host
    · rw [disables]; exact undisturbed.pins
    · rw [disables]; exact undisturbed.keys
    · rw [disables]; exact undisturbed.tally
    · rw [disables]; exact undisturbed.store
    · rw [disables]; exact undisturbed.debounce
    · rw [disables]; exact history
    · rw [disables]; exact undisturbed.windows

/-! ## CHANNEL_ENABLE (R125, R128, R129) -/

theorem SplitMarked.tested {c : ChannelId} {l : List Reservation} {from_ : Option SlotId} (h : SplitMarked s t c l from_)
    (k : HeadTested t u c) : SplitMarked s u c l from_ where
  marked := fun r member drawing => k.granted _ (h.marked r member drawing) (isGranted_of_isDrawing drawing)
  last := by rw [k.self]; exact h.last
  notice := fun r member drawing => by
    rw [k.self]
    exact (h.notice r member drawing).trans k.notices

/-- R129's condition on the slot that has just been selected. -/
theorem Selected.switchDue_iff {v : State} {c : ChannelId} {j k : SlotId} (h : Selected s v c j) :
    v.SwitchDue c j k ↔ s.SwitchDue c j k := by
  have remaining : (v.slot j).perMille = (s.slot j).perMille := by rw [h.slot]; rfl
  have paired : (v.channel c).paired j k ↔ (s.channel c).paired j k := by
    unfold Channel.paired
    rw [h.pair]
  constructor
  · rintro ⟨pair, low, ready, above⟩
    have other := h.others k (Ne.symm pair.1)
    rw [h.settings, remaining] at low
    rw [other] at ready above
    rw [h.settings] at above
    exact ⟨paired.1 pair, low, ready, above⟩
  · rintro ⟨pair, low, ready, above⟩
    have other := h.others k (Ne.symm pair.1)
    refine ⟨paired.2 pair, ?_, ?_, ?_⟩
    · rw [h.settings, remaining]; exact low
    · rw [other]; exact ready
    · rw [h.settings, other]; exact above

/-- R129's condition reads the pair, the settings and the slots. -/
theorem State.switchDue_congr {c : ChannelId} {i j : SlotId} (pair : (t.channel c).pair = (s.channel c).pair)
    (settings : (t.channel c).settings = (s.channel c).settings) (slots : ∀ i, t.slot i = s.slot i) :
    t.SwitchDue c i j ↔ s.SwitchDue c i j := by
  constructor
  · rintro ⟨paired, low, ready, above⟩
    rw [Channel.paired, pair] at paired
    rw [settings, slots] at low above
    rw [slots] at ready
    exact ⟨paired, low, ready, above⟩
  · rintro ⟨paired, low, ready, above⟩
    refine ⟨?_, ?_, ?_, ?_⟩
    · rw [Channel.paired, pair]; exact paired
    · rw [settings, slots]; exact low
    · rw [slots]; exact ready
    · rw [settings, slots]; exact above

/-- The channel as CHANNEL_ENABLE makes its selection test on it. -/
def State.opened (s : State) (c : ChannelId) : State :=
  s.withChannel c { s.channel c with
    state := .unsupplied
    volume := { (s.channel c).volume with windowSum := 0, windowLength := (s.channel c).settings.flowWindow } }

theorem State.opened_channel (s : State) (c : ChannelId) :
    (s.opened c).channel c = { s.channel c with
      state := .unsupplied
      volume := { (s.channel c).volume with windowSum := 0, windowLength := (s.channel c).settings.flowWindow } } :=
  State.withChannel_channel ..

theorem State.enableChannel_eq {c : ChannelId} (idle : (s.channel c).state = .idle) :
    s.enableChannel c = (((s.opened c).select c).headTest c).raise
      (.channelChanged c ⟨.enable, .idle, .unsupplied, (s.channel c).serving, (s.channel c).serving,
        (s.channel c).target, none⟩) := by
  rw [State.enableChannel]
  dsimp only
  rw [State.updChannel_eq]
  change State.raise (State.headTest (State.select (s.opened c) c) c)
    (.channelChanged c (channelMove .enable (s.channel c) ((s.opened c).channel c) none)) = _
  rw [State.opened_channel, channelMove, idle]

/-- Settles O25: the refusal, a channel in use, and the selection with the planned switch that follows. -/
theorem channel_enable : Obligations.Channel_enable := by
  intro s tag n ready
  refine ⟨fun above => ?_, fun c named active => ?_, fun c named idle => ?_⟩
  · refine exec_served ready ?_
    rw [channelOf_eq_none above]
    rfl
  · refine exec_served ready ?_
    rw [channelOf_of_val named]
    dsimp only
    rw [if_neg (show ¬(s.beginRequest.channel c).state = .idle from active)]
    rfl
  · obtain ⟨o, opens⟩ : ∃ o, o = s.beginRequest.opened c := ⟨_, rfl⟩
    have record : o.channel c = { s.channel c with
        state := .unsupplied
        volume := { (s.channel c).volume with windowSum := 0, windowLength := (s.channel c).settings.flowWindow } } := by
      rw [opens, State.opened_channel]
      rfl
    have slots : ∀ i, o.slot i = s.slot i := fun i => by rw [opens]; rfl
    have notices : o.notices = s.notices := by rw [opens]; rfl
    have canServe : ∀ i, o.CanServe i ↔ s.CanServe i := fun i => by rw [State.CanServe, slots]; rfl
    have undisturbed := Undisturbed.enableChannel s.beginRequest c
    rw [State.updChannel_eq] at undisturbed
    have enables := State.enableChannel_eq (s := s.beginRequest) (c := c) idle
    rw [← opens] at enables
    have tested : HeadTested (o.select c) (s.beginRequest.enableChannel c) c := by
      rw [enables]
      exact (State.headTest_tested _ c).trans (.raise _ _ _)
    have raises : Raises s.notices ((o.select c).headTest c).notices :=
      notices ▸ (((Undisturbed.refl o).select c).headTest c).notices
    refine ⟨s.beginRequest.enableChannel c, exec_answered ready ?_ undisturbed.host, undisturbed, ?_, fun none => ?_,
      fun before j after pair serves first => ?_⟩
    · rw [channelOf_of_val named]
      dsimp only
      rw [if_pos (show (s.beginRequest.channel c).state = .idle from idle)]
    · rw [enables]
      exact ⟨_, raises, rfl⟩
    · have noChoice : o.selectionChoice c = Option.none := State.selectionChoice_none fun i member => by
        rw [record] at member
        exact fun serves => none i member ((canServe i).1 serves)
      have stays : o.select c = o := by
        rw [State.select, noChoice]
        split
        case isTrue => rfl
        case isFalse => rfl
      rw [stays] at tested
      refine ⟨?_, tested.slots.trans (by rw [opens]; rfl)⟩
      rw [tested.self, record]
    · have choice : o.selectionChoice c = some j := State.selectionChoice_eq (before := before) (after := after)
        (by rw [record]; exact pair) ((canServe j).2 serves) fun i inBefore serves =>
          first i inBefore ((canServe i).1 serves)
      obtain ⟨v, selects, selected⟩ := State.select_selected (by rw [record]) choice
      rw [selects] at tested
      have inPair : j ∈ (v.channel c).pairSlots := by
        rw [Channel.pairSlots, selected.pair, ← Channel.pairSlots, record]
        exact pair ▸ List.mem_append_right _ List.mem_cons_self
      have due : ∀ k, v.SwitchDue c j k ↔ s.SwitchDue c j k := fun k => selected.switchDue_iff.trans
        (State.switchDue_congr (by rw [record]) (by rw [record]) slots)
      have split : SplitMarked s v c (s.channel c).reservations none := by
        obtain ⟨marked, last, notice⟩ := selected.split
        rw [record] at marked last notice
        exact ⟨marked, last, fun r member drawing => notices ▸ notice r member drawing⟩
      refine ⟨fun notDue => ?_, fun k switchDue => ⟨fun drawing => ?_, fun undrawn => ?_⟩⟩
      · have stays : v.plannedSwitch c = v := State.plannedSwitch_of_none <| by
          cases wanted : v.switchWanted c with
          | none => rfl
          | some k =>
            exact (notDue k ((due k).1 ((State.switchWanted_iff selected.drawn.state selected.drawn.serving inPair).1
              wanted))).elim
        rw [stays] at tested
        have notice := selected.notice
        rw [record, notices] at notice
        exact ⟨selected.drawn.tested tested, split.tested tested, notice.trans tested.notices⟩
      · obtain ⟨r, member, isDrawing⟩ := drawing
        have held : (v.channel c).hasDrawing = true := List.any_eq_true.2 ⟨_, split.marked r member isDrawing, isDrawing⟩
        rw [State.plannedSwitch_begins selected.drawn.state selected.drawn.serving ((due k).2 switchDue) held] at tested
        have record' := tested.self
        rw [State.raise_channel, State.withChannel_channel] at record'
        refine ⟨?_, ?_, ?_⟩
        · rw [record']
        · rw [record']; exact selected.drawn.serving
        · rw [record']
      · have free : (v.channel c).hasDrawing = false := by
          refine hasDrawing_of_items selected.items (markSplit_small ?_)
          rw [record]
          exact undrawn
        have switched := State.plannedSwitch_completes selected.drawn.state selected.drawn.serving ((due k).2 switchDue) free
        refine ⟨switched.drawn.tested tested, ?_⟩
        rw [tested.slot]
        exact switched.back switchDue.pair.1

end

end Sys2Proof.Machine

/-! PROOF. The tally link: the sequence check of an accepted frame (O46), what is accepted as a frame and where its entries
go (O47). -/

namespace Sys2Proof.Machine

section
variable {s : State} {levels : List Bool} {now : Nat} {f : TallyFrame}

/-! ## The waiting entries -/

theorem State.handOn_nothing (n : Nat) (h : s.tally.waiting = []) : State.handOn n s = s := by
  cases n with
  | zero => rfl
  | succ n => rw [State.handOn, h]

theorem State.handOn_cons (n : Nat) {e : TallyEntry} {rest : List TallyEntry} (h : s.tally.waiting = e :: rest) :
    State.handOn (n + 1) s =
      State.handOn n (State.routeEntry { s with tally := { s.tally with waiting := rest } } e) := by
  rw [State.handOn, h]
  rfl

/-- R68: once the waiting entries have been handed on, finishing them changes nothing. -/
theorem State.finishEntries_finished (s : State) : s.finishEntries.finishEntries = s.finishEntries :=
  State.handOn_nothing _ (State.handOn_all _ s rfl).1

theorem State.finishEntries_skipping (s : State) : s.finishEntries.tally.skippingPartial = s.tally.skippingPartial :=
  (State.handOn_all _ s rfl).2

/-! ## A received frame -/

theorem State.receiveFrame_skipped (h : s.tally.skippingPartial = true) :
    s.receiveFrame levels now = { s with tally := { s.tally with skippingPartial := false } } := by
  rw [State.receiveFrame, if_pos h]
  rfl

theorem State.receiveFrame_empty (h : s.tally.skippingPartial = false) : s.receiveFrame [] now = s := by
  rw [State.receiveFrame, if_neg (by simp [h])]
  rfl

theorem State.receiveFrame_received (h : s.tally.skippingPartial = false) (bits : levels ≠ []) :
    s.receiveFrame levels now = State.handOn now (s.finishEntries.checkFrame levels) := by
  rw [State.receiveFrame, if_neg (by simp [h]), if_neg (by simp [bits])]

theorem State.checkFrame_accepted (h : readTallyFrame levels.length (gatherBytes 70 levels) = some f) :
    s.checkFrame levels = s.acceptFrame f := by
  rw [State.checkFrame, tallyFrameMax, h]

theorem State.checkFrame_discarded (h : readTallyFrame levels.length (gatherBytes 70 levels) = none) :
    s.checkFrame levels =
      { s with tally := { s.tally with badFrames := min 4294967295 (s.tally.badFrames + 1) } } := by
  rw [State.checkFrame, tallyFrameMax, h]
  rfl

/-- A frame has bits: no bytes, no frame. -/
theorem bits_of_readTallyFrame (h : readTallyFrame levels.length (gatherBytes 70 levels) = some f) : levels ≠ [] := by
  rintro rfl
  cases h

/-- A frame received with nothing waiting: it is accepted, and the first of its entries are handed on. -/
theorem exec_tallyFrame_accepted (skips : s.tally.skippingPartial = false) (waits : s.tally.waiting = [])
    (reads : readTallyFrame levels.length (gatherBytes 70 levels) = some f) :
    exec (.tallyFrame (some levels) now) s = .next (State.handOn now (s.acceptFrame f)).settle := by
  have nothing : s.finishEntries = s := State.handOn_nothing _ waits
  show Host.Outcome.next (s.receiveFrame levels now).settle = _
  rw [State.receiveFrame_received skips (bits_of_readTallyFrame reads), nothing, State.checkFrame_accepted reads]

/-! ## The sequence check (Table 4-3) -/

theorem sequenceCheck_restart {expected : Option Nat} {restart : Bool} {n : Nat}
    (h : expected = none ∨ restart = true) : sequenceCheck expected restart n = .restart := by
  cases expected with
  | none => rfl
  | some e =>
    have flag : restart = true := h.resolve_left (by simp)
    rw [sequenceCheck, if_pos flag]

theorem sequenceCheck_inSequence (e : Nat) : sequenceCheck (some e) false e = .inSequence := by
  simp [sequenceCheck]

/-- The number before `e`, with 255 before 0. -/
theorem before_eq {e : Nat} (h : e < 256) : (e + 255) % 256 = if e = 0 then 255 else e - 1 := by
  split <;> omega

theorem after_eq {n : Nat} (h : n < 256) : (n + 1) % 256 = if n = 255 then 0 else n + 1 := by
  split <;> omega

theorem sequenceCheck_repeated {e n : Nat} (small : e < 256) (h : n = if e = 0 then 255 else e - 1) :
    sequenceCheck (some e) false n = .repeated := by
  have before := before_eq small
  have other : n ≠ e := by rw [h]; split <;> omega
  simp [sequenceCheck, other, before, ← h]

theorem sequenceCheck_gap {e n : Nat} (small : e < 256) (other : n ≠ e) (later : n ≠ if e = 0 then 255 else e - 1) :
    sequenceCheck (some e) false n = .gap ((n + 256 - e) % 256) := by
  simp [sequenceCheck, other, before_eq small, later]

/-- An accepted frame's number is a byte. -/
theorem sequence_of_readTallyFrame {bits : Nat} {bytes : List Byte} (h : readTallyFrame bits bytes = some f) :
    f.sequence < 256 := by
  unfold readTallyFrame at h
  split at h
  · next head flags sequence count rest =>
    dsimp only at h
    split at h
    · split at h
      · next => cases h; exact sequence.isLt
      · cases h
    · cases h
  · cases h

/-! ## What an accepted frame does -/

/-- A frame is processed: its head's state is the one after it, and its entries wait. -/
def State.processed (s : State) (f : TallyFrame) (h : Head) : State :=
  { s with tally := { s.tally with
      waiting := f.entries
      heads := s.tally.heads.set f.head.val h f.head.isLt } }

theorem State.acceptFrame_restart
    (h : s.tally.heads[f.head.val].expected = none ∨ f.restart = true) :
    s.acceptFrame f = s.processed f { s.tally.heads[f.head.val] with
      expected := some ((f.sequence + 1) % 256)
      restarts := min 4294967295 (s.tally.heads[f.head.val].restarts + 1) } := by
  rw [State.acceptFrame, sequenceCheck_restart h]
  rfl

theorem State.acceptFrame_inSequence (expected : s.tally.heads[f.head.val].expected = some f.sequence)
    (flag : f.restart = false) :
    s.acceptFrame f = s.processed f { s.tally.heads[f.head.val] with
      expected := some ((f.sequence + 1) % 256)
      taken := min 4294967295 (s.tally.heads[f.head.val].taken + 1) } := by
  rw [State.acceptFrame, expected, flag, sequenceCheck_inSequence]
  rfl

theorem State.acceptFrame_repeated (h : sequenceCheck s.tally.heads[f.head.val].expected f.restart f.sequence = .repeated) :
    s.acceptFrame f = { s with tally := { s.tally with
      heads := s.tally.heads.set f.head.val { s.tally.heads[f.head.val] with
        repeats := min 4294967295 (s.tally.heads[f.head.val].repeats + 1) } f.head.isLt } } := by
  rw [State.acceptFrame, h]
  rfl

/-- R74: the channels in use are marked and TALLY_FAULT is raised before the entries wait. -/
theorem State.acceptFrame_gap {size : Nat}
    (h : sequenceCheck s.tally.heads[f.head.val].expected f.restart f.sequence = .gap size) :
    s.acceptFrame f = (s.markGap f.head size f.sequence).processed f { s.tally.heads[f.head.val] with
      expected := some ((f.sequence + 1) % 256)
      taken := min 4294967295 (s.tally.heads[f.head.val].taken + 1)
      gaps := min 4294967295 (s.tally.heads[f.head.val].gaps + 1)
      missed := min 4294967295 (s.tally.heads[f.head.val].missed + size) } := by
  rw [State.acceptFrame, h]
  rfl

/-- Settles O46: with the entries of an earlier frame handed on first, each outcome of the sequence check gives the state
that waits with the frame's entries; a gap's size is what leads from the expected number to the one that came. -/
theorem tally_sequence : Obligations.Tally_sequence := by
  unfold Obligations.Tally_sequence
  intro s levels now skips
  refine ⟨fun bits => ?_, ?_⟩
  · show Host.Outcome.next (s.receiveFrame levels now).settle =
      .next (s.finishEntries.receiveFrame levels now).settle
    rw [State.receiveFrame_received skips bits,
      State.receiveFrame_received (s.finishEntries_skipping.trans skips) bits, State.finishEntries_finished]
  intro f h waits reads here
  subst here
  have byte := sequence_of_readTallyFrame reads
  have runs := exec_tallyFrame_accepted (now := now) skips waits reads
  refine ⟨?_, ?_, ?_, ?_⟩
  · rintro e expected small flag rfl
    rw [runs, State.acceptFrame_inSequence expected flag, after_eq byte]
    rfl
  · intro e expected flag again small
    have check := sequenceCheck_repeated small again
    rw [← expected, ← flag] at check
    rw [runs, State.acceptFrame_repeated check]
    exact congrArg (fun u : State => Host.Outcome.next u.settle) (State.handOn_nothing now waits)
  · intro restarts
    rw [runs, State.acceptFrame_restart restarts, after_eq byte]
    rfl
  · intro e expected small flag other later
    have check := sequenceCheck_gap small other later
    rw [← expected, ← flag] at check
    rw [State.acceptFrame_gap check, after_eq byte] at runs
    have bounds : (e + (f.sequence + 256 - e) % 256) % 256 = f.sequence ∧ 1 ≤ (f.sequence + 256 - e) % 256 ∧
        (f.sequence + 256 - e) % 256 ≤ 254 := by
      by_cases first : e = 0
      · rw [if_pos first] at later; omega
      · rw [if_neg first] at later; omega
    exact ⟨_, _, bounds.1, bounds.2.1, bounds.2.2, runs, rfl, s.markUncertain_channel, rfl, rfl, rfl⟩

/-! ## Tally frames (Table 11-8) -/

/-- Two bytes are the CRC-16 of a frame exactly when they are its high and its low byte. -/
theorem crc16Bytes_eq_iff (c1 c0 : Byte) (body : List Byte) : [c1, c0] = crc16Bytes body ↔ c1 ++ c0 = crc16 body := by
  have bytes : crc16Bytes body =
      [BitVec.ofNat 8 ((crc16 body).toNat / 256), BitVec.ofNat 8 (crc16 body).toNat] := by
    simp [crc16Bytes, bytesOf]
  rw [bytes]
  have bound := (crc16 body).isLt
  have b1 := c1.isLt
  have b0 := c0.isLt
  have sum : (c1 ++ c0).toNat = c1.toNat * 256 + c0.toNat := by
    rw [BitVec.toNat_append, ← Nat.shiftLeft_add_eq_or_of_lt b0, Nat.shiftLeft_eq]
  simp only [List.cons.injEq, and_true, ← BitVec.toNat_inj, BitVec.toNat_ofNat, sum]
  omega

/-- The eight bytes of an entry. -/
def TallyEntry.bytes (e : TallyEntry) : List Byte :=
  [BitVec.ofNat 8 e.channel.val, BitVec.ofNat 8 (e.small / 256), BitVec.ofNat 8 e.small,
    BitVec.ofNat 8 (e.medium / 256), BitVec.ofNat 8 e.medium, BitVec.ofNat 8 (e.large / 256),
    BitVec.ofNat 8 e.large, BitVec.ofNat 8 e.temperature]

/-- An entry's fields fit their bytes. -/
def TallyEntry.Fits (e : TallyEntry) : Prop :=
  e.small < 65536 ∧ e.medium < 65536 ∧ e.large < 65536 ∧ e.temperature < 256

theorem natOf_one (a : Byte) : natOf [a] = a.toNat := by
  simp [natOf]

theorem natOf_halves {n : Nat} (h : n < 65536) : natOf [BitVec.ofNat 8 (n / 256), BitVec.ofNat 8 n] = n := by
  rw [natOf_two]
  simp only [BitVec.toNat_ofNat]
  omega

theorem readTallyEntry_bytes {e : TallyEntry} (h : e.Fits) : readTallyEntry e.bytes = some e := by
  obtain ⟨channel, s, m, l, t⟩ := e
  obtain ⟨small, medium, large, (temperature : t < 256)⟩ := h
  have channelField : natOf [BitVec.ofNat 8 channel.val] = channel.val := by
    rw [natOf_one, BitVec.toNat_ofNat]; have := channel.isLt; omega
  have temperatureField : natOf [BitVec.ofNat 8 t] = t := by
    rw [natOf_one, BitVec.toNat_ofNat]; omega
  simp [readTallyEntry, TallyEntry.bytes, channelField, temperatureField, natOf_halves small, natOf_halves medium,
    natOf_halves large]

theorem readTallyEntries_bytes {entries : List TallyEntry} (h : ∀ e ∈ entries, e.Fits) (tail : List Byte) :
    readTallyEntries entries.length (entries.flatMap TallyEntry.bytes ++ tail) = some entries := by
  induction entries with
  | nil => rfl
  | cons e rest ih =>
    have first : readTallyEntry e.bytes = some e := readTallyEntry_bytes (h e (List.mem_cons_self ..))
    have others := ih fun x mem => h x (List.mem_cons_of_mem _ mem)
    have width : e.bytes.length = 8 := rfl
    simp only [List.length_cons, readTallyEntries, List.flatMap_cons, List.append_assoc, List.take_left' width,
      List.drop_left' width, first, others]

theorem flatMap_bytes_length (entries : List TallyEntry) :
    (entries.flatMap TallyEntry.bytes).length = 8 * entries.length := by
  induction entries with
  | nil => rfl
  | cons e rest ih =>
    rw [List.flatMap_cons, List.length_append, ih, List.length_cons]
    show 8 + _ = _
    omega

/-- An entry whose first byte is above 7 names no channel. -/
theorem readTallyEntry_none {b : List Byte} {c : Byte} (first : b[0]? = some c) (h : 7 < c.toNat) :
    readTallyEntry b = none := by
  cases b with
  | nil => cases first
  | cons a rest =>
    cases first
    have field : natOf [c] = c.toNat := natOf_one c
    simp [readTallyEntry, field, show ¬c.toNat < 8 by omega]

theorem readTallyEntries_none {n k : Nat} {b : List Byte} {c : Byte} (inside : k < n) (here : b[8 * k]? = some c)
    (h : 7 < c.toNat) : readTallyEntries n b = none := by
  induction n generalizing k b with
  | zero => omega
  | succ n ih =>
    rw [readTallyEntries]
    cases k with
    | zero =>
      have first : (b.take 8)[0]? = some c := by rw [List.getElem?_take_of_lt (by decide)]; exact here
      rw [readTallyEntry_none first h]
    | succ k =>
      have later : (b.drop 8)[8 * k]? = some c := by
        rw [List.getElem?_drop, show 8 + 8 * k = 8 * (k + 1) by omega]; exact here
      rw [ih (Nat.lt_of_succ_lt_succ inside) later]
      cases readTallyEntry (b.take 8) <;> rfl

/-- The bytes of a frame and its CRC-16 are read as the fields they spell. -/
theorem readTallyFrame_frame {head : Fin 4} {flags sequence c1 c0 : Byte} {entries : List TallyEntry}
    (least : 1 ≤ entries.length) (most : entries.length ≤ 8) (fits : ∀ e ∈ entries, e.Fits) {body : List Byte}
    (hbody : body = [BitVec.ofNat 8 head.val, flags, sequence, BitVec.ofNat 8 entries.length] ++
      entries.flatMap TallyEntry.bytes) :
    readTallyFrame (8 * (6 + 8 * entries.length)) (body ++ [c1, c0]) =
      if c1 ++ c0 = crc16 body then some ⟨head, flags.msb, sequence.toNat, entries⟩ else none := by
  have count : (BitVec.ofNat 8 entries.length : Byte).toNat = entries.length := by
    rw [BitVec.toNat_ofNat]; omega
  have headField : (BitVec.ofNat 8 head.val : Byte).toNat = head.val := by
    rw [BitVec.toNat_ofNat]; have := head.isLt; omega
  have width := flatMap_bytes_length entries
  have size : body.length = 4 + 8 * entries.length := by
    rw [hbody, List.length_append, width]; rfl
  have frame : body ++ [c1, c0] = BitVec.ofNat 8 head.val :: flags :: sequence :: BitVec.ofNat 8 entries.length ::
      (entries.flatMap TallyEntry.bytes ++ [c1, c0]) := by
    rw [hbody]; rfl
  have content : (body ++ [c1, c0]).take (4 + 8 * entries.length) = body := List.take_left' size
  have total : (body ++ [c1, c0]).length = 6 + 8 * entries.length := by
    rw [List.length_append, size]; show _ + 2 = _; omega
  rw [frame] at content total ⊢
  simp only [readTallyFrame, count, List.drop_left' width, content, crc16Bytes_eq_iff, total, headField,
    readTallyEntries_bytes fits, least, most, head.isLt, dif_pos, true_and]

theorem readTallyFrame_bits {bits : Nat} {bytes : List Byte} (h : bytes.length < 4 ∨ bits ≠ 8 * bytes.length) :
    readTallyFrame bits bytes = none := by
  unfold readTallyFrame
  split
  · next head flags sequence count rest =>
    have whole : bits ≠ 8 * (head :: flags :: sequence :: count :: rest).length :=
      h.resolve_left (by simp)
    exact if_neg fun good => whole good.2.2.2.1
  · rfl

/-- A count, a length, a head or a channel out of range: the frame is not accepted. -/
theorem readTallyFrame_fields {head flags sequence count : Byte} {rest : List Byte}
    (h : count.toNat = 0 ∨ 8 < count.toNat ∨ rest.length ≠ 8 * count.toNat + 2 ∨ 3 < head.toNat ∨
      ∃ k c, k < count.toNat ∧ rest[8 * k]? = some c ∧ 7 < c.toNat) (bits : Nat) :
    readTallyFrame bits (head :: flags :: sequence :: count :: rest) = none := by
  rw [readTallyFrame]
  split
  · next good =>
    obtain ⟨least, most, size, -, -⟩ := good
    simp only [List.length_cons] at size
    rcases h with zero | many | length | above | ⟨k, c, inside, here, outside⟩
    · omega
    · omega
    · omega
    · rw [dif_neg (by omega)]
    · rw [readTallyEntries_none inside here outside]
      split <;> trivial
  · rfl

/-- Settles O47: the frame's bytes and their reading, what is discarded, and the handing on of one entry after the
other. -/
theorem tally_discards : Obligations.Tally_discards := by
  unfold Obligations.Tally_discards
  intro s levels now
  refine ⟨fun most => gatherBytes_cons most (levels := levels), fun most => gatherBytes_length most levels, ?_,
    fun bits bytes h => readTallyFrame_bits h, fun head flags sequence count rest h => readTallyFrame_fields h,
    ?_, ?_, ?_, rfl, fun n => rfl, ?_, fun n e rest waits => State.handOn_cons n waits, ?_⟩
  · intro head flags sequence entries body least most fits spelled
    refine ⟨fun c1 c0 right => ?_, fun c1 c0 wrong => ?_⟩
    · exact (readTallyFrame_frame least most fits spelled).trans (if_pos right)
    · exact (readTallyFrame_frame least most fits spelled).trans (if_neg wrong)
  · intro skips
    exact congrArg (fun u : State => Host.Outcome.next u.settle) (State.receiveFrame_skipped skips)
  · rintro skips rfl
    exact congrArg (fun u : State => Host.Outcome.next u.settle) (State.receiveFrame_empty skips)
  · intro skips waits bits reads
    have nothing : s.finishEntries = s := State.handOn_nothing _ waits
    show Host.Outcome.next (s.receiveFrame levels now).settle = _
    rw [State.receiveFrame_received skips bits, nothing, State.checkFrame_discarded reads]
    exact congrArg (fun u : State => Host.Outcome.next u.settle) (State.handOn_nothing now waits)
  · rintro n (rfl | waits)
    · rfl
    · exact State.handOn_nothing n waits
  · intro e
    refine ⟨fun idle => ?_, fun active => ?_⟩
    · rw [State.routeEntry, if_pos idle]
      rfl
    · rw [State.routeEntry, if_neg active]
      rfl

end

end Sys2Proof.Machine

/-! PROOF. The charge rule (R87 to R90): what a switch of slots keeps, how a draw is booked and drawn, and what follows of
it for the serving slot and its channel (`Charged`); with it the entry computation (O48) and SERVICE_DRAW (O31). -/

namespace Sys2Proof.Machine

section
variable {s t u : State} {c : ChannelId} {i j : SlotId}

/-! ## What the moves between READY, SERVING and SPENT keep -/

/-- Slots have been moved from state to state alone: the rest of every Slot Record stays, and a commit in flight stays in
flight. -/
structure StatesMoved (s t : State) : Prop where
  slots : ∀ k, t.slot k = { s.slot k with state := (t.slot k).state }
  flights : ∀ k, (s.commit k).flight.isSome = true → (t.commit k).flight.isSome = true

theorem StatesMoved.refl (s : State) : StatesMoved s s := ⟨fun _ => rfl, fun _ h => h⟩

theorem StatesMoved.trans (h : StatesMoved s t) (k : StatesMoved t u) : StatesMoved s u where
  slots x := by rw [k.slots, h.slots]
  flights x inFlight := k.flights x (h.flights x inFlight)

theorem StatesMoved.of_eq (slots : t.slots = s.slots) (commits : t.commits = s.commits) : StatesMoved s t where
  slots x := by simp only [State.slot, slots]
  flights x inFlight := by simp only [State.commit, commits] at inFlight ⊢; exact inFlight

theorem StatesMoved.of_records (kept : RecordsKept s t)
    (flights : ∀ k, (s.commit k).flight.isSome = true → (t.commit k).flight.isSome = true) : StatesMoved s t where
  slots x := by rw [kept.slot]
  flights := flights

theorem HeadTested.moved (h : HeadTested s t c) : StatesMoved s t :=
  .of_eq h.slots (by rw [h.only])

theorem StatesMoved.actTrigger (s : State) (i : SlotId) (forced : Bool) : StatesMoved s (s.actTrigger i forced) :=
  .of_records (.actTrigger (.refl s) i forced) (State.actTrigger_flight s i forced).2

theorem StatesMoved.forcedTrigger (s : State) (i : SlotId) : StatesMoved s (s.forcedTrigger i) := by
  unfold State.forcedTrigger
  split
  · exact .actTrigger s i true
  · exact .refl s

theorem StatesMoved.stepTrigger (s : State) (i : SlotId) : StatesMoved s (s.stepTrigger i) := by
  unfold State.stepTrigger
  split
  · exact .actTrigger s i false
  · exact .refl s

theorem StatesMoved.requestMark (s : State) (i : SlotId) (m : TagMark) : StatesMoved s (s.requestMark i m) := by
  refine .of_records (.requestMark (.refl s) i m) fun k inFlight => ?_
  unfold State.requestMark
  split
  · exact inFlight
  · split
    case h_1 => exact ((State.enqueue_work s _).commits.flight k).trans inFlight
    case h_2 =>
      split
      · exact inFlight
      · exact inFlight

theorem StatesMoved.moveSlot (s : State) (i : SlotId) (state : SlotState) :
    StatesMoved s (s.moveSlot i fun r => { r with state := state }) where
  slots k := by
    rw [State.moveSlot_slot]
    split
    · rfl
    · rfl
  flights _ inFlight := inFlight

theorem StatesMoved.toReady (s : State) (i : SlotId) : StatesMoved s (s.toReady i) :=
  (StatesMoved.moveSlot s i .ready).trans (.forcedTrigger _ i)

theorem StatesMoved.completeSwitch (s : State) (c : ChannelId) (i j : SlotId) :
    StatesMoved s (s.completeSwitch c i j) := by
  have moved := (StatesMoved.toReady s i).trans (.moveSlot _ j .serving)
  unfold State.completeSwitch
  dsimp only
  refine .trans ?_ (State.headTest_tested _ c).moved
  exact moved.trans (.of_eq rfl rfl)

theorem StatesMoved.completionTest (s : State) (c : ChannelId) : StatesMoved s (s.completionTest c) := by
  unfold State.completionTest
  dsimp only
  split
  · split
    · exact .refl s
    · exact .completeSwitch s c _ _
  · exact .refl s

theorem StatesMoved.plannedSwitch (s : State) (c : ChannelId) : StatesMoved s (s.plannedSwitch c) := by
  unfold State.plannedSwitch
  dsimp only
  split
  · refine .trans ?_ (.completionTest _ c)
    exact .of_eq rfl rfl
  · exact .refl s

theorem StatesMoved.channelCharged (s : State) (c : ChannelId) : StatesMoved s (s.channelCharged c) := by
  unfold State.channelCharged
  split
  · exact .completionTest s c
  · exact .plannedSwitch s c
  · exact .refl s

theorem StatesMoved.drawNext (s : State) (c : ChannelId) (pick : Option SlotId) : StatesMoved s (s.drawNext c pick) := by
  cases pick with
  | none => exact .of_eq rfl rfl
  | some j => exact (StatesMoved.moveSlot s j .serving).trans (.of_eq rfl rfl)

theorem StatesMoved.failover (s : State) (c : ChannelId) (i : SlotId) (reason : LeaveReason) :
    StatesMoved s (s.failover c i reason) := by
  unfold State.failover
  dsimp only
  refine .trans ?_ (.plannedSwitch _ c)
  refine .trans ?_ (State.headTest_tested _ c).moved
  refine (StatesMoved.drawNext s c (s.standIn c i)).trans ?_
  obtain ⟨only, _, _⟩ := (s.drawNext c (s.standIn c i)).applySplit_spec c (some i) (s.standIn c i)
  exact (StatesMoved.of_eq (by rw [only]; rfl) (by rw [only]; rfl)).trans (.of_eq rfl rfl)

theorem StatesMoved.cancelSwitch (s : State) (c : ChannelId) : StatesMoved s (s.cancelSwitch c) := by
  unfold State.cancelSwitch
  dsimp only
  refine .trans ?_ (State.headTest_tested _ c).moved
  exact .of_eq rfl rfl

theorem StatesMoved.targetTest (s : State) (c : ChannelId) : StatesMoved s (s.targetTest c) := by
  unfold State.targetTest
  dsimp only
  split
  · split
    · exact .refl s
    · exact .cancelSwitch s c
  · exact .refl s

theorem StatesMoved.slotLeft (s : State) (i : SlotId) (reason : LeaveReason) : StatesMoved s (s.slotLeft i reason) := by
  unfold State.slotLeft
  split
  · split
    · exact .failover s _ i reason
    · exact .targetTest s _
  · exact .refl s

theorem StatesMoved.slotSpent (s : State) (i : SlotId) : StatesMoved s (s.slotSpent i) :=
  (((StatesMoved.moveSlot s i .spent).trans (.forcedTrigger _ i)).trans (.requestMark _ i .spent)).trans
    (.slotLeft _ i .spent)

theorem StatesMoved.spentTest (s : State) (i : SlotId) : StatesMoved s (s.spentTest i) := by
  unfold State.spentTest
  split
  · exact .slotSpent s i
  · exact .refl s

/-! ## A slot that leaves the service -/

theorem State.slotLeft_serving {reason : LeaveReason} (channel : (s.slot i).channel = some c)
    (serving : (s.channel c).serving = some i) : s.slotLeft i reason = s.failover c i reason := by
  rw [State.slotLeft, channel]
  exact if_pos serving

theorem Channel.paired.mem {ch : Channel} (h : ch.paired i j) : i ∈ ch.pairSlots ∧ j ∈ ch.pairSlots := by
  unfold Channel.pairSlots
  rcases h.2 with pair | pair <;> rw [pair] <;> simp [SupplyPair.slots]

theorem Channel.paired.symm {ch : Channel} (h : ch.paired i j) : ch.paired j i := ⟨Ne.symm h.1, h.2.symm⟩

/-- After a failover from slot `i`, which is not READY, no planned switch is due. -/
theorem FailedOver.plannedSwitch {reason : LeaveReason} {l : List Reservation} (h : FailedOver s t c i reason l)
    (pair : (t.channel c).pair = (s.channel c).pair) (left : (t.slot i).state ≠ .ready) : t.plannedSwitch c = t := by
  refine State.plannedSwitch_of_none ?_
  by_cases taken : ∃ j, (s.channel c).paired i j ∧ s.CanServe j
  · obtain ⟨j, paired, canServe⟩ := taken
    have drawn := h.taken j paired canServe
    have paired' : (t.channel c).paired j i := by rw [Channel.paired, pair]; exact paired.symm
    cases wanted : t.switchWanted c with
    | none => rfl
    | some k =>
      have due := (State.switchWanted_iff drawn.state drawn.serving paired'.mem.1).1 wanted
      have back : k = i := Option.some.inj
        (((Channel.otherSlot_eq paired'.mem.1).2 due.pair).symm.trans ((Channel.otherSlot_eq paired'.mem.1).2 paired'))
      exact (left (back ▸ due.ready)).elim
  · have undrawn := h.lost fun j paired canServe => taken ⟨j, paired, canServe⟩
    rw [State.switchWanted]
    simp only [undrawn.state]

/-- A failover told of an earlier state, from which only slot `i` and notices were to be told. -/
theorem FailedOver.earlier {reason : LeaveReason} {l : List Reservation} (h : FailedOver t u c i reason l)
    (channel : t.channel c = s.channel c) (slots : ∀ k, k ≠ i → t.slot k = s.slot k)
    (raises : Raises s.notices t.notices) : FailedOver s u c i reason l := by
  have canServe : ∀ k, (s.channel c).paired i k → (t.CanServe k ↔ s.CanServe k) := fun k paired => by
    rw [State.CanServe, State.CanServe, slots k (Ne.symm paired.1)]
  obtain ⟨taken, lost, split, notice⟩ := h
  rw [channel] at taken lost notice
  exact ⟨fun k paired can => taken k paired ((canServe k paired).2 can),
    fun noneCan => lost fun k paired can => noneCan k paired ((canServe k paired).1 can),
    ⟨split.marked, split.last, fun r member drawing => .after raises (split.notice r member drawing)⟩,
    .after raises notice⟩

theorem SwitchedOver.earlier (h : SwitchedOver t u c i j) (raises : Raises s.notices t.notices) :
    SwitchedOver s u c i j :=
  ⟨h.drawn, h.back, h.split, .after raises h.notice⟩

/-! ## The draw (R148, R149) -/

theorem isGranted_iff (r : Reservation) : r.isGranted = true ↔ r.wait = none := by
  unfold Reservation.isGranted
  cases r.wait <;> simp

theorem drawFrom_draws (n : Nat) (l : List Reservation) : Draws n l (drawFrom n l).1 (drawFrom n l).2 := by
  induction l generalizing n with
  | nil => exact .done
  | cons r rest ih =>
    rw [drawFrom]
    by_cases granted : r.isGranted = true
    · rw [if_pos granted]
      exact .takes ((isGranted_iff r).1 granted) (ih _)
    · rw [if_neg granted]
      exact .waits (fun h => granted ((isGranted_iff r).2 h)) (ih _)

/-- R149: the channel with an unreserved part booked. -/
def Channel.drawnUnreserved (ch : Channel) (part : Nat) : Channel :=
  { ch with
    unreservedDraw := ch.unreservedDraw || decide (0 < part ∧ 0 < ch.settings.upperThreshold)
    volume := { ch.volume with unreservedDraw := min 281474976710655 (ch.volume.unreservedDraw + part) } }

theorem State.unreserved_eq (s : State) (c : ChannelId) (part : Nat) :
    s.unreserved c part = { s.withChannel c ((s.channel c).drawnUnreserved part) with
      notices :=
        if 0 < part ∧ 0 < (s.channel c).settings.upperThreshold ∧ (s.channel c).unreservedDraw = false then
          s.notices.raise (.unreservedDraw c part ((s.channel c).drawnUnreserved part).volume.unreservedDraw)
        else s.notices } := by
  unfold State.unreserved
  dsimp only
  rw [State.updVolume_channel_same]
  have volumes : (s.updVolume c fun v => { v with unreservedDraw := satAdd Config.max48 v.unreservedDraw part }) =
      s.withChannel c { s.channel c with
        volume := ((s.channel c).drawnUnreserved part).volume } := rfl
  rw [volumes]
  by_cases off : part = 0 ∨ (s.channel c).settings.upperThreshold = 0 ∨ (s.channel c).unreservedDraw = true
  · have clear : ¬(0 < part ∧ 0 < (s.channel c).settings.upperThreshold ∧ (s.channel c).unreservedDraw = false) := by
      rintro ⟨positive, on, unset⟩
      rcases off with zero | zero | set
      · omega
      · omega
      · rw [set] at unset; cases unset
    rw [if_pos off, if_neg clear]
    have flag : ((s.channel c).unreservedDraw || decide (0 < part ∧ 0 < (s.channel c).settings.upperThreshold)) =
        (s.channel c).unreservedDraw := by
      rcases off with zero | zero | set
      · simp [zero]
      · simp [zero]
      · simp [set]
    rw [Channel.drawnUnreserved, flag]
    rfl
  · have on : 0 < part ∧ 0 < (s.channel c).settings.upperThreshold ∧ (s.channel c).unreservedDraw = false := by
      simp only [not_or, Bool.not_eq_true] at off
      obtain ⟨positive, threshold, unset⟩ := off
      exact ⟨Nat.pos_of_ne_zero positive, Nat.pos_of_ne_zero threshold, unset⟩
    rw [if_neg off, if_pos on]
    have flag : ((s.channel c).unreservedDraw || decide (0 < part ∧ 0 < (s.channel c).settings.upperThreshold)) =
        true := by simp [on.1, on.2.1]
    rw [State.updChannel_eq, State.withChannel_withChannel, State.withChannel_channel, Channel.drawnUnreserved, flag]
    rfl

/-- R148: the granted reservations have drawn, before the clear test and the head test. -/
def State.drawnFrom (s : State) (c : ChannelId) (amount : Nat) : State :=
  (s.updChannel c fun ch => { ch with reservations := (drawFrom amount (s.channel c).reservations).1 }).unreserved c
    (drawFrom amount (s.channel c).reservations).2

theorem State.drawnFrom_eq (s : State) (c : ChannelId) (amount : Nat) (left : Nat) (list : List Reservation)
    (draws : drawFrom amount (s.channel c).reservations = (list, left)) :
    s.drawnFrom c amount =
      { s.withChannel c (Channel.drawnUnreserved { s.channel c with reservations := list } left) with
      notices :=
        if 0 < left ∧ 0 < (s.channel c).settings.upperThreshold ∧ (s.channel c).unreservedDraw = false then
          s.notices.raise (.unreservedDraw c left
            (Channel.drawnUnreserved { s.channel c with reservations := list } left).volume.unreservedDraw)
        else s.notices } := by
  rw [State.drawnFrom, draws, State.unreserved_eq, State.updChannel_eq, State.withChannel_withChannel,
    State.withChannel_channel]
  rfl

theorem State.draw_tests (s : State) (c : ChannelId) (amount : Nat) :
    HeadTests c ((s.drawnFrom c amount).cleared c) (s.draw c amount) ∧
      HeadTested (s.drawnFrom c amount) (s.draw c amount) c := by
  have here : s.draw c amount = ((s.drawnFrom c amount).clearTest c).headTest c := rfl
  rw [here]
  refine ⟨?_, (State.clearTest_tested _ c).trans (State.headTest_tested _ c)⟩
  rw [State.clearTest_eq]
  exact State.headTest_tests _ c

/-- What a draw keeps of its channel's record. -/
theorem State.draw_channel (s : State) (c : ChannelId) (amount : Nat) :
    ((s.draw c amount).channel c).state = (s.channel c).state ∧
      ((s.draw c amount).channel c).serving = (s.channel c).serving ∧
      ((s.draw c amount).channel c).target = (s.channel c).target ∧
      ((s.draw c amount).channel c).pair = (s.channel c).pair ∧
      ((s.draw c amount).channel c).settings = (s.channel c).settings := by
  have tested := (s.draw_tests c amount).2
  have record : (s.drawnFrom c amount).channel c = Channel.drawnUnreserved
      { s.channel c with reservations := (drawFrom amount (s.channel c).reservations).1 }
      (drawFrom amount (s.channel c).reservations).2 := by
    rw [State.drawnFrom_eq s c amount _ _ rfl]
    exact State.withChannel_channel s c _
  rw [tested.self, record]
  exact ⟨rfl, rfl, rfl, rfl, rfl⟩

theorem State.draw_slots (s : State) (c : ChannelId) (amount : Nat) : (s.draw c amount).slots = s.slots := by
  rw [(s.draw_tests c amount).2.slots, State.drawnFrom_eq s c amount _ _ rfl]
  rfl

/-! ## The serving slot after a charge (R93, R94, R104) -/

/-- The band of slot `i` has been formed with the levels of channel `c` and its step trigger tested. -/
structure BandFormed (s t : State) (c : ChannelId) (i : SlotId) : Prop where
  slots : t.slots = s.slots.set i.val { s.slot i with
    band := bandOf (s.slot i).remaining (s.slot i).perMille (s.channel c).settings } i.isLt
  channels : t.channels = s.channels
  flights : ∀ k, (s.commit k).flight.isSome = true → (t.commit k).flight.isSome = true
  notice : (t.slot i).band ≠ (s.slot i).band →
    Announced s.notices t.notices (.levelBand i c (s.slot i).band (t.slot i).band (s.slot i).perMille
      (s.slot i).remaining)
  raises : Raises s.notices t.notices
  step : (s.slot i).state.isAdmitted = true → 0 < (s.slot i).uncommitted →
    (s.channel c).settings.commitStep ≤ (s.slot i).uncommitted → (t.commit i).flight.isSome = true

theorem State.formBand_eq (channel : (s.slot i).channel = some c) {b : Band}
    (band : b = bandOf (s.slot i).remaining (s.slot i).perMille (s.channel c).settings) :
    s.formBand i = { s.withSlot i { s.slot i with band := b } with
      notices := if b = (s.slot i).band then s.notices
        else s.notices.raise (.levelBand i c (s.slot i).band b (s.slot i).perMille (s.slot i).remaining) } := by
  unfold State.formBand
  dsimp only
  split
  case h_1 d named =>
    obtain rfl : d = c := Option.some.inj (named.symm.trans channel)
    rw [← band]
    split
    · rfl
    · rfl
  case h_2 unnamed => rw [channel] at unnamed; cases unnamed

theorem State.withSlot_slot (s : State) (i k : SlotId) (r : SlotRecord) :
    (s.withSlot i r).slot k = if i = k then r else s.slot k :=
  s.updSlot_slot i k fun _ => r

theorem State.bandFormed (channel : (s.slot i).channel = some c) :
    BandFormed s ((s.formBand i).stepTrigger i) c i := by
  generalize band : bandOf (s.slot i).remaining (s.slot i).perMille (s.channel c).settings = b
  have formed := State.formBand_eq channel band.symm
  have record : (s.formBand i).slot i = { s.slot i with band := b } := by
    rw [formed]
    exact (s.withSlot_slot i i _).trans (if_pos rfl)
  have kept : RecordsKept (s.formBand i) ((s.formBand i).stepTrigger i) := .stepTrigger (.refl _) i
  have later : Raises (s.formBand i).notices ((s.formBand i).stepTrigger i).notices :=
    ((Undisturbed.refl _).stepTrigger i).notices
  have here : (((s.formBand i).stepTrigger i).slot i).band = b := by rw [kept.slot, record]
  have moved := StatesMoved.stepTrigger (s.formBand i) i
  refine ⟨?_, ?_, fun k inFlight => ?_, ?_, ?_, fun admitted positive step => ?_⟩
  · rw [kept.slots, formed, band]
    rfl
  · rw [kept.channels, formed]
    rfl
  · refine moved.flights k ?_
    rw [formed]
    exact inFlight
  · rw [here]
    intro other
    refine .trans ?_ later
    rw [formed]
    simp only [if_neg other]
    exact .now _ _
  · refine .trans ?_ later
    rw [formed]
    dsimp only
    split
    · exact .refl
    · exact .raise _ .refl
  · have acts : (s.formBand i).triggerActs i = true := by
      rw [State.triggerActs_iff, record]
      exact ⟨admitted, positive⟩
    have same : (s.formBand i).channel c = s.channel c := by rw [formed]; rfl
    have holds : (s.formBand i).stepHolds i = true := by
      rw [State.stepHolds, record]
      simp only [channel, same]
      exact decide_eq_true step
    rw [State.stepTrigger, if_pos ⟨acts, holds⟩]
    exact (State.actTrigger_flight _ i false).1

/-! ## Going SPENT, and the channel told (R89, R90) -/

/-- A slot that its channel drew from has left: the channel fails over, and the slot stays as it left. -/
theorem State.slotLeft_failsOver {reason : LeaveReason} (channel : (s.slot i).channel = some c)
    (serving : (s.channel c).serving = some i) (inPair : i ∈ (s.channel c).pairSlots)
    (left : (s.slot i).state ≠ .ready) :
    FailedOver s (s.slotLeft i reason) c i reason (s.channel c).reservations ∧
      (s.slotLeft i reason).slot i = s.slot i := by
  obtain ⟨failed, others⟩ := State.failover_failedOver s c i reason serving inPair left
  rw [State.slotLeft_serving channel serving]
  exact ⟨failed, others i fun ⟨paired, _⟩ => paired.1 rfl⟩

theorem State.slotSpent_failsOver (channel : (s.slot i).channel = some c)
    (serving : (s.channel c).serving = some i) (inPair : i ∈ (s.channel c).pairSlots) :
    FailedOver s (s.slotSpent i) c i .spent (s.channel c).reservations ∧ ((s.slotSpent i).slot i).state = .spent := by
  generalize moves : (s.moveSlot i fun r => { r with state := .spent }) = v
  generalize asks : (v.forcedTrigger i).requestMark i .spent = x
  have work : s.slotSpent i = x.slotLeft i .spent := by rw [State.slotSpent, moves, asks]
  have kept : RecordsKept v x := by
    rw [← asks]
    exact RecordsKept.requestMark (.forcedTrigger (.refl v) i) i .spent
  have raises : Raises s.notices x.notices := by
    have moved : Raises s.notices v.notices := by rw [← moves]; exact .raise _ .refl
    rw [← asks]
    exact moved.trans (((Undisturbed.refl v).forcedTrigger i).requestMark i .spent).notices
  have own : x.slot i = { s.slot i with state := .spent } := by
    rw [kept.slot, ← moves, State.moveSlot_slot, if_pos rfl]
  have others : ∀ k, k ≠ i → x.slot k = s.slot k := fun k other => by
    rw [kept.slot, ← moves, State.moveSlot_slot, if_neg (Ne.symm other)]
  have same : x.channel c = s.channel c := by rw [kept.channel, ← moves]; rfl
  obtain ⟨failed, stays⟩ := State.slotLeft_failsOver (s := x) (c := c) (i := i) (reason := .spent)
    (by rw [own]; exact channel) (by rw [same]; exact serving) (by rw [same]; exact inPair) (by rw [own]; simp)
  rw [work, stays, own, ← same]
  exact ⟨failed.earlier same others raises, rfl⟩

theorem State.channelCharged_supplied (h : (s.channel c).state = .supplied) : s.channelCharged c = s.plannedSwitch c := by
  rw [State.channelCharged, h]

theorem State.channelCharged_switching (h : (s.channel c).state = .switching) :
    s.channelCharged c = s.completionTest c := by
  rw [State.channelCharged, h]

/-- With no serving slot there is nothing to tell. -/
theorem State.channelCharged_unserved (h : (s.channel c).serving = none) : s.channelCharged c = s := by
  unfold State.channelCharged
  split
  · simp [State.completionTest, h]
  · refine State.plannedSwitch_of_none ?_
    simp [State.switchWanted, h]
  · rfl

/-- A failover is told of at once; nothing more follows of it. -/
theorem FailedOver.channelCharged {reason : LeaveReason} {l : List Reservation} (h : FailedOver s t c i reason l)
    (pair : (t.channel c).pair = (s.channel c).pair) (left : (t.slot i).state ≠ .ready) : t.channelCharged c = t := by
  by_cases taken : ∃ j, (s.channel c).paired i j ∧ s.CanServe j
  · obtain ⟨j, paired, canServe⟩ := taken
    rw [State.channelCharged_supplied (h.taken j paired canServe).state, h.plannedSwitch pair left]
  · exact State.channelCharged_unserved (h.lost fun j paired canServe => taken ⟨j, paired, canServe⟩).serving

/-- The planned switch of a channel that draws from `i`, as R129 and R130 say. -/
structure PlannedSwitched (s t : State) (c : ChannelId) (i : SlotId) : Prop where
  stays : (∀ j, ¬s.SwitchDue c i j) → t.channel c = s.channel c
  begins : ∀ j, s.SwitchDue c i j → (∃ r ∈ (s.channel c).reservations, r.isDrawing = true) →
    SwitchesTo t c i j ∧ Announced s.notices t.notices
      (.channelChanged c ⟨.switchBegin, .supplied, .switching, some i, some i, some j, none⟩)
  completes : ∀ j, s.SwitchDue c i j → (∀ r ∈ (s.channel c).reservations, r.isDrawing = false) →
    SwitchedOver s t c i j

theorem Channel.hasDrawing_iff (ch : Channel) :
    (ch.hasDrawing = true ↔ ∃ r ∈ ch.reservations, r.isDrawing = true) ∧
      (ch.hasDrawing = false ↔ ∀ r ∈ ch.reservations, r.isDrawing = false) := by
  simp [Channel.hasDrawing]

theorem State.plannedSwitch_switched (supplied : (s.channel c).state = .supplied)
    (serving : (s.channel c).serving = some i) (inPair : i ∈ (s.channel c).pairSlots) :
    PlannedSwitched s (s.plannedSwitch c) c i := by
  refine ⟨fun notDue => ?_, fun j due drawing => ?_, fun j due undrawn => ?_⟩
  · refine congrArg (State.channel · c) (State.plannedSwitch_of_none ?_)
    cases wanted : s.switchWanted c with
    | none => rfl
    | some j => exact (notDue j ((State.switchWanted_iff supplied serving inPair).1 wanted)).elim
  · rw [State.plannedSwitch_begins supplied serving due ((Channel.hasDrawing_iff _).1.2 drawing)]
    have record := s.withChannel_channel c { s.channel c with
      state := .switching
      target := some j }
    refine ⟨⟨?_, ?_, ?_⟩, .now _ _⟩
    · exact congrArg Channel.state record
    · exact (congrArg Channel.serving record).trans serving
    · exact congrArg Channel.target record
  · exact State.plannedSwitch_completes supplied serving due ((Channel.hasDrawing_iff _).2.2 undrawn)

/-- The same told of an earlier state, from which notices were raised and no more that the switch reads changed. -/
theorem PlannedSwitched.earlier (h : PlannedSwitched t u c i) (same : t.channel c = s.channel c)
    (due : ∀ j, t.SwitchDue c i j ↔ s.SwitchDue c i j) (raises : Raises s.notices t.notices) :
    PlannedSwitched s u c i := by
  obtain ⟨stays, begins, completes⟩ := h
  rw [same] at stays begins completes
  refine ⟨fun notDue => stays fun j isDue => notDue j ((due j).1 isDue), fun j isDue drawing => ?_,
    fun j isDue undrawn => (completes j ((due j).2 isDue) undrawn).earlier raises⟩
  obtain ⟨switches, notice⟩ := begins j ((due j).2 isDue) drawing
  exact ⟨switches, .after raises notice⟩

/-- What follows of a charge for the slot that took a part and for its channel (steps 4 to 7 of R89). -/
structure ServingCharged (s t : State) (c : ChannelId) (i : SlotId) : Prop where
  band : (t.slot i).band = bandOf (s.slot i).remaining (s.slot i).perMille (s.channel c).settings
  notice : (t.slot i).band ≠ (s.slot i).band →
    Announced s.notices t.notices (.levelBand i c (s.slot i).band (t.slot i).band (s.slot i).perMille
      (s.slot i).remaining)
  step : (s.channel c).settings.commitStep ≤ (s.slot i).uncommitted → (t.commit i).flight.isSome = true
  spent : (s.slot i).remaining = 0 → (t.slot i).state = .spent ∧ FailedOver s t c i .spent (s.channel c).reservations
  supplied : 0 < (s.slot i).remaining → (s.channel c).state = .supplied → PlannedSwitched s t c i
  switching : ∀ j, 0 < (s.slot i).remaining → (s.channel c).state = .switching → (s.channel c).target = some j →
    ((∃ r ∈ (s.channel c).reservations, r.isDrawing = true) → t.channel c = s.channel c) ∧
      ((∀ r ∈ (s.channel c).reservations, r.isDrawing = false) → SwitchedOver s t c i j)

theorem State.slotCharged_servingCharged (channel : (s.slot i).channel = some c)
    (serving : (s.channel c).serving = some i) (inPair : i ∈ (s.channel c).pairSlots)
    (serves : (s.slot i).state = .serving) (positive : 0 < (s.slot i).uncommitted) :
    ServingCharged s ((s.slotCharged i).channelCharged c) c i := by
  have formed := State.bandFormed channel
  generalize forms : (s.formBand i).stepTrigger i = w at formed
  have work : s.slotCharged i = w.spentTest i := by rw [State.slotCharged, forms]
  rw [work]
  have record : ∀ k, w.slot k = if i = k then { s.slot i with
      band := bandOf (s.slot i).remaining (s.slot i).perMille (s.channel c).settings } else s.slot k := fun k => by
    rw [State.slot, formed.slots]
    exact s.withSlot_slot i k _
  have own := (record i).trans (if_pos rfl)
  have others : ∀ k, k ≠ i → w.slot k = s.slot k := fun k other => (record k).trans (if_neg (Ne.symm other))
  have same : w.channel c = s.channel c := by rw [State.channel, formed.channels]; rfl
  have moved := (StatesMoved.spentTest w i).trans (.channelCharged _ c)
  have later : Raises w.notices ((w.spentTest i).channelCharged c).notices :=
    (((Undisturbed.refl w).spentTest i).channelCharged c).notices
  have band : (((w.spentTest i).channelCharged c).slot i).band = (w.slot i).band := by rw [moved.slots]
  have noPart : 0 < (s.slot i).remaining → w.spentTest i = w := fun left => by
    rw [State.spentTest, own]
    exact if_neg fun gone => Nat.ne_of_gt left gone.2
  have due : ∀ j, w.SwitchDue c i j ↔ s.SwitchDue c i j := fun j => by
    constructor
    · rintro ⟨paired, low, ready, above⟩
      rw [same] at paired low above
      rw [others j (Ne.symm paired.1)] at ready above
      rw [own] at low
      exact ⟨paired, low, ready, above⟩
    · rintro ⟨paired, low, ready, above⟩
      refine ⟨by rw [same]; exact paired, ?_, ?_, ?_⟩
      · rw [same, own]; exact low
      · rw [others j (Ne.symm paired.1)]; exact ready
      · rw [same, others j (Ne.symm paired.1)]; exact above
  refine ⟨by rw [band, own], fun changed => ?_, fun step => ?_, fun empty => ?_, fun left supplied => ?_,
    fun j left switching target => ?_⟩
  · rw [band] at changed ⊢
    exact (formed.notice changed).trans later
  · exact moved.flights i (formed.step (by rw [serves]; rfl) positive step)
  · have goes : w.spentTest i = w.slotSpent i := by
      rw [State.spentTest, own]
      exact if_pos ⟨serves, empty⟩
    obtain ⟨failed, spent⟩ := State.slotSpent_failsOver (s := w) (c := c) (i := i) (by rw [own]; exact channel)
      (by rw [same]; exact serving) (by rw [same]; exact inPair)
    have pair : ((w.slotSpent i).channel c).pair = (w.channel c).pair :=
      (((Undisturbed.refl w).slotSpent i).channel c).pair
    rw [goes, failed.channelCharged pair (by rw [spent]; simp)]
    rw [same] at failed
    exact ⟨spent, failed.earlier same others formed.raises⟩
  · rw [noPart left, State.channelCharged_supplied (by rw [same]; exact supplied)]
    refine (State.plannedSwitch_switched ?_ ?_ ?_).earlier same due formed.raises
    · rw [same]; exact supplied
    · rw [same]; exact serving
    · rw [same]; exact inPair
  · rw [noPart left, State.channelCharged_switching (by rw [same]; exact switching)]
    refine ⟨fun drawing => ?_, fun undrawn => ?_⟩
    · rw [State.completionTest_waits fun _ => (Channel.hasDrawing_iff _).1.2 (by rw [same]; exact drawing), same]
    · refine (State.completionTest_completes ?_ ?_ ?_ ?_).earlier formed.raises
      · rw [same]; exact switching
      · rw [same]; exact serving
      · rw [same]; exact target
      · exact (Channel.hasDrawing_iff _).2.2 (by rw [same]; exact undrawn)

/-! ## The charge -/

theorem State.booking_served {amount : Nat} (serving : (s.channel c).serving = some i) :
    s.booking c amount = ⟨min amount (s.slot i).remaining, amount - (s.slot i).remaining, 0⟩ := by
  simp only [State.booking, serving]

theorem State.booking_unserved {amount : Nat} (unserved : (s.channel c).serving = none) :
    s.booking c amount = ⟨0, 0, amount⟩ := by
  simp only [State.booking, unserved]

theorem State.book_served {amount : Nat} {b : Booking} (serving : (s.channel c).serving = some i) :
    s.book c amount b = (s.updVolume c fun v => v.charged amount b).updSlot i
      fun r => { r with uncommitted := r.uncommitted + b.toSlot } := by
  have same : ((s.updVolume c fun v => v.charged amount b).channel c).serving = some i := by
    rw [State.updVolume_channel_same]; exact serving
  simp only [State.book, same]

theorem State.book_unserved {amount : Nat} {b : Booking} (unserved : (s.channel c).serving = none) :
    s.book c amount b = s.updVolume c fun v => v.charged amount b := by
  have same : ((s.updVolume c fun v => v.charged amount b).channel c).serving = none := by
    rw [State.updVolume_channel_same]; exact unserved
  simp only [State.book, same]

theorem State.book_channels (s : State) (c : ChannelId) (amount : Nat) (b : Booking) :
    (s.book c amount b).channels = s.channels.set c.val { s.channel c with
      volume := (s.channel c).volume.charged amount b } c.isLt := by
  cases serving : (s.channel c).serving with
  | none => rw [State.book_unserved serving]; rfl
  | some i => rw [State.book_served serving]; rfl

theorem State.charge_unserved {amount : Nat} (unserved : (s.channel c).serving = none) :
    s.charge c amount = (s.book c amount (s.booking c amount)).draw c amount := by
  have record := s.book_channel c c amount (s.booking c amount)
  have serving := (State.draw_channel (s.book c amount (s.booking c amount)) c amount).2.1
  rw [record, if_pos rfl] at serving
  simp only [State.charge, unserved]
  exact State.channelCharged_unserved (serving.trans unserved)

theorem State.charge_served {amount : Nat} (serving : (s.channel c).serving = some i)
    (takes : 0 < (s.booking c amount).toSlot) :
    s.charge c amount =
      (((s.book c amount (s.booking c amount)).draw c amount).slotCharged i).channelCharged c := by
  simp only [State.charge, serving, if_pos takes]

/-- What the serving slot has left after a part. -/
theorem SlotRecord.remaining_charged (r : SlotRecord) (part : Nat) :
    SlotRecord.remaining { r with uncommitted := r.uncommitted + part } = r.remaining - part :=
  (Nat.sub_sub ..).symm

/-- R88 to R90: a charge above 0 does what `Charged` says. -/
theorem State.charge_charged (s : State) (c : ChannelId) {amount : Nat} (positive : 0 < amount) :
    Charged s (s.charge c amount) c amount (s.booking c amount).toSlot (s.booking c amount).overdraw
      (s.booking c amount).unattributed := by
  have undisturbed := Undisturbed.charge s c amount
  have accounts := AccountsKept.charge s c amount
  have unserved := State.charge_unserved (s := s) (c := c) (amount := amount)
  have served := fun i => State.charge_served (s := s) (c := c) (i := i) (amount := amount)
  have byServing := fun i => State.booking_served (s := s) (c := c) (i := i) (amount := amount)
  have byNone := State.booking_unserved (s := s) (c := c) (amount := amount)
  generalize s.booking c amount = b at undisturbed accounts unserved served byServing byNone ⊢
  have channels := s.book_channels c amount b
  have record := s.book_channel c c amount b
  rw [if_pos rfl] at record
  have others := fun d => s.book_channel c d amount b
  have slots := fun k => s.book_slot c k amount b
  have only := s.book_only c amount b
  have bookServed := fun i => State.book_served (s := s) (c := c) (i := i) (amount := amount) (b := b)
  have bookUnserved := State.book_unserved (s := s) (c := c) (amount := amount) (b := b)
  generalize s.book c amount b = v at *
  generalize s.charge c amount = u at undisturbed accounts unserved served ⊢
  obtain ⟨tests, tested⟩ := v.draw_tests c amount
  obtain ⟨state, serving, target, pair, settings⟩ := v.draw_channel c amount
  have drawSlots := v.draw_slots c amount
  have drawn := v.drawnFrom_eq c amount (drawFrom amount (v.channel c).reservations).2
    (drawFrom amount (v.channel c).reservations).1 rfl
  have draws := drawFrom_draws amount (v.channel c).reservations
  generalize drawFrom amount (v.channel c).reservations = taken at drawn draws
  generalize v.draw c amount = m at tests tested state serving target pair settings drawSlots unserved served
  generalize v.drawnFrom c amount = w at tests tested drawn
  rw [record] at state serving target pair settings draws
  have notices : v.notices = s.notices := by rw [only]
  refine ⟨fun i serves => ?_, fun idle => ?_, ?_, fun d other => ?_, fun k => ?_, fun k => ⟨?_, ?_⟩, ?_, ?_, ?_, ?_,
    v, w, m, taken.1, taken.2, only, channels, fun i serves => ?_, fun idle => ?_, undisturbed, accounts, draws,
    ?_, tests, unserved, ?_⟩
  · rw [byServing i serves]; exact ⟨rfl, rfl, rfl⟩
  · rw [byNone idle]; exact ⟨rfl, rfl, rfl⟩
  · rw [(undisturbed.channel c).volume, record]
    rfl
  · have kept := undisturbed.channel d
    rwa [others d, if_neg (Ne.symm other)] at kept
  · rw [accounts.uncommitted, slots]
    split
    · rfl
    · rfl
  · rw [accounts.committed, slots]
    split
    · rfl
    · rfl
  · rw [accounts.description, slots]
    split
    · rfl
    · rfl
  · rw [accounts.history, only]
  · rw [undisturbed.host, only]
  · rw [undisturbed.keys, only]
  · rw [undisturbed.tally, only]
  · rw [bookServed i serves]; rfl
  · rw [bookUnserved idle]; rfl
  · rintro ch rfl
    rw [drawn, record, notices]
    rfl
  · intro i serves inPair channel isServing holds
    have part : b.toSlot = min amount (s.slot i).remaining := by rw [byServing i serves]
    have takes : 0 < b.toSlot := by rw [part]; omega
    have own : m.slot i = { s.slot i with uncommitted := (s.slot i).uncommitted + b.toSlot } := by
      rw [State.slot, drawSlots]
      exact (slots i).trans (if_pos serves)
    have left : (m.slot i).remaining = (s.slot i).remaining - min amount (s.slot i).remaining := by
      rw [own, SlotRecord.remaining_charged, part]
    have charged : ServingCharged m ((m.slotCharged i).channelCharged c) c i := by
      refine State.slotCharged_servingCharged ?_ (serving.trans serves) ?_ ?_ ?_
      · rw [own]; exact channel
      · rw [Channel.pairSlots, pair]; exact inPair
      · rw [own]; exact isServing
      · rw [own]; exact Nat.lt_of_lt_of_le takes (Nat.le_add_left ..)
    rw [← served i serves takes] at charged
    obtain ⟨band, notice, step, spent, supplied, switching⟩ := charged
    have announced : Raises s.notices m.notices := by
      refine Raises.trans ?_ tested.notices
      rw [drawn, notices]
      dsimp only
      split
      · exact .raise _ .refl
      · exact .refl
    have sameBand : (m.slot i).band = (s.slot i).band := by rw [own]
    have sameState : (m.channel c).state = (s.channel c).state := state
    rw [settings] at band step
    rw [sameBand] at notice
    rw [sameState] at supplied switching
    rw [target] at switching
    refine ⟨band, notice, step, fun emptied => spent (by rw [left]; omega), fun more isSupplied => ?_,
      fun j more isSwitching isTarget => switching j (by rw [left]; omega) isSwitching isTarget⟩
    obtain ⟨stays, begins, completes⟩ := supplied (by rw [left]; omega) isSupplied
    exact ⟨stays, fun j due => ⟨begins j due, completes j due⟩⟩

/-- Settles O31: the refusals, the amount 0, and a charge of the amount taken. -/
theorem service_draw : Obligations.Service_draw := by
  unfold Obligations.Service_draw
  intro s tag f ready
  refine ⟨fun above => ?_, fun c named => ⟨fun idle => ?_, fun active => ⟨fun zero => ?_, fun positive => ?_⟩⟩⟩
  · refine exec_served ready ?_
    rw [serveServiceDraw, channelOf_eq_none above]
    rfl
  · refine exec_served ready ?_
    rw [serveServiceDraw, channelOf_of_val named]
    exact if_pos idle
  · refine exec_served ready ?_
    have nothing : s.beginRequest.booking c 0 = ⟨0, 0, 0⟩ := by
      cases serving : (s.beginRequest.channel c).serving with
      | none => exact State.booking_unserved serving
      | some i => rw [State.booking_served serving, Nat.zero_min, Nat.zero_sub]
    have taken : drawTaken 0 = 0 := rfl
    rw [serveServiceDraw, channelOf_of_val named]
    refine (if_neg active).trans ?_
    rw [zero]
    simp only [taken, nothing, if_true]
    rfl
  · have takes : 0 < min 100000000 f.amount := by omega
    have charged := State.charge_charged s.beginRequest c takes
    refine ⟨_, _, _, _, _, rfl, charged, exec_answered ready ?_ charged.host⟩
    have taken : drawTaken f.amount = min 100000000 f.amount := rfl
    rw [serveServiceDraw, channelOf_of_val named]
    refine (if_neg active).trans ?_
    simp only [taken, if_neg (Nat.ne_of_gt takes)]
    rfl

/-! ## The entry computation (R82 to R86) -/

theorem temperatureFactor_eq (e : TallyEntry) (settings : ChannelSettings) :
    (temperatureFactor e settings : Int) =
      if e.temperature = 255 then 32768
      else max 16384 (min 49152 (32768 + settings.beta * ((e.temperature : Int) - settings.referenceCode))) := by
  unfold temperatureFactor
  split
  · rfl
  · simp only [rawFactor, clampInt, Config.corrOne, Config.corrMin, Config.corrMax]
    omega

theorem factorClamped_iff (e : TallyEntry) (settings : ChannelSettings) :
    factorClamped e settings = true ↔ e.temperature ≠ 255 ∧
      (32768 + settings.beta * ((e.temperature : Int) - settings.referenceCode) < 16384 ∨
        49152 < 32768 + settings.beta * ((e.temperature : Int) - settings.referenceCode)) := by
  unfold factorClamped
  rw [Bool.and_eq_true, Bool.or_eq_true, decide_eq_true_iff, decide_eq_true_iff, decide_eq_true_iff]
  rfl

/-- An entry is the arithmetic of its channel, and a charge of what it comes to. -/
theorem State.takeEntryVolume_eq (s : State) (e : TallyEntry) {ch : Channel} (here : ch = s.channel e.channel) :
    s.takeEntryVolume e =
      if entryCharge e ch.settings ch.volume = 0 then
        s.withChannel e.channel { ch with volume := ch.volume.afterEntry e ch.settings }
      else (s.withChannel e.channel { ch with volume := ch.volume.afterEntry e ch.settings }).charge e.channel
        (entryCharge e ch.settings ch.volume) := by
  subst here
  rfl

/-- The ranges of R82 to R85. -/
theorem entry_bounds {small medium large weightSmall weightMedium weightLarge corr residue accumulator : Nat}
    (hs : small ≤ 65535) (hm : medium ≤ 65535) (hl : large ≤ 65535) (ws : weightSmall ≤ 65535)
    (wm : weightMedium ≤ 65535) (wl : weightLarge ≤ 65535) (hc : corr ≤ 49152) (hr : residue < 32768)
    (ha : accumulator < 1000000) :
    small * weightSmall + medium * weightMedium + large * weightLarge ≤ 12884508675 ∧
      (small * weightSmall + medium * weightMedium + large * weightLarge) * corr + residue ≤ 633299370426367 ∧
      ((small * weightSmall + medium * weightMedium + large * weightLarge) * corr + residue) / 32768 ≤ 19326763013 ∧
      (accumulator + ((small * weightSmall + medium * weightMedium + large * weightLarge) * corr + residue) / 32768) /
        1000000 ≤ 19327 := by
  have first := Nat.mul_le_mul hs ws
  have second := Nat.mul_le_mul hm wm
  have third := Nat.mul_le_mul hl wl
  have sum : small * weightSmall + medium * weightMedium + large * weightLarge ≤ 12884508675 := by omega
  have scaled := Nat.mul_le_mul sum hc
  refine ⟨sum, ?_, ?_, ?_⟩
  · omega
  · omega
  · omega

/-- Settles O48: the channel's arithmetic is that of the rule, and what it comes to is charged. -/
theorem entry_arithmetic : Obligations.Entry_arithmetic := by
  unfold Obligations.Entry_arithmetic
  intro s e ch S corr P q A here sum factor scaled quotient carry
  have factorHere : temperatureFactor e ch.settings = corr :=
    Int.ofNat.inj ((temperatureFactor_eq e ch.settings).trans factor.symm)
  have scaledHere : scaledVolume e ch.settings ch.volume.residue = P := by
    rw [scaledVolume, factorHere, dropSum, ← sum, scaled]
  have carriedHere : carried e ch.settings ch.volume = A := by
    rw [carried, scaledHere, carry, quotient]
    rfl
  have amount : entryCharge e ch.settings ch.volume = A / 1000000 := by
    rw [entryCharge, carriedHere]
    rfl
  have works := State.takeEntryVolume_eq s e here
  rw [amount] at works
  have volume : ch.volume.afterEntry e ch.settings = { ch.volume with
      residue := P % 32768
      accumulator := A % 1000000
      uncorrected := (ch.volume.afterEntry e ch.settings).uncorrected
      clamped := (ch.volume.afterEntry e ch.settings).clamped } := by
    rw [Volume.afterEntry, scaledHere, carriedHere]
    rfl
  generalize after : ch.volume.afterEntry e ch.settings = v at works volume
  have entered := s.withChannel_channel e.channel { ch with volume := v }
  have counts : ((s.takeEntryVolume e).channel e.channel).volume = { v with
      totalCharged := ((s.takeEntryVolume e).channel e.channel).volume.totalCharged
      chargedToSlots := ((s.takeEntryVolume e).channel e.channel).volume.chargedToSlots
      overdraw := ((s.takeEntryVolume e).channel e.channel).volume.overdraw
      unattributed := ((s.takeEntryVolume e).channel e.channel).volume.unattributed
      unreservedDraw := ((s.takeEntryVolume e).channel e.channel).volume.unreservedDraw
      windowSum := ((s.takeEntryVolume e).channel e.channel).volume.windowSum } ∧
      ((s.takeEntryVolume e).channel e.channel).volume.totalCharged =
        (if A / 1000000 = 0 then ch.volume.totalCharged
        else min 281474976710655 (ch.volume.totalCharged + A / 1000000)) := by
    rw [works]
    by_cases free : A / 1000000 = 0
    · rw [if_pos free, if_pos free, entered, volume]
      exact ⟨rfl, rfl⟩
    · have charged := State.charge_charged (s.withChannel e.channel { ch with volume := v }) e.channel
        (Nat.pos_of_ne_zero free)
      rw [if_neg free, if_neg free, charged.volume, entered]
      refine ⟨rfl, ?_⟩
      rw [volume]
  obtain ⟨kept, total⟩ := counts
  have uncorrected : ((s.takeEntryVolume e).channel e.channel).volume.uncorrected = v.uncorrected := by rw [kept]
  have clamped : ((s.takeEntryVolume e).channel e.channel).volume.clamped = v.clamped := by rw [kept]
  rw [uncorrected, clamped]
  have replaced : s.withChannel e.channel { ch with volume := v } =
      { s with channels := s.channels.set e.channel.val { ch with volume := { ch.volume with
        residue := P % 32768
        accumulator := A % 1000000
        uncorrected := v.uncorrected
        clamped := v.clamped } } e.channel.isLt } := by
    rw [← volume]
    rfl
  refine ⟨?_, ?_, total, fun free => ?_, fun positive => ?_, ?_, ?_, fun noDrops residue accumulator => ?_,
    fun hs hm hl ws wm wl residue accumulator => ?_⟩
  · rw [kept, volume]
  · rw [kept, volume]
  · rw [works, if_pos free, replaced]
  · have charged := State.charge_charged (s.withChannel e.channel { ch with volume := v }) e.channel positive
    have goes := works.trans (if_neg (Nat.ne_of_gt positive))
    rw [← goes] at charged
    exact ⟨_, _, _, _, replaced, charged⟩
  · rw [← after]
    rfl
  · rw [← after]
    show (if factorClamped e ch.settings = true then _ else _) = _
    simp only [factorClamped_iff]
    rfl
  · rw [noDrops, Nat.zero_mul, Nat.zero_add] at scaled
    omega
  · have corrBound : corr ≤ 49152 := by
      split at factor
      · omega
      · omega
    have bounds := entry_bounds hs hm hl ws wm wl corrBound residue accumulator
    rw [← sum, ← scaled, ← quotient, ← carry] at bounds
    exact bounds

end

end Sys2Proof.Machine

/-! PROOF. The ends of the scan pause, a flow window and a wait timer (O55). -/

namespace Sys2Proof.Machine

section
variable {s : State} {c : ChannelId}

/-! ## The scan pause (R155, R156) -/

/-- A pass begun with the list and the pause in force, those of a pending SCAN_SET taken up before. -/
theorem State.passBegun_eq {list : List Source} {pause : Nat}
    (h : s.sense.pendingScan = none ∧ list = s.sense.list ∧ pause = s.sense.pause ∨
      s.sense.pendingScan = some ⟨list, pause⟩) :
    s.takeUpScan.beginPass = { s with sense := { s.sense with
      list := list
      pause := pause
      pendingScan := none
      scan := if list = [] then .pausing else .running
      pauseTimer := none
      position := 0
      passConverted := false } } := by
  have taken : s.takeUpScan = { s with sense := { s.sense with
      list := list
      pause := pause
      pendingScan := none } } := by
    rcases h with ⟨pending, rfl, rfl⟩ | pending
    · simp only [State.takeUpScan, pending]
      rw [← pending]
    · rw [State.takeUpScan, pending]
      rfl
  rw [taken, State.beginPass, State.updSense]
  cases list with
  | nil => rfl
  | cons x rest => rfl

/-! ## A flow window (R96 to R98) -/

theorem flowExceeds_iff (flow ceiling : Nat) :
    flowExceeds flow ceiling = true ↔ ceiling ≠ 0 ∧ ceiling < flow := by
  unfold flowExceeds
  rw [Bool.and_eq_true, decide_eq_true_iff, decide_eq_true_iff]

theorem State.ceilingTest_eq {length flow ceiling : Nat} {exceeds : Bool}
    (hflow : (s.channel c).volume.lastWindowFlow = flow) (hceiling : (s.channel c).settings.flowCeiling = ceiling)
    (h : flowExceeds flow ceiling = exceeds) :
    s.ceilingTest c length =
      if exceeds = true ∧ (s.channel c).flowExcess = false then
        (s.withChannel c { s.channel c with flowExcess := exceeds }).raise (.flowExcess c flow ceiling length)
      else s.withChannel c { s.channel c with flowExcess := exceeds } := by
  subst hflow hceiling h
  rfl

/-! ## A wait timer (R145) -/

/-- Two searches of one list: an element that one finds and the other admits is found by both. -/
theorem find_eq_of_find {α : Type} {p q : α → Bool} {a b : α} {l : List α} (ha : l.find? p = some a)
    (hb : l.find? q = some b) (qa : q a = true) (pb : p b = true) : a = b := by
  induction l with
  | nil => cases ha
  | cons x rest ih =>
    rw [List.find?_cons] at ha hb
    cases px : p x with
    | true =>
      rw [px] at ha
      obtain rfl : x = a := Option.some.inj ha
      rw [qa] at hb
      exact Option.some.inj hb
    | false =>
      cases qx : q x with
      | true =>
        rw [qx] at hb
        obtain rfl : x = b := Option.some.inj hb
        rw [px] at pb
        cases pb
      | false =>
        rw [px] at ha
        rw [qx] at hb
        exact ih ha hb

theorem isGranted_false_iff (r : Reservation) : r.isGranted = false ↔ r.wait ≠ none := by
  rw [← Bool.not_eq_true, isGranted_iff]

/-- The reservation found by its id is the head of the waiting ones exactly when that head has its id. -/
theorem Channel.waitingHead_iff {ch : Channel} {id : Nat} {r : Reservation}
    (found : ch.findReservation id = some r) (waits : r.wait ≠ none) :
    (ch.waiting.head?.map fun h => h.id) = some r.id ↔ ch.waiting.head? = some r := by
  constructor
  · intro head
    obtain ⟨h, isHead, sameId⟩ := Option.map_eq_some_iff.1 head
    have first : ch.reservations.find? (fun x => !x.isGranted) = some h := by rw [← List.head?_filter]; exact isHead
    have ids : r.id = id := of_decide_eq_true (List.find?_some (p := fun x : Reservation => decide (x.id = id)) found)
    have one : r = h := find_eq_of_find found first (by rw [(isGranted_false_iff r).2 waits]; rfl)
      (decide_eq_true (sameId.trans ids))
    rw [one]
    exact isHead
  · intro head
    rw [head]
    rfl

/-- Settles O55: the three timers, with what each does when it does not run. -/
theorem timers_expire : Obligations.Timers_expire := by
  unfold Obligations.Timers_expire
  intro s
  refine ⟨fun stopped => ?_, fun n list pause pausing timer inForce => ?_, fun c => ⟨fun idle => ?_,
    fun active v flow exceeds u hv hflow hexceeds hu => ?_, fun id granted => ?_, fun id r found waits => ?_⟩⟩
  · refine congrArg Host.Outcome.next (if_neg ?_)
    rintro ⟨pausing, runs⟩
    rcases stopped with other | noTimer
    · exact other pausing
    · rw [noTimer] at runs
      cases runs
  · refine congrArg Host.Outcome.next ((if_pos ⟨pausing, by rw [timer]; rfl⟩).trans ?_)
    exact congrArg State.settle (State.passBegun_eq inForce)
  · exact congrArg Host.Outcome.next (if_pos idle)
  · refine congrArg Host.Outcome.next ((if_neg active).trans ?_)
    have excess : flowExceeds flow (s.channel c).settings.flowCeiling = exceeds := by
      rw [Bool.eq_iff_iff, flowExceeds_iff, hexceeds]
    have closed := s.updVolume_channel_same c fun w => w.closeWindow (s.channel c).settings.flowWindow
    rw [State.windowExpired, State.ceilingTest_eq (flow := flow) (ceiling := (s.channel c).settings.flowCeiling)
      (exceeds := exceeds) (by rw [closed, hflow, hv]; rfl) (by rw [closed]) excess, closed]
    have record : (s.updVolume c fun w => w.closeWindow (s.channel c).settings.flowWindow).withChannel c
        { s.channel c with
          flowExcess := exceeds
          volume := (s.channel c).volume.closeWindow (s.channel c).settings.flowWindow } = u := by
      rw [show (s.updVolume c fun w => w.closeWindow (s.channel c).settings.flowWindow) =
        s.withChannel c { s.channel c with
          volume := (s.channel c).volume.closeWindow (s.channel c).settings.flowWindow } from rfl,
        State.withChannel_withChannel, hu, hflow, hv]
      rfl
    rw [record, ← hv]
  · have quiet : execWaitTimerExpiry c id s = .next s := by
      unfold execWaitTimerExpiry
      cases found : (s.channel c).findReservation id with
      | none => rfl
      | some r => exact congrArg Host.Outcome.next (if_pos ((isGranted_iff r).2 (granted r found)))
    exact quiet
  · have ids : r.id = id := of_decide_eq_true (List.find?_some (p := fun x : Reservation => decide (x.id = id)) found)
    have waiting : ¬r.isGranted = true := fun granted => waits ((isGranted_iff r).1 granted)
    refine ⟨s.waitExpired c r, decide (((s.channel c).waiting.head?.map fun h => h.id) = some r.id), ?_, ?_, ?_, ?_⟩
    · show execWaitTimerExpiry c id s = _
      have found' : (s.channel c).findReservation id = some r := found
      unfold execWaitTimerExpiry
      rw [found']
      exact congrArg Host.Outcome.next (if_neg waiting)
    · exact (((Undisturbed.refl s).leaveList c r.id).raise _).afterLeaving c
    · rw [decide_eq_true_iff]
      exact Channel.waitingHead_iff found waits
    · have leaves := State.afterLeaving_spec (s.raise (.reservationExpired c r.id r.size
        (decide (((s.channel c).waiting.head?.map fun h => h.id) = some r.id)) (s.channel c).stall)) c
        ((s.channel c).reservations.filter fun x => x.id ≠ r.id)
      rw [ids] at leaves
      rw [State.waitExpired, ids]
      exact leaves

end

end Sys2Proof.Machine

/-! PROOF. How a reply frame on a lane is read (O49). -/

namespace Sys2Proof.Machine

section
variable {e : LaneEntry} {frame data : List Byte} {kind : Byte}

/-! ## Numbers of several bytes, high byte first -/

theorem toNat_append_byte {w : Nat} (x : BitVec w) (b : Byte) : (x ++ b).toNat = x.toNat * 256 + b.toNat := by
  rw [BitVec.toNat_append, ← Nat.shiftLeft_add_eq_or_of_lt b.isLt, Nat.shiftLeft_eq]

theorem natOf_four (b3 b2 b1 b0 : Byte) : natOf [b3, b2, b1, b0] = (b3 ++ b2 ++ b1 ++ b0).toNat := by
  simp [natOf, toNat_append_byte]

theorem ofNat_natOf_two (b1 b0 : Byte) : BitVec.ofNat 16 (natOf [b1, b0]) = b1 ++ b0 := by
  rw [natOf_two, ← toNat_append_byte]
  exact BitVec.ofNat_toNat 16 (b1 ++ b0)

theorem ofNat_natOf_eight (b7 b6 b5 b4 b3 b2 b1 b0 : Byte) :
    BitVec.ofNat 64 (natOf [b7, b6, b5, b4, b3, b2, b1, b0]) = b7 ++ b6 ++ b5 ++ b4 ++ b3 ++ b2 ++ b1 ++ b0 := by
  have number : natOf [b7, b6, b5, b4, b3, b2, b1, b0] = (b7 ++ b6 ++ b5 ++ b4 ++ b3 ++ b2 ++ b1 ++ b0).toNat := by
    simp [natOf, toNat_append_byte]
  rw [number]
  exact BitVec.ofNat_toNat 64 (b7 ++ b6 ++ b5 ++ b4 ++ b3 ++ b2 ++ b1 ++ b0)

/-! ## The frame (Table 11-9) -/

theorem readTagFrame_frame {address command kind check : Byte} (fits : data.length ≤ 255) :
    readTagFrame ([address, command, kind, BitVec.ofNat 8 data.length] ++ data ++ [check]) =
      if check = crc8 ([address, command, kind, BitVec.ofNat 8 data.length] ++ data) then
        some ⟨address.toNat, command, kind, data⟩
      else none := by
  have count : (BitVec.ofNat 8 data.length : Byte).toNat = data.length := by
    rw [BitVec.toNat_ofNat]
    omega
  have bytes : [address, command, kind, BitVec.ofNat 8 data.length] ++ data ++ [check] =
      address :: command :: kind :: BitVec.ofNat 8 data.length :: (data ++ [check]) := rfl
  rw [bytes, readTagFrame, count, List.take_left, List.drop_left, if_pos (by simp)]
  simp only [List.cons.injEq, and_true]
  rfl

/-! ## The frame against its entry (Table 2-2) -/

theorem readReply_unread (h : readTagFrame frame = none) : readReply e frame = .failedAttempt := by
  rw [readReply, h]

/-- A frame of another slot or another command. -/
theorem readReply_other {f : TagFrame} (reads : readTagFrame frame = some f)
    (other : f.address ≠ laneAddress e.slot ∨ f.command ≠ e.command.code) : readReply e frame = .failedAttempt := by
  rw [readReply, reads]
  exact if_pos other

section
variable (reads : readTagFrame frame = some ⟨laneAddress e.slot, e.command.code, kind, data⟩)
include reads

theorem readReply_data (h : kind = 0) : readReply e frame = readData e.command data := by
  rw [readReply, reads, h]
  simp

theorem readReply_ack (h : kind = 1) (empty : data = []) : readReply e frame = readAck e.command := by
  rw [readReply, reads, h, empty]
  simp

theorem readReply_busy (h : kind = 2) (empty : data = []) : readReply e frame = .busy := by
  rw [readReply, reads, h, empty]
  simp

theorem readReply_error {code : Byte} (h : kind = 3) (one : data = [code]) : readReply e frame = .error code := by
  rw [readReply, reads, h, one]
  simp

theorem readReply_refused (h : kind = 4) (empty : data = []) : readReply e frame = readRefused e.command := by
  rw [readReply, reads, h, empty]
  simp

/-- No such kind, or data where the kind has none, or none where it has a code. -/
theorem readReply_misfit (h : 4 < kind.toNat ∨ 1 ≤ kind.toNat ∧ data.length ≠ (if kind = 3 then 1 else 0)) :
    readReply e frame = .failedAttempt := by
  have three : kind = 3 ↔ kind.toNat = 3 := by rw [← BitVec.toNat_inj]; rfl
  simp only [three] at h
  rw [readReply, reads]
  dsimp only
  rw [if_neg (by simp)]
  split
  · omega
  · next k => rw [k] at h; simp at h
  · next k => rw [k] at h; simp at h
  · next k => rw [k] at h; simp at h
  · next k => rw [k] at h; simp at h
  · rfl

end

/-! ## The data of a reply -/

theorem readData_eight {command : TagCommand}
    (h : (∃ nonce, command = .challenge nonce) ∨ ∃ v g n, command = .odoAdvance v g n) :
    readData command data =
      if data.length = 8 then .usable (.answer (BitVec.ofNat 64 (natOf data))) else .failedAttempt := by
  rcases h with ⟨nonce, rfl⟩ | ⟨v, g, n, rfl⟩
  · rfl
  · rfl

theorem readData_describe (h : data.length ≠ 22) : readData .describe data = .failedAttempt := by
  rw [readData, readDescription, if_neg h]

/-- A description's fields in their order, with a tag state that there is. -/
theorem readDescription_bytes
    {s7 s6 s5 s4 s3 s2 s1 s0 ink f3 f2 f1 f0 generation state mark o3 o2 o1 o0 l1 l0 : Byte} {tag : TagState}
    (h : state = 0 ∧ tag = .fresh ∨ state = 1 ∧ tag = .inUse ∨ state = 2 ∧ tag = .spent) :
    readDescription [s7, s6, s5, s4, s3, s2, s1, s0, ink, f3, f2, f1, f0, generation, state, mark, o3, o2, o1, o0,
      l1, l0] = some
        { serial := s7 ++ s6 ++ s5 ++ s4 ++ s3 ++ s2 ++ s1 ++ s0
          inkCode := ink.toNat
          nominalFill := (f3 ++ f2 ++ f1 ++ f0).toNat
          fillGeneration := generation.toNat
          tagState := tag
          refillMark := decide (mark ≠ 0)
          odometerAtRead := (o3 ++ o2 ++ o1 ++ o0).toNat
          makerLot := l1 ++ l0 } := by
  have marked : (mark.toNat = 0) = (mark = 0) := by rw [← BitVec.toNat_inj]; rfl
  rcases h with ⟨rfl, rfl⟩ | ⟨rfl, rfl⟩ | ⟨rfl, rfl⟩
  · simp [readDescription, natOf_one, natOf_four, ofNat_natOf_two, ofNat_natOf_eight, marked]
  · simp [readDescription, natOf_one, natOf_four, ofNat_natOf_two, ofNat_natOf_eight, marked]
  · simp [readDescription, natOf_one, natOf_four, ofNat_natOf_two, ofNat_natOf_eight, marked]

theorem readDescription_state
    {s7 s6 s5 s4 s3 s2 s1 s0 ink f3 f2 f1 f0 generation state mark o3 o2 o1 o0 l1 l0 : Byte} (h : 2 < state.toNat) :
    readDescription [s7, s6, s5, s4, s3, s2, s1, s0, ink, f3, f2, f1, f0, generation, state, mark, o3, o2, o1, o0,
      l1, l0] = none := by
  have field : natOf [state] = state.toNat := natOf_one state
  have length : [s7, s6, s5, s4, s3, s2, s1, s0, ink, f3, f2, f1, f0, generation, state, mark, o3, o2, o1, o0, l1,
      l0].length = 22 := rfl
  rw [readDescription, if_pos length]
  simp only [List.drop, List.take, field]
  split
  · omega
  · omega
  · omega
  · rfl

/-- Settles O49: the frame's fields, then each kind of reply against the entry's command. -/
theorem reply_frames_are_read : Obligations.Reply_frames_are_read := by
  unfold Obligations.Reply_frames_are_read
  intro e address command kind check data head frame fits hhead hframe
  have reads := readTagFrame_frame (address := address) (command := command) (kind := kind) (check := check) fits
  rw [← hhead, ← hframe] at reads
  refine ⟨by cases e.command <;> rfl, fun wrong => readReply_unread (reads.trans (if_neg wrong)), fun right => ?_⟩
  replace reads := reads.trans (if_pos right)
  refine ⟨reads, fun other => readReply_other reads other, ?_⟩
  rintro (own : _ = laneAddress e.slot) rfl
  rw [own] at reads
  refine ⟨readReply_misfit reads, readReply_busy reads, fun code => readReply_error reads, fun ack empty => ?_,
    fun refuses empty => ?_, fun isData => ?_⟩
  · have read := readReply_ack reads ack empty
    refine ⟨?_, fun noMark noWrite => ?_⟩
    · rintro (⟨m, marks⟩ | ⟨place, bytes, writes⟩)
      · rw [read, marks]; rfl
      · rw [read, writes]; rfl
    · rw [read, readAck]
      · exact noMark
      · exact noWrite
  · have read := readReply_refused reads refuses empty
    refine ⟨?_, fun noAdvance => ?_⟩
    · rintro ⟨v, g, n, advances⟩
      rw [read, advances]; rfl
    · rw [read, readRefused]
      exact noAdvance
  · have read := readReply_data reads isData
    refine ⟨fun place n reading => ?_, ?_, fun answers => ?_, fun describes => ?_⟩
    · rw [read, reading]
      exact ⟨fun all => if_pos all, fun short => if_neg short⟩
    · rintro (⟨m, marks⟩ | ⟨place, bytes, writes⟩)
      · rw [read, marks]; rfl
      · rw [read, writes]; rfl
    · rw [read, readData_eight answers]
      refine ⟨fun b7 b6 b5 b4 b3 b2 b1 b0 bytes => ?_, fun short => if_neg short⟩
      rw [bytes, ofNat_natOf_eight]
      rfl
    · rw [read, describes]
      refine ⟨fun short => readData_describe short, ?_⟩
      rintro s7 s6 s5 s4 s3 s2 s1 s0 ink f3 f2 f1 f0 generation state mark o3 o2 o1 o0 l1 l0 rfl
      refine ⟨fun unknown => ?_, fun tag known => ?_⟩
      · rw [readData, readDescription_state unknown]
      · rw [readData, readDescription_bytes known]

end

end Sys2Proof.Machine

/-! PROOF. How a tag transaction's reply is handed over, and the checks of a description (O50). -/

namespace Sys2Proof.Machine

section
variable {s t u : State} {l : LaneId} {x : Transaction} {frame : List Byte} {i : SlotId}

/-! ## Replies and their end -/

theorem State.transactionIn_eq (onWire : (s.lane l).state = .onWire x) : s.transactionIn l x.phase = some x := by
  rw [State.transactionIn, onWire]
  exact if_pos rfl

theorem exec_laneReply (onWire : (s.lane l).state = .onWire x) (waits : x.phase = .replyWait) :
    exec (.laneReply l frame) s = .next (s.actReply l x (readReply x.entry frame)).settle := by
  have here := State.transactionIn_eq onWire
  rw [waits] at here
  show execLaneReply l frame s = _
  rw [execLaneReply, here]

theorem State.transactionDone_handed {reply : UsableReply} (handsOver : x.abandoned = false)
    (noAnswer : ∀ w, reply ≠ .answer w) :
    s.transactionDone l x reply = (s.handReply x.entry reply).laneFree l := by
  rw [State.transactionDone, if_neg (by rw [handsOver]; exact Bool.noConfusion)]
  exact noAnswer

/-- A lane that becomes free does the lane's work. -/
theorem State.laneFree_work (s : State) (l : LaneId) : LaneWork s (s.laneFree l) l :=
  (LaneWork.updLane s l _).trans (State.takeEntry_work _ l)

/-! ## The record of one slot -/

/-- Of the Slot Records and the channels only the record of slot `i` has changed, to `r`. -/
structure RecordBecomes (s t : State) (i : SlotId) (r : SlotRecord) : Prop where
  own : t.slot i = r
  others : ∀ j, j ≠ i → t.slot j = s.slot j
  channels : t.channels = s.channels

theorem RecordBecomes.refl (s : State) (i : SlotId) : RecordBecomes s s i (s.slot i) := ⟨rfl, fun _ _ => rfl, rfl⟩

theorem RecordBecomes.records {r : SlotRecord} (h : RecordBecomes s t i r) (kept : RecordsKept t u) :
    RecordBecomes s u i r where
  own := (kept.slot i).trans h.own
  others j other := (kept.slot j).trans (h.others j other)
  channels := kept.channels.trans h.channels

theorem RecordBecomes.updSlot {r : SlotRecord} (h : RecordBecomes s t i r) (f : SlotRecord → SlotRecord) :
    RecordBecomes s (t.updSlot i f) i (f r) where
  own := by rw [State.updSlot_slot_same, h.own]
  others j other := by rw [State.updSlot_slot_other _ _ _ _ (Ne.symm other), h.others j other]
  channels := h.channels

theorem RecordBecomes.moveSlot {r : SlotRecord} (h : RecordBecomes s t i r) (f : SlotRecord → SlotRecord) :
    RecordBecomes s (t.moveSlot i f) i (f r) :=
  (h.updSlot f).records (.raise (.refl _) _)

theorem RecordBecomes.rejectSlot {r : SlotRecord} (h : RecordBecomes s t i r) (why : RejectReason) :
    RecordBecomes s (t.rejectSlot i why) i { r with
      state := .rejected
      rejectReason := some why } :=
  (h.moveSlot _).records (.withdrawCommit (.refl _) i)

theorem RecordBecomes.faultSlot {r : SlotRecord} (h : RecordBecomes s t i r) (why : FaultReason) :
    RecordBecomes s (t.faultSlot i why) i { r with
      state := .faulted
      faultReason := some why } :=
  (h.moveSlot _).records (.withdrawCommit (.refl _) i)

/-! ## The checks of a description (Table 1-7) -/

theorem Description.badIdentity_iff (d : Description) :
    d.badIdentity = true ↔ d.inkCode = 0 ∨ d.inkCode = 255 ∨ d.nominalFill < 1000000 ∨ 2000000000 < d.nominalFill ∨
      2000000000 < d.odometerAtRead := by
  unfold Description.badIdentity
  rw [Bool.or_eq_true, Bool.or_eq_true, Bool.or_eq_true, Bool.or_eq_true, decide_eq_true_iff, decide_eq_true_iff,
    decide_eq_true_iff, decide_eq_true_iff, decide_eq_true_iff, or_assoc, or_assoc, or_assoc]
  rfl

theorem State.serialElsewhere_iff (s : State) (i : SlotId) (serial : Word64) :
    s.serialElsewhere i serial = true ↔ ∃ j, j ≠ i ∧ (s.slot j).state ≠ .vacant ∧
      ∃ d, (s.slot j).description = some d ∧ d.serial = serial := by
  unfold State.serialElsewhere
  simp only [List.any_eq_true, List.mem_finRange, true_and, Bool.and_eq_true, decide_eq_true_iff,
    SlotRecord.seats_iff]

theorem State.wrongInk_iff (s : State) (i : SlotId) (inkCode : Nat) :
    s.wrongInk i inkCode = true ↔
      ∃ c, (s.slot i).channel = some c ∧ inkCode ≠ (s.channel c).settings.inkCode := by
  unfold State.wrongInk
  cases channel : (s.slot i).channel with
  | none => simp
  | some c => simp

theorem State.barredSerial_iff (s : State) (serial : Word64) :
    s.barredSerial serial = true ↔ ∃ p e, s.findEntry serial = some p ∧ s.place p = some e ∧ e.barred = true := by
  unfold State.barredSerial
  cases found : s.findEntry serial with
  | none => simp
  | some p =>
    cases here : s.place p with
    | none => simp [here]
    | some e => simp [here]

/-- A slot's own description does not enter its checks. -/
theorem State.describeCheck_stored (s : State) (i : SlotId) (d : Description) :
    (s.updSlot i fun r => { r with description := some d }).describeCheck i d = s.describeCheck i d := by
  generalize stores : (s.updSlot i fun r => { r with description := some d }) = v
  have elsewhere : v.serialElsewhere i d.serial = s.serialElsewhere i d.serial := by
    have others : ∀ j, j ≠ i → v.slot j = s.slot j := fun j other => by
      rw [← stores, State.updSlot_slot_other _ _ _ _ (Ne.symm other)]
    rw [Bool.eq_iff_iff, State.serialElsewhere_iff, State.serialElsewhere_iff]
    refine exists_congr fun j => and_congr_right fun other => ?_
    rw [others j other]
  have ink : v.wrongInk i d.inkCode = s.wrongInk i d.inkCode := by
    have channel : (v.slot i).channel = (s.slot i).channel := by rw [← stores, State.updSlot_slot_same]
    have same : ∀ c, v.channel c = s.channel c := fun c => by rw [← stores]; rfl
    rw [Bool.eq_iff_iff, State.wrongInk_iff, State.wrongInk_iff, channel]
    exact exists_congr fun c => by rw [same]
  have barred : v.barredSerial d.serial = s.barredSerial d.serial := by rw [← stores]; rfl
  rw [State.describeCheck, elsewhere, ink, barred]
  rfl

/-- R15, R60: the record that a description leaves. -/
theorem State.describeReply_record {d : Description} (reading : (s.slot i).state = .reading) :
    ∃ r : SlotRecord, RecordBecomes s (s.describeReply i d) i r ∧ r.description = some d ∧
      (∀ why, s.describeCheck i d = some why → r.state = .rejected ∧ r.rejectReason = some why) ∧
      (s.describeCheck i d = none →
        (∀ root, s.keys.state = .provisioned root →
          r.state = .verifying ∧ (s.describeReply i d).nonceDraws = s.nonceDraws + 1) ∧
        ((∀ root, s.keys.state ≠ .provisioned root) →
          r.state = .rejected ∧ r.rejectReason = some .authUnavailable)) := by
  have stored := (RecordBecomes.refl s i).updSlot fun r => { r with description := some d }
  have check := s.describeCheck_stored i d
  unfold State.describeReply
  rw [if_pos reading]
  dsimp only
  generalize stores : (s.updSlot i fun r => { r with description := some d }) = v at stored check ⊢
  rw [check]
  cases outcome : s.describeCheck i d with
  | some why =>
    refine ⟨_, stored.rejectSlot why, rfl, fun y same => ⟨rfl, ?_⟩, nofun⟩
    exact same
  | none =>
    dsimp only
    have moved := stored.moveSlot fun r => { r with state := .verifying }
    generalize moves : (v.moveSlot i fun r => { r with state := .verifying }) = w at moved ⊢
    have keys : w.keys = s.keys := by rw [← moves, ← stores]; rfl
    unfold State.requestChallenge
    rw [keys]
    cases key : s.keys.state with
    | provisioned root =>
      refine ⟨_, moved.records (.enqueue (.nonceDrawn (.refl w)) _), rfl, nofun,
        fun _ => ⟨fun _ _ => ⟨rfl, ?_⟩, fun noRoot => (noRoot root rfl).elim⟩⟩
      dsimp only
      rw [(State.enqueue_work w.nonceDrawn ⟨i, .challenge w.nextNonce, none⟩).only, ← moves, ← stores]
      rfl
    | unprovisioned =>
      exact ⟨_, moved.rejectSlot .authUnavailable, rfl, nofun, fun _ => ⟨nofun, fun _ => ⟨rfl, rfl⟩⟩⟩
    | damaged =>
      exact ⟨_, moved.rejectSlot .authUnavailable, rfl, nofun, fun _ => ⟨nofun, fun _ => ⟨rfl, rfl⟩⟩⟩

/-- Settles O50: the first check that fails, in the order of Table 1-7, and with none the request for a nonce. -/
theorem description_is_checked : Obligations.Description_is_checked := by
  unfold Obligations.Description_is_checked
  intro s l x frame d i identity elsewhere ink barred onWire waits handsOver describes own reads reading hidentity
    helsewhere hink hbarred
  rw [← Description.badIdentity_iff] at hidentity
  rw [← State.serialElsewhere_iff] at helsewhere
  rw [← State.wrongInk_iff] at hink
  rw [← State.barredSerial_iff] at hbarred
  subst own
  obtain ⟨r, becomes, stored, rejected, passed⟩ := State.describeReply_record (d := d) reading
  have acts : s.actReply l x (readReply x.entry frame) = (s.describeReply x.entry.slot d).laneFree l := by
    have hands : s.handReply x.entry (.description d) = s.describeReply x.entry.slot d := by
      unfold State.handReply
      rw [describes]
    rw [reads, ← hands]
    exact State.transactionDone_handed (reply := .description d) handsOver fun _ answer => (nomatch answer)
  have runs := exec_laneReply (frame := frame) onWire waits
  rw [acts] at runs
  have freed := becomes.records (.laneFree (.refl _) l)
  have nonces : ((s.describeReply x.entry.slot d).laneFree l).nonceDraws = (s.describeReply x.entry.slot d).nonceDraws := by
    rw [(State.laneFree_work _ l).only]
  refine ⟨_, runs, (((Undisturbed.refl s).describeReply _ d).laneFree l).settle, ?_, fun j other => ?_, ?_,
    fun fails => ?_, fun sound alone fails => ?_, fun sound alone fits fails => ?_,
    fun sound alone fits admitted => ?_⟩
  · rw [State.settle_slot, freed.own, stored]
  · rw [State.settle_slot, freed.others j other]
  · rw [State.settle_channels, freed.channels]
  · rw [State.settle_slot, freed.own]
    refine rejected _ ?_
    rw [State.describeCheck]
    by_cases unsound : d.badIdentity = true
    · rw [if_pos unsound]
    · rw [if_neg unsound, if_pos (helsewhere.1 (fails.resolve_left fun h => unsound (hidentity.1 h)))]
  · rw [State.settle_slot, freed.own]
    refine rejected _ ?_
    rw [State.describeCheck, if_neg fun h => sound (hidentity.2 h), if_neg fun h => alone (helsewhere.2 h),
      if_pos (hink.1 fails)]
  · rw [State.settle_slot, freed.own]
    refine rejected _ ?_
    rw [State.describeCheck, if_neg fun h => sound (hidentity.2 h), if_neg fun h => alone (helsewhere.2 h),
      if_neg fun h => fits (hink.2 h), if_pos (hbarred.1 fails)]
  · rw [State.settle_slot, freed.own, State.settle_nonceDraws, nonces]
    refine passed ?_
    rw [State.describeCheck, if_neg fun h => sound (hidentity.2 h), if_neg fun h => alone (helsewhere.2 h),
      if_neg fun h => fits (hink.2 h), if_neg fun h => admitted (hbarred.2 h)]

end

end Sys2Proof.Machine

/-! PROOF. What the handing over of a job's result leaves to the lanes and the Digest Engine, and the job that starts next
(`NextJob`). -/

namespace Sys2Proof.Machine

section
variable {s t u : State} {i j : SlotId} {l : LaneId} {left : SlotId → Prop}

/-! ## What a lane takes of its queue -/

theorem State.startTransaction_queue (s : State) (l : LaneId) (e : LaneEntry) :
    ((s.startTransaction l e).lane l).queue = (s.lane l).queue := by
  rw [(State.startTransaction_spec s l e).1]

/-- What stands in a lane's queue after it has taken entries stood there before. -/
theorem State.takeEntryN_queue (n : Nat) (s : State) (l : LaneId) :
    ∀ e ∈ ((State.takeEntryN n s l).lane l).queue, e ∈ (s.lane l).queue := by
  induction n generalizing s with
  | zero => exact fun _ h => h
  | succ n ih =>
    intro e member
    unfold State.takeEntryN at member
    split at member
    case isTrue =>
      rw [State.updLane_lane_same, Lane.takeUp_queue] at member
      exact member
    case isFalse =>
      split at member
      case h_1 => exact member
      case h_2 c _ =>
        dsimp only at member
        split at member
        case isTrue =>
          have rest := ih _ e member
          unfold State.passDone at rest
          split at rest
          · rw [State.raise_lane, State.updLane_lane_same] at rest
            exact List.mem_of_mem_eraseP rest
          · rw [State.updLane_lane_same] at rest
            exact List.mem_of_mem_eraseP rest
        case isFalse =>
          rw [State.startTransaction_queue, State.updLane_lane_same] at member
          exact List.mem_of_mem_eraseP member

theorem State.takeEntry_queue (s : State) (l : LaneId) :
    ∀ e ∈ ((s.takeEntry l).lane l).queue, e ∈ (s.lane l).queue := State.takeEntryN_queue _ s l

/-- A lane that is not HELD is not after it has taken entries. -/
theorem State.takeEntryN_notHeld (n : Nat) (s : State) (l : LaneId) (h : ∀ j, (s.lane l).state ≠ .held j) :
    ∀ j, ((State.takeEntryN n s l).lane l).state ≠ .held j := by
  induction n generalizing s with
  | zero => exact h
  | succ n ih =>
    unfold State.takeEntryN
    split
    case isTrue =>
      rw [State.updLane_lane_same, Lane.takeUp_state]
      exact h
    case isFalse =>
      split
      case h_1 => exact h
      case h_2 c _ =>
        dsimp only
        split
        case isTrue =>
          refine ih _ ?_
          unfold State.passDone
          split
          · rw [State.raise_lane, State.updLane_lane_same]
            exact h
          · rw [State.updLane_lane_same]
            exact h
        case isFalse =>
          rw [(State.startTransaction_spec _ l c.entry).1]
          exact fun _ => nofun

theorem State.laneFree_notHeld (s : State) (l : LaneId) : ∀ j, ((s.laneFree l).lane l).state ≠ .held j := by
  refine State.takeEntryN_notHeld _ _ l ?_
  rw [State.updLane_lane_same]
  exact fun _ => nofun

theorem State.laneFree_queue (s : State) (l : LaneId) : ∀ e ∈ ((s.laneFree l).lane l).queue, e ∈ (s.lane l).queue := by
  intro e member
  have before := State.takeEntry_queue _ l e member
  rw [State.updLane_lane_same] at before
  exact before

/-- A slot with no COMMIT entry in the queue keeps its commit state. -/
theorem State.takeEntryN_commit (n : Nat) (s : State) (l : LaneId) {k : SlotId}
    (h : ∀ e ∈ (s.lane l).queue, e.slot = k → e.laneClass ≠ .commit) :
    (State.takeEntryN n s l).commit k = s.commit k := by
  induction n generalizing s with
  | zero => rfl
  | succ n ih =>
    unfold State.takeEntryN
    split
    case isTrue => rfl
    case isFalse =>
      split
      case h_1 => rfl
      case h_2 c chosen =>
        dsimp only
        have own := State.chooseEntry_mem chosen
        split
        case isTrue =>
          have lane : ∀ v : State, v.lane l = (s.updLane l fun lane =>
              { lane with
                queue := lane.queue.eraseP fun e => e.laneClass = c.entry.laneClass
                wheel := c.wheel
                inUse := c.inUse }).lane l →
              ∀ e ∈ (v.lane l).queue, e.slot = k → e.laneClass ≠ .commit := fun v same e member => by
            rw [same, State.updLane_lane_same] at member
            exact h e (List.mem_of_mem_eraseP member)
          rw [ih]
          · unfold State.passDone
            split
            · rfl
            · rfl
          · refine lane _ ?_
            unfold State.passDone
            split
            · rfl
            · rfl
        case isFalse =>
          have commits := (State.startTransaction_spec (s.updLane l fun lane =>
              { lane with
                queue := lane.queue.eraseP fun e => e.laneClass = c.entry.laneClass
                wheel := c.wheel
                inUse := c.inUse }) l c.entry).2.2.2.2
          rw [State.commit, commits]
          split
          case isTrue commit =>
            have other : c.entry.slot.val ≠ k.val := fun same => h c.entry own (Fin.ext same) commit
            exact Vector.getElem_set_ne _ _ other
          case isFalse => rfl

theorem State.laneFree_commit (s : State) (l : LaneId) {k : SlotId}
    (h : ∀ e ∈ (s.lane l).queue, e.slot = k → e.laneClass ≠ .commit) : (s.laneFree l).commit k = s.commit k := by
  refine State.takeEntryN_commit _ _ l ?_
  rw [State.updLane_lane_same]
  exact h

/-! ## Jobs and held lanes -/

/-- The Digest Engine and the jobs that lanes hold stay; and of the slots that `left` names, the failure count and the
doubtful value stay, and a commit in SENT with no COMMIT entry in a lane's queue stays and gets none there. -/
structure LeavesJobs (left : SlotId → Prop) (s t : State) : Prop where
  engine : t.engine = s.engine
  held : ∀ l k, (s.lane l).state = .held k → (t.lane l).state = .held k
  counts : ∀ k, left k → (t.commit k).failures = (s.commit k).failures ∧ (t.commit k).doubtful = (s.commit k).doubtful
  awaits : ∀ k f l, left k → (s.commit k).flight = some f → f.phase = .sent →
    (∀ e ∈ (s.lane l).queue, e.slot = k → e.laneClass ≠ .commit) →
      (t.commit k).flight = some f ∧ ∀ e ∈ (t.lane l).queue, e.slot = k → e.laneClass ≠ .commit

theorem LeavesJobs.of_eq (engine : t.engine = s.engine) (lanes : t.bus.lanes = s.bus.lanes)
    (commits : t.commits = s.commits) : LeavesJobs left s t := by
  have lane : ∀ l, t.lane l = s.lane l := fun l => by simp only [State.lane, lanes]
  have commit : ∀ k, t.commit k = s.commit k := fun k => by simp only [State.commit, commits]
  refine ⟨engine, fun l k held => by rw [lane]; exact held, fun k _ => by rw [commit]; exact ⟨rfl, rfl⟩,
    fun k f l _ sent _ clear => ?_⟩
  rw [commit, lane]
  exact ⟨sent, clear⟩

theorem LeavesJobs.refl (s : State) : LeavesJobs left s s := .of_eq rfl rfl rfl

theorem LeavesJobs.trans (h : LeavesJobs left s t) (k : LeavesJobs left t u) : LeavesJobs left s u where
  engine := k.engine.trans h.engine
  held l x held := k.held l x (h.held l x held)
  counts x named := ⟨(k.counts x named).1.trans (h.counts x named).1, (k.counts x named).2.trans (h.counts x named).2⟩
  awaits x f l other flight sent clear := by
    obtain ⟨flight', clear'⟩ := h.awaits x f l other flight sent clear
    exact k.awaits x f l other flight' sent clear'

theorem LeavesJobs.updCommit (s : State) (j : SlotId) (f : CommitState → CommitState)
    (h : ¬left j ∨ (f (s.commit j)).failures = (s.commit j).failures ∧ (f (s.commit j)).doubtful = (s.commit j).doubtful ∧
      ∀ x, (s.commit j).flight = some x → x.phase = .sent → (f (s.commit j)).flight = some x) :
    LeavesJobs left s (s.updCommit j f) := by
  refine ⟨rfl, fun l k held => held, fun k named => ?_, fun k x l named flight sent clear => ⟨?_, clear⟩⟩
  · rw [State.updCommit_commit]
    split
    case isTrue same =>
      subst same
      obtain ⟨failures, doubtful, _⟩ := h.resolve_left fun other => other named
      exact ⟨failures, doubtful⟩
    case isFalse => exact ⟨rfl, rfl⟩
  · rw [State.updCommit_commit]
    split
    case isTrue same =>
      subst same
      obtain ⟨_, _, kept⟩ := h.resolve_left fun other => other named
      exact kept x flight sent
    case isFalse => exact flight

theorem LeavesJobs.takeEntry (s : State) (l : LaneId) (idle : ∀ k, (s.lane l).state ≠ .held k) :
    LeavesJobs left s (s.takeEntry l) := by
  have work := s.takeEntry_work l
  refine ⟨by rw [work.only], fun m k held => ?_, fun k _ => ?_, fun k f m other flight sent clear => ⟨?_, ?_⟩⟩
  · by_cases same : l = m
    · subst same
      exact (idle k held).elim
    · rw [work.lanes m same]
      exact held
  · rcases work.commits k with same | takes
    · rw [same]
      exact ⟨rfl, rfl⟩
    · rw [takes]
      exact ⟨rfl, rfl⟩
  · rcases work.commits k with same | takes
    · rw [same]
      exact flight
    · rw [takes, CommitState.sent, flight]
      simp only [Option.map_some, ← sent]
  · by_cases same : l = m
    · subst same
      exact fun e member => clear e (State.takeEntry_queue s l e member)
    · rw [work.lanes m same]
      exact clear

theorem LeavesJobs.enqueue (s : State) (e : LaneEntry)
    (h : e.laneClass = .commit → ¬left e.slot ∨ ∀ f, (s.commit e.slot).flight = some f → f.phase ≠ .sent) :
    LeavesJobs left s (s.enqueue e) := by
  generalize joins : (s.updLane (laneOf e.slot) fun lane => { lane with queue := lane.queue ++ [e] }) = v
  have joined : LeavesJobs left s v := by
    rw [← joins]
    refine ⟨rfl, fun l k held => ?_, fun _ _ => ⟨rfl, rfl⟩, fun k f l named flight sent clear => ⟨flight, ?_⟩⟩
    · rw [State.updLane_lane]
      split
      · exact held
      · exact held
    · rw [State.updLane_lane]
      split
      · intro x member own commit
        rcases List.mem_append.1 member with old | new
        · exact clear x old own commit
        · obtain rfl := List.mem_singleton.1 new
          rcases h commit with other | notSent
          · exact other (own ▸ named)
          · exact notSent f (own ▸ flight) sent
      · exact clear
  unfold State.enqueue
  dsimp only
  rw [joins]
  split
  case h_1 idle => exact joined.trans (.takeEntry v _ fun k => by rw [idle]; exact nofun)
  case h_2 => exact joined

theorem LeavesJobs.dropEntries (s : State) (j : SlotId) (drop : LaneClass → Bool) :
    LeavesJobs left s (s.dropEntries j drop) := by
  refine ⟨rfl, fun l k held => ?_, fun _ _ => ⟨rfl, rfl⟩, fun k f l named flight sent clear => ⟨flight, ?_⟩⟩
  · rw [State.dropEntries, State.updLane_lane]
    split
    · exact held
    · exact held
  · rw [State.dropEntries, State.updLane_lane]
    split
    · exact fun e member => clear e (List.mem_of_mem_filter member)
    · exact clear

/-! ## Commits -/

theorem LeavesJobs.withdrawCommit (s : State) (j : SlotId) : LeavesJobs left s (s.withdrawCommit j) := by
  unfold State.withdrawCommit
  split
  case h_1 f flight =>
    split
    case isTrue waiting =>
      refine (LeavesJobs.dropEntries s j _).trans (.updCommit _ j _ (.inr ⟨rfl, rfl, fun x same sent => ?_⟩))
      obtain rfl := Option.some.inj (flight.symm.trans same)
      rw [waiting] at sent
      cases sent
    case isFalse => exact .refl s
  case h_2 => exact .refl s

theorem LaneEntry.enlarged_laneClass (e : LaneEntry) (j : SlotId) (advance : Nat) :
    (e.enlarged j advance).laneClass = e.laneClass := by
  obtain ⟨slot, command, ticket⟩ := e
  cases command with
  | odoAdvance v g n =>
    unfold LaneEntry.enlarged
    dsimp only
    split
    · rfl
    · rfl
  | _ => rfl

theorem LeavesJobs.enlargeCommit (s : State) (j : SlotId) {f : Flight} (flight : (s.commit j).flight = some f)
    (waiting : f.phase = .waiting) : LeavesJobs left s (s.enlargeCommit j) := by
  refine (LeavesJobs.updCommit s j (fun c => { c with flight := c.flight.map fun f =>
    { f with
      snapshot := (s.slot j).uncommitted
      advance := (s.slot j).committed + (s.slot j).uncommitted } })
    (.inr ⟨rfl, rfl, fun x same sent => ?_⟩)).trans ?_
  · obtain rfl := Option.some.inj (flight.symm.trans same)
    rw [waiting] at sent
    cases sent
  · refine ⟨rfl, fun l k held => ?_, fun _ _ => ⟨rfl, rfl⟩, fun k f l named flight sent clear => ⟨flight, ?_⟩⟩
    · rw [State.enlargeCommit, State.updLane_lane]
      split
      · exact held
      · exact held
    · rw [State.enlargeCommit, State.updLane_lane]
      split
      · intro e member
        obtain ⟨x, old, rfl⟩ := List.mem_map.1 member
        rw [LaneEntry.enlarged_slot, LaneEntry.enlarged_laneClass]
        exact clear x old
      · exact clear

theorem LeavesJobs.takeCommit (s : State) (j : SlotId) (idle : (s.commit j).flight = none) :
    LeavesJobs left s (s.takeCommit j) := by
  unfold State.takeCommit
  dsimp only
  refine (LeavesJobs.of_eq (s := s) (t := s.nonceDrawn) rfl rfl rfl).trans
    ((LeavesJobs.updCommit s.nonceDrawn j _ (.inr ⟨rfl, rfl, fun x same => ?_⟩)).trans (.enqueue _ _ fun _ => .inr fun f same => ?_))
  · rw [show s.nonceDrawn.commit j = s.commit j from rfl, idle] at same
    cases same
  · rw [State.updCommit_commit_same] at same
    cases same
    exact nofun

theorem LeavesJobs.actTrigger (s : State) (j : SlotId) (forced : Bool) : LeavesJobs left s (s.actTrigger j forced) := by
  unfold State.actTrigger
  split
  case h_1 idle => exact .takeCommit s j idle
  case h_2 f flight =>
    split
    case isTrue waiting => exact .enlargeCommit s j flight waiting
    case isFalse =>
      split
      · exact .refl s
      · exact .updCommit s j _ (.inr ⟨rfl, rfl, fun x same _ => same⟩)

theorem LeavesJobs.forcedTrigger (s : State) (j : SlotId) : LeavesJobs left s (s.forcedTrigger j) := by
  unfold State.forcedTrigger
  split
  · exact .actTrigger s j true
  · exact .refl s

theorem LeavesJobs.stepTrigger (s : State) (j : SlotId) : LeavesJobs left s (s.stepTrigger j) := by
  unfold State.stepTrigger
  split
  · exact .actTrigger s j false
  · exact .refl s

theorem LeavesJobs.actAgain (s : State) (j : SlotId) : LeavesJobs left s (s.actAgain j) := by
  have cleared : LeavesJobs left s (s.updCommit j fun c => { c with again := .clear }) :=
    .updCommit s j _ (.inr ⟨rfl, rfl, fun x same _ => same⟩)
  unfold State.actAgain
  dsimp only
  split
  · exact cleared
  · exact cleared.trans (.stepTrigger _ j)
  · exact cleared.trans (.forcedTrigger _ j)

/-! ## Slots and channels -/

theorem LeavesJobs.moveSlot (s : State) (j : SlotId) (f : SlotRecord → SlotRecord) : LeavesJobs left s (s.moveSlot j f) :=
  .of_eq rfl rfl rfl

theorem LeavesJobs.rejectSlot (s : State) (j : SlotId) (why : RejectReason) : LeavesJobs left s (s.rejectSlot j why) :=
  (LeavesJobs.moveSlot s j _).trans (.withdrawCommit _ j)

theorem HeadTested.leavesJobs {c : ChannelId} (h : HeadTested s t c) : LeavesJobs left s t :=
  .of_eq (by rw [h.only]) (by rw [h.only]) (by rw [h.only])

theorem LeavesJobs.completionTest (s : State) (c : ChannelId) : LeavesJobs left s (s.completionTest c) := by
  unfold State.completionTest
  dsimp only
  split
  · next old new _ _ _ =>
    split
    · exact .refl s
    · have back : LeavesJobs left s (s.toReady old) := (LeavesJobs.moveSlot s old _).trans (.forcedTrigger _ old)
      have moved := back.trans (.moveSlot _ new fun r => { r with state := .serving })
      unfold State.completeSwitch
      dsimp only
      refine .trans ?_ (State.headTest_tested _ c).leavesJobs
      exact moved.trans (.of_eq rfl rfl rfl)
  · exact .refl s

theorem LeavesJobs.plannedSwitch (s : State) (c : ChannelId) : LeavesJobs left s (s.plannedSwitch c) := by
  unfold State.plannedSwitch
  dsimp only
  split
  · refine .trans ?_ (.completionTest _ c)
    exact .of_eq rfl rfl rfl
  · exact .refl s

theorem LeavesJobs.failover (s : State) (c : ChannelId) (old : SlotId) (reason : LeaveReason) :
    LeavesJobs left s (s.failover c old reason) := by
  have next : LeavesJobs left s (s.drawNext c (s.standIn c old)) := by
    cases s.standIn c old with
    | none => exact .of_eq rfl rfl rfl
    | some j => exact (LeavesJobs.moveSlot s j fun r => { r with state := .serving }).trans (.of_eq rfl rfl rfl)
  obtain ⟨only, _, _⟩ := (s.drawNext c (s.standIn c old)).applySplit_spec c (some old) (s.standIn c old)
  unfold State.failover
  dsimp only
  refine .trans ?_ (.plannedSwitch _ c)
  refine .trans ?_ (State.headTest_tested _ c).leavesJobs
  exact next.trans (.of_eq (by rw [only]; rfl) (by rw [only]; rfl) (by rw [only]; rfl))

theorem LeavesJobs.targetTest (s : State) (c : ChannelId) : LeavesJobs left s (s.targetTest c) := by
  unfold State.targetTest
  dsimp only
  split
  · split
    · exact .refl s
    · unfold State.cancelSwitch
      dsimp only
      refine .trans ?_ (State.headTest_tested _ c).leavesJobs
      exact .of_eq rfl rfl rfl
  · exact .refl s

theorem LeavesJobs.slotLeft (s : State) (j : SlotId) (reason : LeaveReason) : LeavesJobs left s (s.slotLeft j reason) := by
  unfold State.slotLeft
  split
  · split
    · exact .failover s _ j reason
    · exact .targetTest s _
  · exact .refl s

/-! ## The next job (R50, R56) -/

theorem State.laneFree_engine (s : State) (l : LaneId) : (s.laneFree l).engine = s.engine := by
  rw [(s.laneFree_work l).only]

/-- With the engine at work a job joins the end of its queue. -/
theorem State.joinEngine_engine {r : RunningJob} (busy : s.engine.running = some r) (k : Job) :
    (s.joinEngine k).engine = { s.engine with queue := s.engine.queue ++ [k] } := by
  have joins : s.engine.join k = { s.engine with queue := s.engine.queue ++ [k] } := by
    unfold Engine.join
    split
    case h_1 idle => rw [busy] at idle; cases idle
    case h_2 => rfl
  have kept : (s.joinEngine k).engine = s.engine.join k := by
    unfold State.joinEngine State.commitChecking
    split
    · rfl
    · rfl
  rw [kept, joins]

/-- What the next job's start does, from the state in which the result was handed over. -/
theorem State.startNextJob_nextJob (s : State) (i : SlotId) : NextJob s s.startNextJob i := by
  unfold State.startNextJob
  split
  case h_1 empty =>
    refine ⟨by rw [empty]; rfl, fun _ => ⟨empty, rfl⟩, fun j rest full => ?_, fun j rest l lanes k full => ?_⟩
    · rw [empty] at full
      cases full
    · rw [empty] at full
      cases full
  case h_2 j rest queue =>
    generalize starts : (s.updEngine fun e => { e with running := some ⟨j, false⟩, queue := rest }) = v
    have engine : v.engine = { s.engine with
        running := some ⟨j, false⟩
        queue := rest } := by rw [← starts]; rfl
    have lanes : ∀ l, v.lane l = s.lane l := fun l => by rw [← starts]; rfl
    have commits : ∀ k, v.commit k = s.commit k := fun k => by rw [← starts]; rfl
    unfold State.placeFreed
    split
    case h_1 noneHeld =>
      rw [engine] at noneHeld
      refine ⟨by rw [engine, queue]; rfl, fun empty => ?_, fun j' rest' same _ => ?_, fun _ _ l lanes' k same held => ?_⟩
      · rw [queue] at empty
        cases empty
      · rw [queue] at same
        cases same
        rw [engine]
        exact ⟨rfl, noneHeld⟩
      · rw [show s.engine.heldLanes = [] from noneHeld] at held
        cases held
    case h_2 l lanes' heldLanes =>
      rw [engine] at heldLanes
      have heldHere : s.engine.heldLanes = l :: lanes' := heldLanes
      split
      case h_1 k held =>
        rw [lanes] at held
        generalize leaves : (v.updEngine fun e => { e with heldLanes := lanes' }) = w
        have engineW : w.engine = { s.engine with
            running := some ⟨j, false⟩
            queue := rest
            heldLanes := lanes' } := by
          rw [← leaves]
          show ({ v.engine with heldLanes := lanes' } : Engine) = _
          rw [engine]
        have joined := State.joinEngine_engine (s := w) (r := ⟨j, false⟩) (by rw [engineW]) k
        rw [engineW] at joined
        refine ⟨by rw [State.laneFree_engine, joined, queue]; rfl, fun empty => ?_, fun _ _ _ noneHeld => ?_,
          fun j' rest' l' lanes'' k' same held' isHeld => ?_⟩
        · rw [queue] at empty
          cases empty
        · rw [heldHere] at noneHeld
          cases noneHeld
        · rw [queue] at same
          rw [heldHere] at held'
          cases same
          cases held'
          obtain rfl : k = k' := LaneState.held.inj (held.symm.trans isHeld)
          rw [State.laneFree_engine, joined]
          refine ⟨rfl, rfl, State.laneFree_notHeld _ l, fun v' f receipt other flight sent clear => ?_⟩
          have commitW : w.commit k.slot = s.commit k.slot := by rw [← leaves]; exact commits k.slot
          have laneW : (w.joinEngine k).lane l = s.lane l := by
            have lane : (w.joinEngine k).lane l = w.lane l := by
              unfold State.joinEngine State.commitChecking
              split
              · rfl
              · rfl
            rw [lane, ← leaves]
            exact lanes l
          rw [State.laneFree_commit _ l (by rw [laneW]; exact clear)]
          unfold State.joinEngine State.commitChecking
          rw [receipt]
          dsimp only
          rw [State.updCommit_commit_same]
          show ((w.commit k.slot).flight.map _) = _
          rw [commitW, flight]
          rfl
      case h_2 notHeld =>
        refine ⟨?_, fun empty => ?_, fun _ _ _ noneHeld => ?_, fun j' rest' l' lanes'' k' same held' isHeld => ?_⟩
        · show v.engine.running = _
          rw [engine, queue]
          rfl
        · rw [queue] at empty
          cases empty
        · rw [heldHere] at noneHeld
          cases noneHeld
        · rw [heldHere] at held'
          cases held'
          exact (notHeld k' (by rw [lanes]; exact isHeld)).elim

/-- The next job told of the state before the result was handed over. -/
theorem NextJob.handed (h : LeavesJobs (· ≠ i) s t) (n : NextJob t u i) : NextJob s u i := by
  obtain ⟨running, empty, alone, placed⟩ := n
  rw [h.engine] at running empty alone placed
  refine ⟨running, empty, alone, fun j rest l lanes k queue heldLanes held => ?_⟩
  obtain ⟨joined, left, free, checks⟩ := placed j rest l lanes k queue heldLanes (h.held l k held)
  refine ⟨joined, left, free, fun v f receipt other flight sent clear => ?_⟩
  obtain ⟨flight', clear'⟩ := h.awaits k.slot f l other flight sent clear
  exact checks v f receipt other flight' sent clear'

theorem NextJob.settled (n : NextJob s t i) : NextJob s t.settle i := by
  obtain ⟨running, empty, alone, placed⟩ := n
  refine ⟨?_, ?_, ?_, fun j rest l lanes k queue heldLanes held => ?_⟩
  · rw [State.settle_engine]; exact running
  · rw [State.settle_engine]; exact empty
  · rw [State.settle_engine]; exact alone
  · rw [State.settle_engine, State.settle_lane, State.settle_commit]
    exact placed j rest l lanes k queue heldLanes held

end

end Sys2Proof.Machine

/-! PROOF. The outcome of a commit whose receipt has been checked (O52). -/

namespace Sys2Proof.Machine

section
variable {s t u : State} {i j : SlotId} {c : ChannelId} {p : PlaceId}

/-! ## Entries rewritten -/

theorem State.editEntry_history (s : State) (p : PlaceId) (f : HistoryEntry → HistoryEntry) (urgent : Bool) :
    s.editEntry p f urgent = { s with history := (s.editEntry p f urgent).history } := by
  unfold State.editEntry
  split
  · rfl
  · rfl

theorem State.editEntry_place {e : HistoryEntry} (here : s.place p = some e) (f : HistoryEntry → HistoryEntry)
    (urgent : Bool) (q : PlaceId) : (s.editEntry p f urgent).place q = if p = q then some (f e) else s.place q := by
  unfold State.editEntry
  rw [here]
  exact State.writePlace_place ..

theorem State.entryOf_congr (description : (t.slot i).description = (s.slot i).description)
    (places : ∀ p, t.place p = s.place p) : t.entryOf i = s.entryOf i := by
  have found : ∀ serial, t.findEntry serial = s.findEntry serial :=
    State.findEntry_congr fun p => by rw [places]
  unfold State.entryOf
  rw [description]
  cases (s.slot i).description with
  | none => rfl
  | some d => exact found d.serial

/-! ## A slot that leaves, in any state -/

theorem Channel.otherSlot_ne {ch : Channel} (h : ch.otherSlot i = some j) : j ≠ i :=
  of_decide_eq_true (List.find?_some (p := fun x : SlotId => decide (x ≠ i)) h)

theorem State.completeSwitch_slot (s : State) (c : ChannelId) {old new k : SlotId} (notOld : k ≠ old) (notNew : k ≠ new) :
    (s.completeSwitch c old new).slot k = s.slot k := by
  unfold State.completeSwitch
  dsimp only
  rw [(State.headTest_tested _ c).slot]
  show (((s.toReady old).toServing new).slot k) = _
  rw [State.toServing, State.moveSlot_slot, if_neg (Ne.symm notNew), (s.toReady_records old).slot,
    State.updSlot_slot_other _ _ _ _ (Ne.symm notOld)]

/-- A switch touches the serving slot and a slot that is READY, no other. -/
theorem State.plannedSwitch_slot (s : State) (c : ChannelId) {k : SlotId} (notServing : (s.channel c).serving ≠ some k)
    (notReady : (s.slot k).state ≠ .ready) : (s.plannedSwitch c).slot k = s.slot k := by
  unfold State.plannedSwitch
  dsimp only
  split
  case h_1 target wanted =>
    have ready : (s.slot target).state = .ready := by
      unfold State.switchWanted at wanted
      dsimp only at wanted
      split at wanted
      · split at wanted
        · split at wanted
          · next due =>
            cases wanted
            exact due.2.1
          · cases wanted
        · cases wanted
      · cases wanted
    have serving : ∀ v : State, (v.channel c).serving = (s.channel c).serving → (v.channel c).target = some target →
        (∀ x, v.slot x = s.slot x) → (v.completionTest c).slot k = s.slot k := fun v sameServing isTarget slots => by
      unfold State.completionTest
      dsimp only
      split
      · next old new _ oldServing newTarget =>
        split
        · exact slots k
        · obtain rfl : target = new := Option.some.inj (isTarget.symm.trans newTarget)
          rw [State.completeSwitch_slot _ c, slots]
          · rintro rfl
            exact notServing (sameServing.symm.trans oldServing)
          · rintro rfl
            exact notReady ready
      · exact slots k
    refine serving _ ?_ ?_ fun x => rfl
    · rw [State.raise_channel, State.updChannel_channel_same]
    · rw [State.raise_channel, State.updChannel_channel_same]
  case h_2 => rfl

/-- A slot that has left READY keeps its record, whatever follows of its leaving. -/
theorem State.slotLeft_own (s : State) {reason : LeaveReason} (notReady : (s.slot i).state ≠ .ready) :
    (s.slotLeft i reason).slot i = s.slot i := by
  unfold State.slotLeft
  split
  case h_1 c named =>
    split
    case isTrue serving =>
      unfold State.failover
      dsimp only
      have pick : s.standIn c i ≠ some i := fun same => by
        obtain ⟨other, _⟩ := Option.filter_eq_some_iff.1 same
        exact Channel.otherSlot_ne other rfl
      have drawn := s.drawNext_slot c (s.standIn c i) i pick
      have channel := s.drawNext_channel c (s.standIn c i)
      generalize s.standIn c i = chosen at pick drawn channel ⊢
      obtain ⟨only, _, _⟩ := (s.drawNext c chosen).applySplit_spec c (some i) chosen
      generalize (s.drawNext c chosen).applySplit c (some i) chosen = v at only ⊢
      have slotV : v.slot i = s.slot i := by
        rw [only]
        exact drawn
      have servingV : (v.channel c).serving = chosen := by
        have record : v.channel c = _ := congrArg (State.channel · c) only
        rw [record]
        show (((s.drawNext c chosen).updChannel c _).channel c).serving = _
        rw [State.updChannel_channel_same, channel]
        cases chosen with
        | none => rfl
        | some j => rfl
      have tested (n : Notice) := (v.raise n).headTest_tested c
      rw [State.plannedSwitch_slot, (tested _).slot]
      · exact slotV
      · rw [(tested _).self]
        show (v.channel c).serving ≠ some i
        rw [servingV]
        exact pick
      · rw [(tested _).slot]
        show (v.slot i).state ≠ _
        rw [slotV]
        exact notReady
    case isFalse =>
      unfold State.targetTest
      dsimp only
      split
      · split
        · rfl
        · unfold State.cancelSwitch
          dsimp only
          rw [(State.headTest_tested _ c).slot]
          rfl
      · rfl
  case h_2 => rfl

/-- A failover told of a later state, with the same records and channels. -/
theorem FailedOver.later {reason : LeaveReason} {l : List Reservation} (h : FailedOver s t c i reason l)
    (channels : u.channels = t.channels) (slots : u.slots = t.slots) (raises : Raises t.notices u.notices) :
    FailedOver s u c i reason l := by
  have channel : u.channel c = t.channel c := by simp only [State.channel, channels]
  have slot : ∀ k, u.slot k = t.slot k := fun k => by simp only [State.slot, slots]
  obtain ⟨taken, lost, ⟨marked, last, notices⟩, notice⟩ := h
  refine ⟨fun j paired can => ?_, fun noneCan => ?_, ⟨?_, ?_, fun r member drawing => ?_⟩, ?_⟩
  · obtain ⟨state, serving, target, permit, serves⟩ := taken j paired can
    exact ⟨by rw [channel]; exact state, by rw [channel]; exact serving, by rw [channel]; exact target,
      by rw [channel]; exact permit, by rw [slot]; exact serves⟩
  · obtain ⟨state, serving, target, permit⟩ := lost noneCan
    exact ⟨by rw [channel]; exact state, by rw [channel]; exact serving, by rw [channel]; exact target,
      by rw [channel]; exact permit⟩
  · rw [channel]; exact marked
  · rw [channel]; exact last
  · rw [channel]; exact (notices r member drawing).trans raises
  · rw [channel]; exact notice.trans raises

/-! ## What follows the outcome: the again flag and the next job -/

/-- The failure counts and the doubtful values outlast the start of the next job. -/
theorem State.startNextJob_counts (s : State) (k : SlotId) :
    (s.startNextJob.commit k).failures = (s.commit k).failures ∧
      (s.startNextJob.commit k).doubtful = (s.commit k).doubtful := by
  have checking : ∀ (v : State) (x : Job), ((v.joinEngine x).commit k).failures = (v.commit k).failures ∧
      ((v.joinEngine x).commit k).doubtful = (v.commit k).doubtful := fun v x => by
    unfold State.joinEngine State.commitChecking
    split
    · rw [State.updCommit_commit]
      split
      · exact ⟨rfl, rfl⟩
      · exact ⟨rfl, rfl⟩
    · exact ⟨rfl, rfl⟩
  have freed : ∀ (v : State) (l : LaneId), ((v.laneFree l).commit k).failures = (v.commit k).failures ∧
      ((v.laneFree l).commit k).doubtful = (v.commit k).doubtful := fun v l => by
    rcases (v.laneFree_work l).commits k with same | sent
    · rw [same]
      exact ⟨rfl, rfl⟩
    · rw [sent]
      exact ⟨rfl, rfl⟩
  unfold State.startNextJob
  split
  · exact ⟨rfl, rfl⟩
  · unfold State.placeFreed
    split
    · exact ⟨rfl, rfl⟩
    · split
      · rw [(freed _ _).1, (freed _ _).2, (checking _ _).1, (checking _ _).2]
        exact ⟨rfl, rfl⟩
      · exact ⟨rfl, rfl⟩

/-- What has been settled by a commit's outcome stays through the again flag, the next job and the event's end. -/
theorem State.outcome_kept (v : State) (i : SlotId) :
    (∀ k, (v.actAgain i).startNextJob.settle.slot k = v.slot k) ∧
      (v.actAgain i).startNextJob.settle.channels = v.channels ∧
      (∀ p, (v.actAgain i).startNextJob.settle.place p = v.place p) ∧
      ((v.actAgain i).startNextJob.settle.commit i).failures = (v.commit i).failures ∧
      ((v.actAgain i).startNextJob.settle.commit i).doubtful = (v.commit i).doubtful ∧
      Raises v.notices (v.actAgain i).startNextJob.settle.notices := by
  have kept : RecordsKept v (v.actAgain i).startNextJob := .startNextJob (.actAgain (.refl v) i)
  have leaves : LeavesJobs (fun _ => True) v (v.actAgain i) := .actAgain v i
  obtain ⟨failures, doubtful⟩ := leaves.counts i trivial
  obtain ⟨failures', doubtful'⟩ := (v.actAgain i).startNextJob_counts i
  refine ⟨fun k => ?_, ?_, fun p => ?_, ?_, ?_, ?_⟩
  · rw [State.settle_slot, kept.slot]
  · rw [State.settle_channels, kept.channels]
  · rw [State.settle_place, kept.place]
  · rw [State.settle_commit, failures', failures]
  · rw [State.settle_commit, doubtful', doubtful]
  · exact ((((Undisturbed.refl v).actAgain i).startNextJob).settle).notices

/-! ## A match (R108) -/

/-- R108: what a match sets, before the again flag is read. -/
structure Landed (s v : State) (i : SlotId) (f : Flight) : Prop where
  leaves : LeavesJobs (· ≠ i) s v
  record : RecordBecomes s v i { s.slot i with
    committed := f.advance
    uncommitted := (s.slot i).uncommitted - f.snapshot }
  failures : (v.commit i).failures = 0
  doubtful : (v.commit i).doubtful = none
  entry : ∀ p e, s.entryOf i = some p → s.place p = some e → v.place p = some { e with
    odometer := f.advance
    pendingCharge :=
      if (s.slot i).uncommitted - f.snapshot = 0 then none else some ((s.slot i).uncommitted - f.snapshot)
    uncertain := none }

theorem State.commitMatch_landed (s : State) (i : SlotId) (f : Flight) :
    ∃ v, s.commitMatch i f = v.actAgain i ∧ Landed s v i f := by
  unfold State.commitMatch
  dsimp only
  generalize lands : (((s.landed i).updCommit i fun c => { c with failures := 0, doubtful := none }).updSlot i fun r =>
    { r with committed := f.advance, uncommitted := r.uncommitted - f.snapshot }) = w
  have leaves : LeavesJobs (· ≠ i) s w := by
    rw [← lands]
    refine LeavesJobs.trans (t := s.landed i) (.updCommit s i _ (.inl fun other => other rfl)) ?_
    refine LeavesJobs.trans (.updCommit _ i (fun c => { c with failures := 0, doubtful := none })
      (.inl fun other => other rfl)) ?_
    exact .of_eq rfl rfl rfl
  have record : RecordBecomes s w i { s.slot i with
      committed := f.advance
      uncommitted := (s.slot i).uncommitted - f.snapshot } := by
    rw [← lands]
    exact ((RecordBecomes.refl s i).records (.updCommit (.landed (.refl s) i) i _)).updSlot _
  have commit : w.commit i = ⟨none, (s.commit i).again, 0, none⟩ := by
    rw [← lands]
    show (((s.landed i).updCommit i _).commit i) = _
    rw [State.updCommit_commit_same, State.landed, State.updCommit_commit_same]
  have entries : w.entryOf i = s.entryOf i := by
    refine State.entryOf_congr ?_ fun p => ?_
    · rw [record.own]
    · rw [← lands]; rfl
  have places : ∀ p, w.place p = s.place p := fun p => by rw [← lands]; rfl
  cases found : w.entryOf i with
  | none =>
    refine ⟨w, rfl, leaves, record, ?_, ?_, fun p e entry => ?_⟩
    · rw [commit]
    · rw [commit]
    · rw [← entries, found] at entry
      cases entry
  | some p =>
    generalize rewrites : (w.editEntry p (fun e => { e with
      odometer := f.advance
      pendingCharge := nonzero (w.slot i).uncommitted
      uncertain := none }) false) = v
    have only : v = { w with history := v.history } := by
      rw [← rewrites]
      exact State.editEntry_history ..
    refine ⟨v, by rw [← rewrites], leaves.trans (.of_eq (by rw [only]) (by rw [only]) (by rw [only])),
      ⟨by rw [only]; exact record.own, fun j other => by rw [only]; exact record.others j other,
        by rw [only]; exact record.channels⟩, by rw [only]; exact congrArg CommitState.failures commit,
      by rw [only]; exact congrArg CommitState.doubtful commit, fun q e entry here => ?_⟩
    rw [← entries, found] at entry
    cases entry
    rw [← places] at here
    rw [← rewrites, State.editEntry_place here, if_pos rfl, record.own, nonzero_eq]

/-! ## A mismatch (R110) -/

theorem State.barEntry_history (s : State) (i : SlotId) : s.barEntry i = { s with history := (s.barEntry i).history } := by
  unfold State.barEntry
  split
  · exact State.editEntry_history ..
  · rfl

theorem State.barEntry_place {e : HistoryEntry} (found : s.entryOf i = some p) (here : s.place p = some e) :
    (s.barEntry i).place p = some { e with barred := true } := by
  unfold State.barEntry
  rw [found]
  exact (State.editEntry_place here _ _ p).trans (if_pos rfl)

theorem State.rejectSlot_place (s : State) (i : SlotId) (why : RejectReason) (p : PlaceId) :
    (s.rejectSlot i why).place p = s.place p :=
  RecordsKept.place (.withdrawCommit (.refl (s.moveSlot i fun r => { r with
    state := .rejected
    rejectReason := some why })) i) p

/-- R110: what a mismatch sets, before the again flag is read. -/
structure Mismatched (s v : State) (i : SlotId) (f : Flight) : Prop where
  leaves : LeavesJobs (· ≠ i) s v
  accounts : ∀ k, (v.slot k).committed = (s.slot k).committed ∧ (v.slot k).uncommitted = (s.slot k).uncommitted
  failures : (v.commit i).failures = (s.commit i).failures
  doubtful : (v.commit i).doubtful = some (max ((s.commit i).doubtful.getD 0) f.advance)
  rejected : (s.slot i).state.isAdmitted = true →
    (v.slot i).state = .rejected ∧ (v.slot i).rejectReason = some .receiptMismatch ∧
      ∀ ch, (s.slot i).channel = some ch → (s.channel ch).serving = some i → i ∈ (s.channel ch).pairSlots →
        FailedOver s v ch i .rejected (s.channel ch).reservations
  stays : (s.slot i).state.isAdmitted = false → (v.slot i).state = (s.slot i).state
  notice : Announced s.notices v.notices
    (.commitFailed i .receiptMismatch f.advance (s.commit i).failures (v.slot i).state)
  barred : ∀ p e, s.entryOf i = some p → s.place p = some e → v.place p = some { e with barred := true }

theorem raisedDoubt_eq (held : Option Nat) (advance : Nat) :
    raisedDoubt held advance = some (max (held.getD 0) advance) := by
  cases held with
  | none => rw [raisedDoubt, Option.getD_none, Nat.zero_max]
  | some d => rfl

theorem State.commitMismatch_mismatched (s : State) (i : SlotId) (f : Flight) :
    ∃ v, s.commitMismatch i f = v.actAgain i ∧ Mismatched s v i f := by
  unfold State.commitMismatch
  dsimp only
  generalize lands : ((s.landed i).updCommit i fun c => { c with doubtful := raisedDoubt c.doubtful f.advance }) = w
  have leaves : LeavesJobs (· ≠ i) s w := by
    rw [← lands]
    exact LeavesJobs.trans (t := s.landed i) (.updCommit s i _ (.inl fun other => other rfl))
      (.updCommit _ i _ (.inl fun other => other rfl))
  have kept : RecordsKept s w := by
    rw [← lands]
    exact .updCommit (.landed (.refl s) i) i _
  have commit : w.commit i =
      ⟨none, (s.commit i).again, (s.commit i).failures, some (max ((s.commit i).doubtful.getD 0) f.advance)⟩ := by
    rw [← lands, State.updCommit_commit_same, State.landed, State.updCommit_commit_same, raisedDoubt_eq]
  have quiet : w.notices = s.notices := by rw [← lands]; rfl
  have bars : ∀ v : State, (v.slot i).description = (s.slot i).description → (∀ p, v.place p = s.place p) →
      ∀ p e, s.entryOf i = some p → s.place p = some e → (v.barEntry i).place p = some { e with barred := true } :=
    fun v description places p e found here => by
      refine State.barEntry_place ?_ ((places p).trans here)
      rw [State.entryOf_congr description places, found]
  by_cases admitted : (s.slot i).state.isAdmitted = true
  · rw [if_pos admitted]
    generalize rejects : w.rejectSlot i .receiptMismatch = x
    generalize marks : x.barEntry i = y
    have becomes : RecordBecomes s x i { s.slot i with
        state := .rejected
        rejectReason := some .receiptMismatch } := by
      rw [← rejects]
      exact ((RecordBecomes.refl s i).records kept).rejectSlot _
    have only : y = { x with history := y.history } := by
      rw [← marks]
      exact x.barEntry_history i
    have slots : ∀ k, y.slot k = x.slot k := fun k => by rw [only]; rfl
    have channel : ∀ d, y.channel d = s.channel d := fun d => by
      rw [only]
      exact congrArg (fun v : Vector Channel 8 => v[d.val]) becomes.channels
    have own := (slots i).trans becomes.own
    have notReady : (y.slot i).state ≠ .ready := by rw [own]; exact nofun
    have leavesLater : ∀ named : SlotId → Prop, LeavesJobs named w ((y.slotLeft i .rejected).commitFailed i .receiptMismatch
        f.advance) := fun named => by
      have rejected : LeavesJobs named w x := by rw [← rejects]; exact .rejectSlot w i _
      have barred : LeavesJobs named x y := .of_eq (by rw [only]) (by rw [only]) (by rw [only])
      exact ((rejected.trans barred).trans (.slotLeft y i .rejected)).trans (.of_eq rfl rfl rfl)
    have moved := StatesMoved.slotLeft y i .rejected
    have stays := State.slotLeft_own y (reason := .rejected) notReady
    have counts := (leavesLater fun _ => True).counts i trivial
    have raisesX : Raises s.notices y.notices := by
      rw [only, ← rejects, ← quiet]
      exact ((Undisturbed.refl w).rejectSlot i _).notices
    refine ⟨_, rfl, leaves.trans (leavesLater _), fun k => ?_, ?_, ?_, fun _ => ⟨?_, ?_, fun ch named serving inPair => ?_⟩,
      fun notAdmitted => ?_, ?_, fun p e found here => ?_⟩
    · rw [State.commitFailed, State.raise_slot, moved.slots, slots]
      by_cases same : k = i
      · rw [same, becomes.own]
        exact ⟨rfl, rfl⟩
      · rw [becomes.others k same]
        exact ⟨rfl, rfl⟩
    · rw [counts.1, commit]
    · rw [counts.2, commit]
    · rw [State.commitFailed, State.raise_slot, stays, own]
    · rw [State.commitFailed, State.raise_slot, stays, own]
    · obtain ⟨failed, _⟩ := State.slotLeft_failsOver (s := y) (c := ch) (i := i) (reason := .rejected)
        (by rw [own]; exact named) (by rw [channel]; exact serving) (by rw [channel]; exact inPair) notReady
      rw [channel] at failed
      exact (failed.earlier (channel ch) (fun k other => (slots k).trans (becomes.others k other)) raisesX).later rfl rfl
        (.raise _ .refl)
    · rw [admitted] at notAdmitted
      cases notAdmitted
    · have failures : ((y.slotLeft i .rejected).commit i).failures = (s.commit i).failures := by
        have same := counts.1
        rw [commit] at same
        exact same
      rw [← failures]
      exact .after (raisesX.trans ((Undisturbed.refl y).slotLeft i .rejected).notices) (.now _ _)
    · have history : (y.slotLeft i .rejected).place p = y.place p := by
        rw [State.place, ((AccountsKept.refl y).slotLeft i .rejected).history]
        rfl
      rw [State.commitFailed, State.raise_place, history, ← marks]
      refine bars x ?_ (fun q => ?_) p e found here
      · rw [becomes.own]
      · rw [← rejects, State.rejectSlot_place, kept.place]
  · rw [if_neg admitted]
    have only := w.barEntry_history i
    have slots : ∀ k, (w.barEntry i).slot k = s.slot k := fun k => by
      rw [only]
      exact kept.slot k
    have barred : LeavesJobs (· ≠ i) w (w.barEntry i) := .of_eq (by rw [only]) (by rw [only]) (by rw [only])
    have commit' : (w.barEntry i).commit i = w.commit i := by rw [only]; rfl
    refine ⟨_, rfl, (leaves.trans barred).trans (.of_eq rfl rfl rfl), fun k => ?_, ?_, ?_,
      fun isAdmitted => (admitted isAdmitted).elim, fun _ => ?_, ?_, fun p e found here => ?_⟩
    · rw [State.commitFailed, State.raise_slot, slots]
      exact ⟨rfl, rfl⟩
    · rw [State.commitFailed, State.raise_commit, commit', commit]
    · rw [State.commitFailed, State.raise_commit, commit', commit]
    · rw [State.commitFailed, State.raise_slot, slots]
    · have failures : ((w.barEntry i).commit i).failures = (s.commit i).failures := by rw [commit', commit]
      have notices : (w.barEntry i).notices = s.notices := by rw [only]; exact quiet
      rw [← failures, ← notices]
      exact .now _ _
    · rw [State.commitFailed, State.raise_place]
      exact bars w (by rw [kept.slot]) kept.place p e found here

/-! ## The job's end -/

theorem exec_digestJobComplete {r : RunningJob} (running : s.engine.running = some r) (place : Option PlaceId) :
    exec (.digestJobComplete place) s = .next (s.jobDone r place).settle := by
  show execDigestJobComplete place s = _
  rw [execDigestJobComplete, running]

/-- R50: the result of a job that was not discarded is handed over, and the next job starts. -/
theorem State.jobDone_handed (s : State) (j : Job) (place : Option PlaceId) :
    s.jobDone ⟨j, false⟩ place = (s.handResult j (s.jobMatches j) place).startNextJob := rfl

theorem State.jobMatches_iff {root : Word128} (provisioned : s.keys.state = .provisioned root) (j : Job) :
    s.jobMatches j = true ↔
      Config.tagDigest (Config.cartridgeKey root j.serial j.makerLot) j.fields = j.tagValue := by
  rw [State.jobMatches, provisioned]
  exact beq_iff_eq

/-- Settles O52: the comparison, and what a match and a mismatch leave. -/
theorem receipt_is_checked : Obligations.Receipt_is_checked := by
  unfold Obligations.Receipt_is_checked
  intro s place
  refine ⟨fun idle => ?_, fun j v f root computed i running work own flight provisioned hcomputed => ?_⟩
  · show execDigestJobComplete place s = _
    rw [execDigestJobComplete, idle]
  have fields : j.fields = [j.serial.toNat, v, j.nonce.toNat] := by rw [Job.fields, work]
  have isMatch := State.jobMatches_iff provisioned j
  rw [fields, ← hcomputed] at isMatch
  have runs := (exec_digestJobComplete running place).trans
    (congrArg (fun u : State => Host.Outcome.next u.settle) (State.jobDone_handed s j place))
  have undisturbed : Undisturbed s ((s.handResult j (s.jobMatches j) place).startNextJob).settle :=
    (((Undisturbed.refl s).handResult j _ place).startNextJob).settle
  have hands : s.handResult j (s.jobMatches j) place =
      if s.jobMatches j = true then s.commitMatch i f else s.commitMismatch i f := by
    rw [State.handResult, work, own]
    simp only [flight]
  by_cases equal : computed = j.tagValue
  · obtain ⟨w, acts, leaves, record, failures, doubtful, entry⟩ := s.commitMatch_landed i f
    rw [if_pos (isMatch.2 equal), acts] at hands
    rw [hands] at runs undisturbed
    obtain ⟨slots, _, places, keptFailures, keptDoubtful, _⟩ := w.outcome_kept i
    refine ⟨_, runs, undisturbed, ((State.startNextJob_nextJob _ i).handed (leaves.trans (.actAgain w i))).settled,
      fun k other => ?_, fun _ => ⟨?_, ?_, ?_, ?_, ?_, fun p e found here => ?_⟩, fun differs => (differs equal).elim⟩
    · rw [slots, record.others k other]
      exact ⟨rfl, rfl⟩
    · rw [slots, record.own]
    · rw [slots, record.own]
    · rw [keptFailures, failures]
    · rw [keptDoubtful, doubtful]
    · rw [slots, record.own]
    · rw [places]
      exact entry p e found here
  · obtain ⟨w, acts, leaves, accounts, failures, doubtful, rejected, stays, notice, barred⟩ :=
      s.commitMismatch_mismatched i f
    rw [if_neg fun h => equal (isMatch.1 h), acts] at hands
    rw [hands] at runs undisturbed
    obtain ⟨slots, channels, places, keptFailures, keptDoubtful, raises⟩ := w.outcome_kept i
    refine ⟨_, runs, undisturbed, ((State.startNextJob_nextJob _ i).handed (leaves.trans (.actAgain w i))).settled,
      fun k _ => ?_, fun same => (equal same).elim, fun _ => ⟨?_, ?_, ?_, ?_, fun admitted => ?_, fun notAdmitted => ?_,
        ?_, fun p e found here => ?_⟩⟩
    · rw [slots]
      exact accounts k
    · rw [slots]
      exact (accounts i).1
    · rw [slots]
      exact (accounts i).2
    · rw [keptFailures, failures]
    · rw [keptDoubtful, doubtful]
    · obtain ⟨state, reason, failed⟩ := rejected admitted
      rw [slots]
      refine ⟨state, reason, fun ch named serving inPair => (failed ch named serving inPair).later channels ?_ raises⟩
      exact Vector.ext fun n small => slots ⟨n, small⟩
    · rw [slots]
      exact stays notAdmitted
    · rw [slots]
      exact notice.trans raises
    · rw [places]
      exact barred p e found here

end

end Sys2Proof.Machine

/-! PROOF. Attempts, and every end of a tag transaction but a description's (O51). -/

namespace Sys2Proof.Machine

section
variable {s t u v : State} {i j : SlotId} {l : LaneId} {x : Transaction} {frame : List Byte} {p : PlaceId}

/-! ## An entry of a lane stays or is taken -/

theorem searchWheel_oldest {n : Nat} {b : Bus} {q : List LaneEntry} {table : TableId} {w : Fin 16} {c : Choice}
    (h : searchWheel n b q table w = some c) : oldestOf q c.entry.laneClass = some c.entry := by
  induction n generalizing table w with
  | zero => cases h
  | succ n ih =>
    rw [searchWheel] at h
    split at h
    case h_1 e oldest =>
      cases h
      rw [(oldestOf_eq_some.1 oldest).1]
      exact oldest
    case h_2 => exact ih h

theorem State.chooseEntry_oldest {c : Choice} (h : s.chooseEntry l = some c) :
    oldestOf (s.lane l).queue c.entry.laneClass = some c.entry := by
  unfold State.chooseEntry at h
  dsimp only at h
  split at h
  case h_1 e chosen =>
    cases h
    split at chosen
    case isTrue =>
      rw [(oldestOf_eq_some.1 chosen).1]
      exact chosen
    case isFalse => cases chosen
  case h_2 => exact searchWheel_oldest h

/-- An entry of a queue from which the oldest of a class is taken is that one or stays. -/
theorem mem_eraseP_or {q : List LaneEntry} {e x : LaneEntry} (oldest : oldestOf q e.laneClass = some e) (member : x ∈ q) :
    x = e ∨ x ∈ q.eraseP fun y => y.laneClass = e.laneClass := by
  obtain ⟨_, before, after, rfl, first⟩ := oldestOf_eq_some.1 oldest
  rw [eraseP_chosen first]
  rcases List.mem_append.1 member with inBefore | later
  · exact .inr (List.mem_append_left _ inBefore)
  · rcases List.mem_cons.1 later with same | inAfter
    · exact .inl same
    · exact .inr (List.mem_append_right _ inAfter)

/-- An entry that is no pass-through stays in the queue or is on the wire after the lane has taken entries. -/
theorem State.takeEntryN_underWay (n : Nat) (s : State) (l : LaneId) {e : LaneEntry} (member : e ∈ (s.lane l).queue)
    (noPass : e.laneClass ≠ .pass) : (State.takeEntryN n s l).underWay l e := by
  induction n generalizing s with
  | zero => exact .inl member
  | succ n ih =>
    unfold State.takeEntryN
    split
    case isTrue empty =>
      rw [List.isEmpty_iff.1 empty] at member
      cases member
    case isFalse =>
      split
      case h_1 => exact .inl member
      case h_2 c chosen =>
        dsimp only
        have kept := mem_eraseP_or (State.chooseEntry_oldest chosen) member
        split
        case isTrue refused =>
          have stays := kept.resolve_left fun same => noPass (same ▸ refused.1)
          refine ih _ ?_
          unfold State.passDone
          split
          · rw [State.raise_lane, State.updLane_lane_same]
            exact stays
          · rw [State.updLane_lane_same]
            exact stays
        case isFalse =>
          unfold State.underWay
          rw [(State.startTransaction_spec _ l c.entry).1, State.updLane_lane_same]
          rcases kept with same | stays
          · exact .inr ⟨_, rfl, same.symm⟩
          · exact .inl stays

theorem State.laneFree_underWay {e : LaneEntry} (member : e ∈ (s.lane l).queue) (noPass : e.laneClass ≠ .pass) :
    (s.laneFree l).underWay l e := by
  refine State.takeEntryN_underWay _ _ l ?_ noPass
  rw [State.updLane_lane_same]
  exact member

/-- A lane that becomes free with nothing queued is IDLE. -/
theorem State.laneFree_idle (empty : (s.lane l).queue = []) : ((s.laneFree l).lane l).state = .idle := by
  rw [State.laneFree, State.takeEntry_empty]
  · rw [State.updLane_lane_same, Lane.takeUp_state, State.updLane_lane_same]
  · rw [State.updLane_lane_same]
    exact empty

/-- What the lane that becomes free keeps of the rest. -/
theorem State.laneFree_kept (s : State) (l : LaneId) :
    (∀ k, (s.laneFree l).slot k = s.slot k) ∧ (s.laneFree l).channels = s.channels ∧
      (s.laneFree l).slots = s.slots ∧ (s.laneFree l).history = s.history ∧
      (∀ k, ((s.laneFree l).commit k).failures = (s.commit k).failures ∧
        ((s.laneFree l).commit k).doubtful = (s.commit k).doubtful ∧
        ((s.laneFree l).commit k).again = (s.commit k).again) ∧
      (s.laneFree l).bus.wanted = s.bus.wanted ∧ Raises s.notices (s.laneFree l).notices := by
  have kept : RecordsKept s (s.laneFree l) := .laneFree (.refl s) l
  have work := s.laneFree_work l
  refine ⟨kept.slot, kept.channels, kept.slots, kept.history, fun k => ?_, by rw [work.only], work.raises⟩
  rcases work.commits k with same | sent
  · rw [same]
    exact ⟨rfl, rfl, rfl⟩
  · rw [sent]
    exact ⟨rfl, rfl, rfl⟩

/-! ## The attempts (R26, R27) -/

theorem State.transactionIn_none {phase : WirePhase}
    (h : ∀ x, (s.lane l).state = .onWire x → x.phase ≠ phase) : s.transactionIn l phase = none := by
  unfold State.transactionIn
  split
  case h_1 x onWire => exact if_neg (h x onWire)
  case h_2 => rfl

theorem exec_replyTimeout (onWire : (s.lane l).state = .onWire x) (waits : x.phase = .replyWait) :
    exec (.replyTimeout l) s = .next (s.attemptFailed l x).settle := by
  have here := State.transactionIn_eq onWire
  rw [waits] at here
  show execReplyTimeout l s = _
  rw [execReplyTimeout, here]

/-- A command that uses an attempt up: a timeout, or a frame that answers nothing. -/
theorem exec_attempt {c : Instr} (onWire : (s.lane l).state = .onWire x) (waits : x.phase = .replyWait)
    (attempt : c = .replyTimeout l ∨ ∃ frame, c = .laneReply l frame ∧ readReply x.entry frame = .failedAttempt) :
    exec c s = .next (s.attemptFailed l x).settle := by
  rcases attempt with rfl | ⟨frame, rfl, reads⟩
  · exact exec_replyTimeout onWire waits
  · rw [exec_laneReply onWire waits, reads]
    rfl

theorem State.attemptFailed_again (few : x.failedAttempts < 2) (waits : x.phase = .replyWait) :
    s.attemptFailed l x = s.updLane l fun lane => { lane with
      state := .onWire { x with failedAttempts := x.failedAttempts + 1 } } := by
  have record : ({ x with failedAttempts := x.failedAttempts + 1, phase := .replyWait } : Transaction) =
      { x with failedAttempts := x.failedAttempts + 1 } := by rw [← waits]
  rw [State.attemptFailed, record]
  exact if_pos (show x.failedAttempts + 1 < 3 by omega)

theorem State.attemptFailed_ends (last : 2 ≤ x.failedAttempts) :
    s.attemptFailed l x = s.transactionFailed l x .noResponse := by
  exact if_neg (show ¬x.failedAttempts + 1 < 3 by omega)

theorem State.busyReply_again (few : x.busyReplies < 8) :
    s.busyReply l x = s.updLane l fun lane => { lane with
      state := .onWire { x with busyReplies := x.busyReplies + 1, phase := .busyHoldOff } } := by
  exact if_pos (show x.busyReplies < 8 from few)

theorem State.busyReply_ends (last : 8 ≤ x.busyReplies) :
    s.busyReply l x = s.transactionFailed l x .noResponse := by
  exact if_neg (show ¬x.busyReplies < 8 by omega)

/-- An attempt that cannot be tried again ends the transaction. -/
theorem exec_transactionFailed {c : Instr} {why : TagFailure} (onWire : (s.lane l).state = .onWire x)
    (waits : x.phase = .replyWait)
    (ends : why = .noResponse ∧ 2 ≤ x.failedAttempts ∧
        (c = .replyTimeout l ∨ ∃ frame, c = .laneReply l frame ∧ readReply x.entry frame = .failedAttempt) ∨
      why = .noResponse ∧ 8 ≤ x.busyReplies ∧ (∃ frame, c = .laneReply l frame ∧ readReply x.entry frame = .busy) ∨
      ∃ frame code, c = .laneReply l frame ∧ readReply x.entry frame = .error code ∧ why = .tagError code) :
    exec c s = .next (s.transactionFailed l x why).settle := by
  rcases ends with ⟨rfl, last, attempt⟩ | ⟨rfl, last, frame, rfl, reads⟩ | ⟨frame, code, rfl, reads, rfl⟩
  · rw [exec_attempt onWire waits attempt, State.attemptFailed_ends last]
  · rw [exec_laneReply onWire waits, reads]
    exact congrArg (fun u : State => Host.Outcome.next u.settle) (State.busyReply_ends last)
  · rw [exec_laneReply onWire waits, reads]
    rfl

/-! ## A slot that is faulted and leaves -/

/-- A slot is faulted and has left: its record, its channel's failover, and what stays. -/
structure FaultLeft (s t : State) (i : SlotId) (why : FaultReason) : Prop where
  leaves : LeavesJobs (fun _ => True) s t
  own : t.slot i = { s.slot i with
    state := .faulted
    faultReason := some why }
  failed : ∀ ch, (s.slot i).channel = some ch → (s.channel ch).serving = some i → i ∈ (s.channel ch).pairSlots →
    FailedOver s t ch i .faulted (s.channel ch).reservations
  raises : Raises s.notices t.notices
  history : t.history = s.history

theorem State.faultSlot_left (s : State) (i : SlotId) (why : FaultReason) :
    FaultLeft s ((s.faultSlot i why).slotLeft i .faulted) i why := by
  have becomes := (RecordBecomes.refl s i).faultSlot why
  have faults : LeavesJobs (fun _ => True) s (s.faultSlot i why) := (LeavesJobs.moveSlot s i _).trans (.withdrawCommit _ i)
  have raises : Raises s.notices (s.faultSlot i why).notices := ((Undisturbed.refl s).faultSlot i why).notices
  have history : (s.faultSlot i why).history = s.history :=
    (RecordsKept.withdrawCommit (.refl (s.moveSlot i fun r => { r with
      state := .faulted
      faultReason := some why })) i).history
  generalize s.faultSlot i why = y at becomes faults raises history ⊢
  have notReady : (y.slot i).state ≠ .ready := by rw [becomes.own]; exact nofun
  have channel : ∀ d, y.channel d = s.channel d := fun d =>
    congrArg (fun w : Vector Channel 8 => w[d.val]) becomes.channels
  refine ⟨faults.trans (.slotLeft y i .faulted), ?_, fun ch named serving inPair => ?_,
    raises.trans ((Undisturbed.refl y).slotLeft i .faulted).notices,
    ((AccountsKept.refl y).slotLeft i .faulted).history.trans history⟩
  · rw [State.slotLeft_own y notReady, becomes.own]
  · obtain ⟨failed, _⟩ := State.slotLeft_failsOver (s := y) (c := ch) (i := i) (reason := .faulted)
      (by rw [becomes.own]; exact named) (by rw [channel]; exact serving) (by rw [channel]; exact inPair) notReady
    rw [channel] at failed
    exact failed.earlier (channel ch) becomes.others raises

/-! ## The outcomes of a commit's transaction (R111 to R113) -/

theorem State.actAgain_clear (h : (s.commit i).flight = none ∨ (s.slot i).state.isAdmitted = false) :
    ((s.actAgain i).commit i).again = .clear := by
  generalize clears : (s.updCommit i fun c => { c with again := .clear }) = w
  have clear : (w.commit i).again = .clear := by rw [← clears, State.updCommit_commit_same]
  have flight : (w.commit i).flight = (s.commit i).flight := by rw [← clears, State.updCommit_commit_same]
  have slot : w.slot i = s.slot i := by rw [← clears]; rfl
  have acts : ∀ forced, w.triggerActs i = true → ((w.actTrigger i forced).commit i).again = .clear := fun forced acts => by
    have idle : (w.commit i).flight = none := by
      rw [flight]
      refine h.resolve_right fun notAdmitted => ?_
      have admitted := ((State.triggerActs_iff w i).1 acts).1
      rw [slot, notAdmitted] at admitted
      cases admitted
    rw [State.actTrigger_idle idle]
    generalize takes : (w.nonceDrawn.updCommit i fun c => { c with flight := some (w.newFlight i .waiting) }) = z
    have again : (z.commit i).again = .clear := by
      rw [← takes, State.updCommit_commit_same]
      exact clear
    have sent := (State.enqueue_work z
      ⟨i, .odoAdvance ((w.slot i).committed + (w.slot i).uncommitted) (w.slot i).generation w.nextNonce, none⟩).commits i
    have here : w.takeCommit i = z.enqueue
      ⟨i, .odoAdvance ((w.slot i).committed + (w.slot i).uncommitted) (w.slot i).generation w.nextNonce, none⟩ := by
      rw [← takes]
      rfl
    rw [here]
    rcases sent with same | sent
    · rw [same, again]
    · rw [sent]
      exact again
  unfold State.actAgain
  dsimp only
  rw [clears]
  split
  · exact clear
  · unfold State.stepTrigger
    split
    · next holds => exact acts false holds.1
    · exact clear
  · unfold State.forcedTrigger
    split
    · next holds => exact acts true holds
    · exact clear

/-- What a commit's transaction leaves when it ends without a receipt, with the counts it gives and the fault it may
bring. -/
structure CommitEnded (s u : State) (i : SlotId) (count : Nat) (doubt : Option Nat) (fault : Option FaultReason)
    (cause : CommitCause) (advance : Nat) : Prop where
  failures : (u.commit i).failures = count
  doubtful : (u.commit i).doubtful = doubt
  again : (u.commit i).again = .clear
  history : u.history = s.history
  accounts : (u.slot i).committed = (s.slot i).committed ∧ (u.slot i).uncommitted = (s.slot i).uncommitted
  faulted : ∀ why, fault = some why → (u.slot i).state = .faulted ∧ (u.slot i).faultReason = some why ∧
    ∀ ch, (s.slot i).channel = some ch → (s.channel ch).serving = some i → i ∈ (s.channel ch).pairSlots →
      FailedOver s u ch i .faulted (s.channel ch).reservations
  stays : fault = none → u.slot i = s.slot i
  notice : Announced s.notices u.notices (.commitFailed i cause advance count (u.slot i).state)

/-- A slot is faulted and leaves, or not. -/
def State.faultLeaves (s : State) (i : SlotId) : Option FaultReason → State
  | some why => (s.faultSlot i why).slotLeft i .faulted
  | none => s

/-- The fault, the notice, the again flag and the lane's next entry, after the commit has left its phase. -/
theorem State.commitEnds {w : State} (kept : RecordsKept s w) (quiet : w.notices = s.notices)
    (idle : (w.commit i).flight = none) (fault : Option FaultReason) (cause : CommitCause) (advance : Nat) :
    CommitEnded s ((((w.faultLeaves i fault).commitFailed i cause advance).actAgain i).laneFree l) i (w.commit i).failures (w.commit i).doubtful
      fault cause advance := by
  generalize hv : w.faultLeaves i fault = v
  have slots := fun k => kept.slot k
  have channel := fun d => kept.channel d
  have spec : (v.commit i).failures = (w.commit i).failures ∧ (v.commit i).doubtful = (w.commit i).doubtful ∧
      v.history = s.history ∧ Raises s.notices v.notices ∧
      ((v.slot i).committed = (s.slot i).committed ∧ (v.slot i).uncommitted = (s.slot i).uncommitted) ∧
      ((v.commit i).flight = none ∨ (v.slot i).state.isAdmitted = false) ∧ (fault = none → v.slot i = s.slot i) ∧
      ∀ why, fault = some why → (v.slot i).state = .faulted ∧ (v.slot i).faultReason = some why ∧
        ∀ ch, (s.slot i).channel = some ch → (s.channel ch).serving = some i → i ∈ (s.channel ch).pairSlots →
          FailedOver s v ch i .faulted (s.channel ch).reservations := by
    cases fault with
    | none =>
      have here : w = v := hv
      subst here
      exact ⟨rfl, rfl, kept.history, quiet ▸ .refl, by rw [slots]; exact ⟨rfl, rfl⟩, .inl idle, fun _ => slots i, nofun⟩
    | some why =>
      have left := w.faultSlot_left i why
      have here : (w.faultSlot i why).slotLeft i .faulted = v := hv
      rw [here] at left
      obtain ⟨failures, doubtful⟩ := left.leaves.counts i trivial
      refine ⟨failures, doubtful, left.history.trans kept.history, quiet ▸ left.raises, ?_, .inr ?_, nofun,
        fun y same => ⟨?_, ?_, fun ch named serving inPair => ?_⟩⟩
      · rw [left.own, slots]
        exact ⟨rfl, rfl⟩
      · rw [left.own]
        rfl
      · rw [left.own]
      · rw [left.own]
        exact same
      · have failed := left.failed ch (by rw [slots]; exact named) (by rw [channel]; exact serving)
          (by rw [channel]; exact inPair)
        rw [channel] at failed
        exact failed.earlier (channel ch) (fun k _ => slots k) (quiet ▸ .refl)
  obtain ⟨failures, doubtful, history, raises, accounts, clears, stays, faulted⟩ := spec
  generalize raised : v.commitFailed i cause advance = n
  have keptN : RecordsKept v (n.actAgain i) := by
    rw [← raised]
    exact .actAgain (.raise (.refl v) _) i
  have countsN : LeavesJobs (fun _ => True) n (n.actAgain i) := .actAgain n i
  have commitN : n.commit i = v.commit i := by rw [← raised]; rfl
  have slotN : n.slot i = v.slot i := by rw [← raised]; rfl
  have again : ((n.actAgain i).commit i).again = .clear := State.actAgain_clear (by rw [commitN, slotN]; exact clears)
  have announced : Announced s.notices (n.actAgain i).notices
      (.commitFailed i cause advance (w.commit i).failures (v.slot i).state) := by
    rw [← failures]
    refine .trans (.after raises ?_) ((Undisturbed.refl n).actAgain i).notices
    rw [← raised]
    exact .now _ _
  have raisesN : Raises v.notices (n.actAgain i).notices := by
    refine Raises.trans ?_ ((Undisturbed.refl n).actAgain i).notices
    rw [← raised]
    exact .raise _ .refl
  obtain ⟨failuresN, doubtfulN⟩ := countsN.counts i trivial
  rw [commitN] at failuresN doubtfulN
  generalize n.actAgain i = m at keptN again announced raisesN failuresN doubtfulN ⊢
  obtain ⟨freeSlots, freeChannels, freeSlots', freeHistory, freeCounts, _, freeRaises⟩ := m.laneFree_kept l
  obtain ⟨freeFailures, freeDoubtful, freeAgain⟩ := freeCounts i
  have slot : (m.laneFree l).slot i = v.slot i := (freeSlots i).trans (keptN.slot i)
  refine ⟨freeFailures.trans (failuresN.trans failures), freeDoubtful.trans (doubtfulN.trans doubtful),
    freeAgain.trans again, freeHistory.trans (keptN.history.trans history), by rw [slot]; exact accounts,
    fun why same => ?_, fun same => slot.trans (stays same), by rw [slot]; exact announced.trans freeRaises⟩
  obtain ⟨state, reason, failed⟩ := faulted why same
  rw [slot]
  exact ⟨state, reason, fun ch named serving inPair => (failed ch named serving inPair).later
    (freeChannels.trans keptN.channels) (freeSlots'.trans keptN.slots) (raisesN.trans freeRaises)⟩

/-- R112: a commit whose transaction fails. -/
theorem State.commitTransactionFailed_ended (s : State) (i : SlotId) (f : Flight) (cause : CommitCause) (l : LaneId) :
    CommitEnded s ((s.commitTransactionFailed i f cause).laneFree l) i (min 3 ((s.commit i).failures + 1))
      (some (max ((s.commit i).doubtful.getD 0) f.advance))
      (if (s.slot i).state.isAdmitted = true ∧ 2 ≤ (s.commit i).failures then some .commitFailed else none) cause
      f.advance := by
  generalize lands : ((s.landed i).updCommit i fun c =>
    { c with
      doubtful := raisedDoubt c.doubtful f.advance
      failures := min Config.commitFailures (c.failures + 1) }) = w
  have kept : RecordsKept s w := by
    rw [← lands]
    exact .updCommit (.landed (.refl s) i) i _
  have commit : w.commit i = ⟨none, (s.commit i).again, min 3 ((s.commit i).failures + 1),
      some (max ((s.commit i).doubtful.getD 0) f.advance)⟩ := by
    rw [← lands, State.updCommit_commit_same, State.landed, State.updCommit_commit_same, raisedDoubt_eq]
    rfl
  have faults : (w.slot i).state.isAdmitted = true ∧ (w.commit i).failures = Config.commitFailures ↔
      (s.slot i).state.isAdmitted = true ∧ 2 ≤ (s.commit i).failures := by
    have last : min 3 ((s.commit i).failures + 1) = 3 ↔ 2 ≤ (s.commit i).failures := by omega
    rw [kept.slot, commit, ← last]
    rfl
  have ended := State.commitEnds (l := l) kept (by rw [← lands]; rfl) (by rw [commit])
    (if (s.slot i).state.isAdmitted = true ∧ 2 ≤ (s.commit i).failures then some .commitFailed else none) cause f.advance
  rw [commit] at ended
  have here : s.commitTransactionFailed i f cause = ((w.faultLeaves i
      (if (s.slot i).state.isAdmitted = true ∧ 2 ≤ (s.commit i).failures then some .commitFailed else none)).commitFailed
        i cause f.advance).actAgain i := by
    unfold State.commitTransactionFailed
    dsimp only
    rw [lands]
    by_cases fault : (s.slot i).state.isAdmitted = true ∧ 2 ≤ (s.commit i).failures
    · rw [if_pos (faults.2 fault), if_pos fault]
      rfl
    · rw [if_neg fun h => fault (faults.1 h), if_neg fault]
      rfl
  rw [here]
  exact ended

/-- R111: a commit that the tag refused. -/
theorem State.commitRefused_ended (s : State) (i : SlotId) (f : Flight) (l : LaneId) :
    CommitEnded s ((s.commitRefused i f).laneFree l) i (s.commit i).failures (s.commit i).doubtful
      (if (s.slot i).state.isAdmitted = true then some .odometerAhead else none) .odometerAhead f.advance := by
  have commit : (s.landed i).commit i = { s.commit i with flight := none } := by
    rw [State.landed, State.updCommit_commit_same]
  have ended := State.commitEnds (l := l) (RecordsKept.landed (.refl s) i) rfl (by rw [commit])
    (if (s.slot i).state.isAdmitted = true then some .odometerAhead else none) .odometerAhead f.advance
  rw [commit] at ended
  have here : s.commitRefused i f = (((s.landed i).faultLeaves i
      (if (s.slot i).state.isAdmitted = true then some .odometerAhead else none)).commitFailed
        i .odometerAhead f.advance).actAgain i := by
    unfold State.commitRefused
    dsimp only
    by_cases admitted : (s.slot i).state.isAdmitted = true
    · rw [if_pos admitted, if_pos admitted]
      rfl
    · rw [if_neg admitted, if_neg admitted]
      rfl
  rw [here]
  exact ended

/-! ## The end of a MARK (R32) -/

/-- The mark that is not `m`. -/
def TagMark.other : TagMark → TagMark
  | .spent => .refill
  | .refill => .spent

theorem WantedMarks.has_set (w : WantedMarks) (m : TagMark) (v : Bool) :
    (w.set m v).has m = v ∧ (w.set m v).has m.other = w.has m.other := by
  cases m with
  | spent => exact ⟨rfl, rfl⟩
  | refill => exact ⟨rfl, rfl⟩

/-- A MARK that ends leaves the wanted set; a wanted other one that the description does not show is queued. -/
theorem State.markEnded_spec (m : TagMark) (onWire : (s.lane (laneOf i)).state = .onWire x) :
    RecordsKept s (s.markEnded i m) ∧ ((s.markEnded i m).bus.wanted[i.val]).has m = false ∧
      ((s.bus.wanted[i.val]).has m.other = true → (s.slot i).shows m.other = false →
        (⟨i, .mark m.other, none⟩ : LaneEntry) ∈ ((s.markEnded i m).lane (laneOf i)).queue) := by
  generalize clears : s.setWanted i m false = w
  have wanted : w.bus.wanted[i.val] = (s.bus.wanted[i.val]).set m false := by
    rw [← clears]
    exact Vector.getElem_set_self ..
  have lane : w.lane (laneOf i) = s.lane (laneOf i) := by rw [← clears]; rfl
  have slot : w.slot i = s.slot i := by rw [← clears]; rfl
  obtain ⟨has, hasOther⟩ := (s.bus.wanted[i.val]).has_set m false
  have here : s.markEnded i m =
      if (w.bus.wanted[i.val]).has m.other = true ∧ (w.slot i).shows m.other = false then
        w.enqueue ⟨i, .mark m.other, none⟩
      else w := by
    unfold State.markEnded
    rw [clears]
    cases m with
    | spent => rfl
    | refill => rfl
  have joins : w.enqueue ⟨i, .mark m.other, none⟩ = w.updLane (laneOf i) fun lane =>
      { lane with queue := lane.queue ++ [⟨i, .mark m.other, none⟩] } :=
    State.enqueue_busy (e := ⟨i, .mark m.other, none⟩) fun idle => by
      rw [lane, onWire] at idle
      cases idle
  refine ⟨.markEnded (.refl s) i m, ?_, fun isWanted hidden => ?_⟩
  · rw [here]
    split
    · rw [joins]
      show (w.bus.wanted[i.val]).has m = false
      rw [wanted, has]
    · rw [wanted, has]
  · rw [here, if_pos ⟨by rw [wanted, hasOther]; exact isWanted, by rw [slot]; exact hidden⟩, joins,
      State.updLane_lane_same]
    exact List.mem_append_right _ (List.mem_singleton_self _)

/-! ## A pass-through's end (R45) -/

theorem State.passDone_ended {e : LaneEntry} {ticket : Nat} (status : PassStatus) (has : e.ticket = some ticket) :
    s.passDone e status = s.raise (.passthroughDone e.slot ticket status) := by
  rw [State.passDone, has]

theorem State.passDone_freed {e : LaneEntry} {ticket : Nat} (status : PassStatus) (has : e.ticket = some ticket)
    (l : LaneId) :
    RecordsKept s ((s.passDone e status).laneFree l) ∧
      ((s.lane l).queue = [] → (((s.passDone e status).laneFree l).lane l).state = .idle) ∧
      Announced s.notices ((s.passDone e status).laneFree l).notices (.passthroughDone e.slot ticket status) := by
  rw [State.passDone_ended status has]
  exact ⟨.laneFree (.raise (.refl s) _) l, fun empty => State.laneFree_idle empty,
    (Announced.now s.notices _).trans (State.laneFree_work (s.raise _) l).raises⟩

/-! ## A transaction that fails (R16, R28) -/

theorem State.transactionFailed_handed {why : TagFailure} (handsOver : x.abandoned = false) :
    s.transactionFailed l x why = (s.handFailure x.entry why).laneFree l := by
  rw [State.transactionFailed, handsOver]
  rfl

/-- R16: a failed DESCRIBE or CHALLENGE. -/
theorem State.admissionFailed_freed (s : State) (i : SlotId) (reason : FaultReason) :
    ((s.lane (laneOf i)).queue = [] → (((s.admissionFailed i reason).laneFree (laneOf i)).lane (laneOf i)).state = .idle) ∧
      ((s.admissionFailed i reason).laneFree (laneOf i)).slots =
        if (s.slot i).state = .reading ∨ (s.slot i).state = .verifying then
          s.slots.set i.val { s.slot i with
            state := .faulted
            faultReason := some reason } i.isLt
        else s.slots := by
  have freed := fun v : State => (v.laneFree_kept (laneOf i)).2.2.1
  unfold State.admissionFailed
  split
  · refine ⟨fun empty => State.laneFree_idle ?_, ?_⟩
    · unfold State.faultSlot State.withdrawCommit
      split
      · split
        · rw [State.updCommit_lane, State.dropEntries, State.updLane_lane_same]
          show List.filter _ (s.lane (laneOf i)).queue = []
          rw [empty]
          rfl
        · exact empty
      · exact empty
    · rw [freed]
      exact (RecordsKept.withdrawCommit (.refl (s.moveSlot i fun r => { r with
        state := .faulted
        faultReason := some reason })) i).slots
  · exact ⟨fun empty => State.laneFree_idle empty, freed s⟩

theorem State.handFailure_admission {e : LaneEntry} {why : TagFailure} (own : e.slot = i)
    (command : e.command = .describe ∨ ∃ nonce, e.command = .challenge nonce) :
    s.handFailure e why = s.admissionFailed i why.faultReason := by
  unfold State.handFailure
  rcases command with describe | ⟨nonce, challenge⟩
  · rw [describe, own]
  · rw [challenge, own]

theorem State.handFailure_pass {e : LaneEntry} {why : TagFailure}
    (command : (∃ address n, e.command = .memRead address n) ∨ ∃ address bytes, e.command = .memWrite address bytes) :
    s.handFailure e why = s.passDone e (.failed why.passFailure) := by
  unfold State.handFailure
  rcases command with ⟨address, n, read⟩ | ⟨address, bytes, write⟩
  · rw [read]
  · rw [write]

/-! ## An answer or a receipt (R34, R56) -/

/-- What a job that a lane offers with room in the queue does. -/
theorem State.offerJob_joins {j : Job} (room : s.engine.queue.length < 8) :
    s.offerJob l j = (s.joinEngine j).laneFree l := if_pos room

theorem State.offerJob_held {j : Job} (full : 8 ≤ s.engine.queue.length) :
    s.offerJob l j = { s.updLane l fun lane => { lane with state := .held j } with
      engine := { s.engine with heldLanes := s.engine.heldLanes ++ [l] } } :=
  if_neg (Nat.not_lt.2 full)

theorem State.joinEngine_engineJoin (s : State) (j : Job) :
    (s.joinEngine j).engine = s.engine.join j ∧ (∀ l, (s.joinEngine j).lane l = s.lane l) ∧
      ∀ v f, j.work = .verifyReceipt v → (s.commit j.slot).flight = some f →
        (s.joinEngine j).commit j.slot = { s.commit j.slot with flight := some { f with phase := .checking } } := by
  unfold State.joinEngine State.commitChecking
  split
  case h_1 =>
    refine ⟨rfl, fun _ => rfl, fun v f _ flight => ?_⟩
    rw [State.updCommit_commit_same]
    show ({ s.commit j.slot with flight := (s.commit j.slot).flight.map _ } : CommitState) = _
    rw [flight]
    rfl
  case h_2 challenge =>
    refine ⟨rfl, fun _ => rfl, fun v f receipt _ => ?_⟩
    rw [challenge] at receipt
    cases receipt

/-- Settles O51: an attempt tried again, the transaction's failures, and the replies that end it. -/
theorem lane_attempts : Obligations.Lane_attempts := by
  unfold Obligations.Lane_attempts
  intro s l
  refine ⟨fun quiet => ⟨?_, fun frame => ?_⟩, fun quiet => ?_, fun x onWire holds => ?_, fun x onWire waits =>
    ⟨fun c attempt few => ?_, fun frame busy few => ?_, fun c i why own lane ends => ?_,
      fun frame reply i own lane reads => ?_⟩⟩
  · show execReplyTimeout l s = _
    rw [execReplyTimeout, State.transactionIn_none quiet]
  · show execLaneReply l frame s = _
    rw [execLaneReply, State.transactionIn_none quiet]
  · show execBusyHoldOffExpiry l s = _
    rw [execBusyHoldOffExpiry, State.transactionIn_none quiet]
  · have here := State.transactionIn_eq onWire
    rw [holds] at here
    show execBusyHoldOffExpiry l s = _
    rw [execBusyHoldOffExpiry, here]
    rfl
  · rw [exec_attempt onWire waits attempt, State.attemptFailed_again few waits]
  · rw [exec_laneReply onWire waits, busy]
    exact congrArg (fun u : State => Host.Outcome.next u.settle) (State.busyReply_again few)
  · subst own
    subst lane
    refine ⟨_, exec_transactionFailed onWire waits ends, (Undisturbed.refl s).transactionFailed _ x why, fun abandoned => ?_,
      fun handsOver command => ?_, fun v g n f handsOver command flight => ?_,
      fun m other handsOver command pair => ?_, fun ticket handsOver has command => ?_⟩
    · rw [State.transactionFailed, abandoned]
      rfl
    · rw [State.transactionFailed_handed handsOver, State.handFailure_admission rfl command]
      have reason : why.faultReason = if why = .noResponse then .noResponse else .tagError := by
        cases why with
        | noResponse => rfl
        | tagError code => exact (if_neg nofun).symm
      rw [← reason]
      exact State.admissionFailed_freed s x.entry.slot why.faultReason
    · have hands : s.handFailure x.entry why = s.commitTransactionFailed x.entry.slot f why.commitCause := by
        unfold State.handFailure
        rw [command]
        simp only [flight]
      rw [State.transactionFailed_handed handsOver, hands]
      have ended := State.commitTransactionFailed_ended s x.entry.slot f why.commitCause (laneOf x.entry.slot)
      refine ⟨ended.failures, ended.doubtful, ended.again, ended.accounts.1, ended.accounts.2, fun faults => ?_,
        fun harmless => ?_, ?_⟩
      · exact ended.faulted _ (if_pos faults)
      · refine ended.stays (if_neg ?_)
        rintro ⟨admitted, third⟩
        rcases harmless with notAdmitted | few
        · rw [admitted] at notAdmitted
          cases notAdmitted
        · omega
      · have announced := ended.notice
        cases why with
        | noResponse => exact announced
        | tagError code => exact announced
    · have hands : s.handFailure x.entry why = s.markEnded x.entry.slot m := by
        unfold State.handFailure
        rw [command]
      obtain rfl : other = m.other := by
        rcases pair with ⟨rfl, rfl⟩ | ⟨rfl, rfl⟩
        · rfl
        · rfl
      rw [State.transactionFailed_handed handsOver, hands]
      obtain ⟨kept, gone, queued⟩ := State.markEnded_spec m onWire
      obtain ⟨_, _, _, _, _, wanted, _⟩ := (s.markEnded x.entry.slot m).laneFree_kept (laneOf x.entry.slot)
      refine ⟨.laneFree kept _, ?_, fun isWanted hidden => ?_⟩
      · simp only [wanted]
        exact gone
      · exact State.laneFree_underWay (queued isWanted hidden) nofun
    · rw [State.transactionFailed_handed handsOver, State.handFailure_pass command]
      have freed := State.passDone_freed (s := s) (.failed why.passFailure) has (laneOf x.entry.slot)
      cases why with
      | noResponse => exact freed
      | tagError code => exact freed
  · subst own
    subst lane
    have runs : exec (.laneReply (laneOf x.entry.slot) frame) s =
        .next (s.transactionDone (laneOf x.entry.slot) x reply).settle := by
      rw [exec_laneReply onWire waits, reads]
      rfl
    refine ⟨_, runs, (Undisturbed.refl s).transactionDone _ x reply onWire, fun abandoned => ?_,
      fun v g n f handsOver command refused flight => ?_, fun m handsOver command ack => ?_,
      fun ticket status handsOver has ended => ?_, fun w d j handsOver answer described job => ?_⟩
    · unfold State.transactionDone
      rw [abandoned]
      rfl
    · have hands : s.handReply x.entry .refusedDecrease = s.commitRefused x.entry.slot f := by
        unfold State.handReply
        rw [command]
        simp only [flight]
      rw [refused, State.transactionDone_handed (reply := .refusedDecrease) handsOver fun _ answer => (nomatch answer), hands]
      have ended := State.commitRefused_ended s x.entry.slot f (laneOf x.entry.slot)
      refine ⟨ended.failures, ended.doubtful, ended.again, ended.history, ended.accounts.1, ended.accounts.2,
        fun admitted => ended.faulted _ (if_pos admitted), fun notAdmitted => ended.stays (if_neg ?_), ended.notice⟩
      rw [notAdmitted]
      exact Bool.noConfusion
    · have hands : s.handReply x.entry .ack = (s.markWritten x.entry.slot m).markEnded x.entry.slot m := by
        unfold State.handReply
        rw [command]
      rw [ack, State.transactionDone_handed (reply := .ack) handsOver fun _ answer => (nomatch answer), hands]
      obtain ⟨kept, gone, _⟩ := State.markEnded_spec (s := s.markWritten x.entry.slot m) m
        (show ((s.markWritten x.entry.slot m).lane _).state = _ from onWire)
      obtain ⟨_, _, slots, _, _, wanted, _⟩ :=
        ((s.markWritten x.entry.slot m).markEnded x.entry.slot m).laneFree_kept (laneOf x.entry.slot)
      refine ⟨by simp only [wanted]; exact gone, ?_⟩
      rw [slots, kept.slots]
      cases m with
      | spent => rfl
      | refill => rfl
    · have hands : s.handReply x.entry reply = s.passDone x.entry status ∧ ∀ w, reply ≠ .answer w := by
        unfold State.handReply
        rcases ended with ⟨address, bytes, command, rfl, rfl⟩ | ⟨address, n, bytes, command, rfl, rfl⟩
        · rw [command]
          exact ⟨rfl, fun _ answer => (nomatch answer)⟩
        · rw [command]
          exact ⟨rfl, fun _ answer => (nomatch answer)⟩
      rw [State.transactionDone_handed handsOver hands.2, hands.1]
      exact State.passDone_freed status has _
    · have offers : s.transactionDone (laneOf x.entry.slot) x reply = s.offerJob (laneOf x.entry.slot) j := by
        have jobs : s.jobOf x.entry w = some j := by
          unfold State.jobOf
          rw [described]
          rcases job with ⟨nonce, command, rfl⟩ | ⟨v, g, nonce, command, rfl⟩
          · rw [command]
          · rw [command]
        unfold State.transactionDone
        rw [handsOver, answer]
        simp only [jobs]
        rfl
      have ownJob : j.slot = x.entry.slot := by
        rcases job with ⟨nonce, command, rfl⟩ | ⟨v, g, nonce, command, rfl⟩
        · rfl
        · rfl
      rw [offers]
      obtain ⟨engine, lanes, checking⟩ := s.joinEngine_engineJoin j
      refine ⟨.offerJob (.refl s) _ j, fun room => ?_, fun full => State.offerJob_held full⟩
      rw [State.offerJob_joins room]
      refine ⟨?_, fun empty => State.laneFree_idle ((lanes _).symm ▸ empty), fun f commit flight clear => ?_⟩
      · rw [State.laneFree_engine]
        exact engine
      · have receipt : ∃ v, j.work = .verifyReceipt v := by
          rcases job with ⟨nonce, command, rfl⟩ | ⟨v, g, nonce, command, rfl⟩
          · rw [LaneEntry.laneClass, command] at commit
            cases commit
          · exact ⟨v, rfl⟩
        obtain ⟨v, work⟩ := receipt
        rw [State.laneFree_commit _ _ (by rw [lanes]; exact clear), ← ownJob]
        exact checking v f work (ownJob ▸ flight)

end

end Sys2Proof.Machine

/-! PROOF. The recency stamps (R173), the choice of an entry by its stamp (R183), and the reconciliation of an answer
(O53). -/

namespace Sys2Proof.Machine

section
variable {s t u : State} {i : SlotId} {p q : PlaceId}

/-! ## What a placing in the store queue and a write of a place leave -/

/-- The store queue alone changes. -/
structure QueueOnly (s t : State) : Prop where
  only : t = { s with history := t.history }
  place : ∀ q, t.place q = s.place q
  recency : t.history.recency = s.history.recency
  forfeited : t.history.forfeited = s.history.forfeited

theorem QueueOnly.refl (s : State) : QueueOnly s s := ⟨rfl, fun _ => rfl, rfl, rfl⟩

theorem QueueOnly.trans (h : QueueOnly s t) (k : QueueOnly t u) : QueueOnly s u where
  only := by rw [k.only, h.only]
  place q := (k.place q).trans (h.place q)
  recency := k.recency.trans h.recency
  forfeited := k.forfeited.trans h.forfeited

theorem State.placeStored_queueOnly (s : State) (p : PlaceId) (urgent : Bool) : QueueOnly s (s.placeStored p urgent) := by
  unfold State.placeStored
  refine ⟨rfl, fun q => ?_, ?_, ?_⟩
  · show (History.placed _ p _).places[q.val] = _
    rw [History.placed_places]
    rfl
  · show (History.placed _ p _).recency = _
    rw [History.placed_places]
  · show (History.placed _ p _).forfeited = _
    rw [History.placed_places]

theorem State.foldl_placeStored (order : List PlaceId) (s : State) :
    QueueOnly s (order.foldl (fun s p => s.placeStored p false) s) := by
  induction order generalizing s with
  | nil => exact .refl s
  | cons p rest ih => exact (s.placeStored_queueOnly p false).trans (ih _)

/-- What a write of a place leaves beside the place and the store queue. -/
theorem State.writePlace_counts (s : State) (p : PlaceId) (e : Option HistoryEntry) (urgent : Bool) :
    s.writePlace p e urgent = { s with history := (s.writePlace p e urgent).history } ∧
      (s.writePlace p e urgent).history.recency = s.history.recency ∧
      (s.writePlace p e urgent).history.forfeited = s.history.forfeited := by
  obtain ⟨only, _, recency, forfeited⟩ :=
    (s.updHistory fun h => { h with places := modifyAt h.places p fun _ => e }).placeStored_queueOnly p urgent
  exact ⟨only, recency, forfeited⟩

theorem State.editEntry_counts (s : State) (p : PlaceId) (f : HistoryEntry → HistoryEntry) (urgent : Bool) :
    (s.editEntry p f urgent).history.recency = s.history.recency ∧
      (s.editEntry p f urgent).history.forfeited = s.history.forfeited := by
  unfold State.editEntry
  split
  case h_1 e _ => exact (s.writePlace_counts p (some (f e)) urgent).2
  case h_2 => exact ⟨rfl, rfl⟩

/-! ## The next stamp (R173) -/

/-- The counter after its next bump. -/
def History.nextStamp (h : History) : Nat := (if h.recency = 4294967295 then h.count else h.recency) + 1

/-- The stamp an entry of place `q` has after the counter's next bump. -/
def History.restamped (h : History) (q : PlaceId) (x : HistoryEntry) : HistoryEntry :=
  { x with stamp := if h.recency = 4294967295 then h.rank q x.stamp else x.stamp }

/-- R173: a bump of the counter, with the renumbering before it when the counter is at its maximum. -/
structure Stamped (s t : State) : Prop where
  only : t = { s with history := t.history }
  recency : t.history.recency = s.history.nextStamp
  forfeited : t.history.forfeited = s.history.forfeited
  place : ∀ q, t.place q = (s.place q).map (s.history.restamped q)

/-- The table with its entries renumbered. -/
def State.renumbered (s : State) (rank : PlaceId → Nat → Nat) (count : Nat) : State :=
  s.updHistory fun h =>
    { h with
      places := Vector.ofFn fun q => h.places[q.val].map fun x => { x with stamp := rank q x.stamp }
      recency := count }

theorem State.renumber_eq (s : State) :
    s.renumber = (State.byStamp 64 s fun _ _ => true).foldl (fun s p => s.placeStored p false)
      (s.renumbered s.history.rank s.history.count) := rfl

theorem State.renumbered_place (s : State) (rank : PlaceId → Nat → Nat) (count : Nat) (q : PlaceId) :
    (s.renumbered rank count).place q = (s.place q).map fun x => { x with stamp := rank q x.stamp } :=
  Vector.getElem_ofFn ..

theorem State.renumbered_forfeited (s : State) (rank : PlaceId → Nat → Nat) (count : Nat) :
    (s.renumbered rank count).history.forfeited = s.history.forfeited := by
  unfold State.renumbered State.updHistory
  dsimp only

theorem State.renumbered_with (s : State) (rank : PlaceId → Nat → Nat) (count : Nat) (h : History) :
    { s.renumbered rank count with history := h } = { s with history := h } := by
  unfold State.renumbered State.updHistory
  dsimp only

theorem State.renumbered_recency (s : State) (rank : PlaceId → Nat → Nat) (count : Nat) :
    (s.renumbered rank count).history.recency = count := by
  unfold State.renumbered State.updHistory
  dsimp only

theorem State.renumber_queueOnly (s : State) : QueueOnly (s.renumbered s.history.rank s.history.count) s.renumber := by
  rw [State.renumber_eq]
  exact State.foldl_placeStored _ _

theorem State.stamped (s : State) : Stamped s s.roomForStamp.stampTaken := by
  unfold State.roomForStamp
  split
  case isTrue full =>
    have full : s.history.recency = 4294967295 := full
    obtain ⟨only, place, recency, forfeited⟩ := s.renumber_queueOnly
    rw [State.renumbered_with] at only
    rw [State.renumbered_recency] at recency
    rw [State.renumbered_forfeited] at forfeited
    simp only [State.renumbered_place] at place
    generalize s.renumber = v at only place recency forfeited ⊢
    refine ⟨congrArg State.stampTaken only, ?_, forfeited, fun q => ?_⟩
    · show v.history.recency + 1 = _
      rw [recency, History.nextStamp, if_pos full]
    · show v.place q = _
      rw [place]
      unfold History.restamped
      simp only [full, if_pos]
  case isFalse room =>
    have room : ¬s.history.recency = 4294967295 := room
    refine ⟨rfl, ?_, rfl, fun q => ?_⟩
    · rw [History.nextStamp, if_neg room]
      rfl
    · have same : s.history.restamped q = id := by
        funext x
        rw [History.restamped, if_neg room]
        rfl
      rw [same, Option.map_id]
      rfl

/-! ## The entry with the lowest stamp (R183) -/

/-- A step of the search for the lowest stamp. -/
def State.lowerStamp (s : State) (ok : PlaceId → HistoryEntry → Bool) (best : Option (PlaceId × Nat)) (p : PlaceId) :
    Option (PlaceId × Nat) :=
  match s.place p with
  | some e =>
    if ok p e then
      match best with
      | some (q, t) => if e.stamp < t then some (p, e.stamp) else some (q, t)
      | none => some (p, e.stamp)
    else best
  | none => best

theorem State.nextByStamp_eq (s : State) (ok : PlaceId → HistoryEntry → Bool) :
    s.nextByStamp ok = ((List.finRange 64).foldl (s.lowerStamp ok) none).map Prod.fst := rfl

/-- A place that holds no candidate leaves the best so far. -/
theorem State.lowerStamp_passes {ok : PlaceId → HistoryEntry → Bool} (passed : ∀ x, s.place p = some x → ok p x = false)
    (best : Option (PlaceId × Nat)) : s.lowerStamp ok best p = best := by
  unfold State.lowerStamp
  split
  case h_1 e here => rw [passed e here]; rfl
  case h_2 => rfl

theorem State.nextByStamp_none {ok : PlaceId → HistoryEntry → Bool}
    (noneOk : ∀ q x, s.place q = some x → ok q x = false) : s.nextByStamp ok = none := by
  rw [State.nextByStamp_eq]
  suffices h : ∀ l : List PlaceId, l.foldl (s.lowerStamp ok) none = none by rw [h]; rfl
  intro l
  induction l with
  | nil => rfl
  | cons q rest ih => rw [List.foldl_cons, State.lowerStamp_passes (noneOk q)]; exact ih

/-- No candidate so far, or one with a higher stamp. -/
def Above (stamp : Nat) (best : Option (PlaceId × Nat)) : Prop := ∀ q t, best = some (q, t) → stamp < t

theorem State.lowerStamp_above {ok : PlaceId → HistoryEntry → Bool} {stamp : Nat}
    (higher : ∀ x, s.place p = some x → ok p x = true → stamp < x.stamp) {best : Option (PlaceId × Nat)}
    (above : Above stamp best) : Above stamp (s.lowerStamp ok best p) := by
  unfold State.lowerStamp
  split
  case h_1 e here =>
    split
    case isTrue candidate =>
      have new : Above stamp (some (p, e.stamp)) := by
        rintro q t same
        cases same
        exact higher e here candidate
      cases best with
      | none => exact new
      | some b =>
        dsimp only
        split
        · exact new
        · exact above
    case isFalse => exact above
  case h_2 => exact above

theorem State.lowerStamp_keeps {ok : PlaceId → HistoryEntry → Bool} {stamp : Nat}
    (higher : ∀ x, s.place q = some x → ok q x = true → stamp < x.stamp) :
    s.lowerStamp ok (some (p, stamp)) q = some (p, stamp) := by
  unfold State.lowerStamp
  split
  case h_1 e here =>
    split
    case isTrue candidate => exact if_neg (Nat.lt_asymm (higher e here candidate))
    case isFalse => rfl
  case h_2 => rfl

theorem State.lowerStamp_takes {ok : PlaceId → HistoryEntry → Bool} {e : HistoryEntry} (here : s.place p = some e)
    (candidate : ok p e = true) {best : Option (PlaceId × Nat)} (above : Above e.stamp best) :
    s.lowerStamp ok best p = some (p, e.stamp) := by
  unfold State.lowerStamp
  rw [here]
  dsimp only
  rw [if_pos candidate]
  cases best with
  | none => rfl
  | some b => exact if_pos (above b.1 b.2 rfl)

theorem State.nextByStamp_lowest {ok : PlaceId → HistoryEntry → Bool} {e : HistoryEntry} (here : s.place p = some e)
    (candidate : ok p e = true) (lowest : ∀ q x, q ≠ p → s.place q = some x → ok q x = true → e.stamp < x.stamp) :
    s.nextByStamp ok = some p := by
  rw [State.nextByStamp_eq]
  obtain ⟨before, after, split⟩ := List.append_of_mem (List.mem_finRange p)
  have nodup : (before ++ p :: after).Nodup := split ▸ List.nodup_finRange 64
  obtain ⟨_, tail, apart⟩ := List.nodup_append.1 nodup
  have beforeOther : ∀ q ∈ before, q ≠ p := fun q mem => apart q mem p List.mem_cons_self
  have afterOther : ∀ q ∈ after, q ≠ p := fun q mem same => (List.nodup_cons.1 tail).1 (same ▸ mem)
  have first : ∀ (l : List PlaceId) best, (∀ q ∈ l, q ≠ p) → Above e.stamp best →
      Above e.stamp (l.foldl (s.lowerStamp ok) best) := by
    intro l
    induction l with
    | nil => exact fun _ _ above => above
    | cons q rest ih =>
      intro best other above
      exact ih _ (fun x mem => other x (List.mem_cons_of_mem _ mem))
        (State.lowerStamp_above (fun x at_ ok_ => lowest q x (other q List.mem_cons_self) at_ ok_) above)
  have last : ∀ l : List PlaceId, (∀ q ∈ l, q ≠ p) →
      l.foldl (s.lowerStamp ok) (some (p, e.stamp)) = some (p, e.stamp) := by
    intro l
    induction l with
    | nil => exact fun _ => rfl
    | cons q rest ih =>
      intro other
      rw [List.foldl_cons,
        State.lowerStamp_keeps fun x at_ ok_ => lowest q x (other q List.mem_cons_self) at_ ok_]
      exact ih fun x mem => other x (List.mem_cons_of_mem _ mem)
  rw [split, List.foldl_append, List.foldl_cons,
    State.lowerStamp_takes here candidate (first before none beforeOther fun _ _ same => by cases same), last after afterOther]
  rfl

end

end Sys2Proof.Machine

/-! PROOF. The reconciliation of an answer (R175 to R178, R183, R184; O53). -/

namespace Sys2Proof.Machine

section
variable {s t u : State} {i : SlotId} {p q : PlaceId}

/-! ## The number of entries, and their ranks, with a place emptied -/

theorem filter_length_without {α : Type} {l : List α} {a : α} (mem : a ∈ l) (nodup : l.Nodup) {f g : α → Bool}
    (gone : g a = false) (same : ∀ x ∈ l, x ≠ a → g x = f x) :
    (l.filter f).length = (l.filter g).length + if f a = true then 1 else 0 := by
  obtain ⟨before, after, split⟩ := List.append_of_mem mem
  rw [split] at nodup same ⊢
  obtain ⟨_, tail, apart⟩ := List.nodup_append.1 nodup
  have first : before.filter g = before.filter f := List.filter_congr fun x inBefore =>
    same x (List.mem_append_left _ inBefore) (apart x inBefore a List.mem_cons_self)
  have last : after.filter g = after.filter f := List.filter_congr fun x inAfter =>
    same x (List.mem_append_right _ (List.mem_cons_of_mem _ inAfter)) fun is => (List.nodup_cons.1 tail).1 (is ▸ inAfter)
  rw [List.filter_append, List.filter_append, List.filter_cons, List.filter_cons, first, last, gone,
    if_neg Bool.false_ne_true]
  split
  · simp only [List.length_append, List.length_cons]
    omega
  · simp only [List.length_append]
    omega

theorem History.count_places (h : History) :
    h.count = ((List.finRange 64).filter fun p => h.places[p.val].isSome).length := by
  have listed : h.places.toList = (List.finRange 64).map fun p : PlaceId => h.places[p.val] := by
    refine List.ext_getElem (by simp) fun n a b => ?_
    simp
  rw [History.count, listed, List.filter_map, List.length_map]
  rfl

/-- Whether the entry of a place stands before one of place `q` with a stamp. -/
def History.standsBefore (h : History) (q : PlaceId) (stamp : Nat) (p : PlaceId) : Bool :=
  match h.places[p.val] with
  | some e => e.before p q stamp
  | none => false

theorem History.rank_eq (h : History) (q : PlaceId) (stamp : Nat) :
    h.rank q stamp = 1 + ((List.finRange 64).filter (h.standsBefore q stamp)).length := rfl

/-- The table with a place emptied. -/
structure Emptied (s t : State) (p : PlaceId) : Prop where
  place : ∀ q, t.place q = if p = q then none else s.place q

theorem Emptied.count (h : Emptied s t p) (full : ∀ q, s.place q ≠ none) : t.history.count = 63 := by
  have all : ∀ q : PlaceId, s.history.places[q.val].isSome = true := fun q => Option.isSome_iff_ne_none.2 (full q)
  have lengths := filter_length_without (f := fun q : PlaceId => s.history.places[q.val].isSome)
    (g := fun q : PlaceId => t.history.places[q.val].isSome) (List.mem_finRange p) (List.nodup_finRange 64)
    (by have := h.place p; rw [if_pos rfl] at this; exact congrArg Option.isSome this)
    (fun q _ other => by have := h.place q; rw [if_neg (Ne.symm other)] at this; exact congrArg Option.isSome this)
  have counted : s.history.count = 64 := by
    rw [History.count_places, List.filter_eq_self.2 fun q _ => all q, List.length_finRange]
  rw [← History.count_places, ← History.count_places, if_pos (all p)] at lengths
  omega

theorem Emptied.rank {e : HistoryEntry} (h : Emptied s t p) (here : s.place p = some e) (q : PlaceId) (stamp : Nat) :
    t.history.rank q stamp = s.history.rank q stamp - if e.stamp < stamp ∨ e.stamp = stamp ∧ p < q then 1 else 0 := by
  have own : s.history.standsBefore q stamp p = e.before p q stamp := by
    unfold History.standsBefore
    rw [show s.history.places[p.val] = some e from here]
  have gone : t.history.standsBefore q stamp p = false := by
    have emptied := h.place p
    rw [if_pos rfl] at emptied
    unfold History.standsBefore
    rw [show t.history.places[p.val] = none from emptied]
  have lengths := filter_length_without (List.mem_finRange p) (List.nodup_finRange 64) gone
    (f := s.history.standsBefore q stamp) (fun x _ other => by
      have same := h.place x
      rw [if_neg (Ne.symm other)] at same
      unfold History.standsBefore
      rw [show t.history.places[x.val] = s.history.places[x.val] from same])
  have before : s.history.standsBefore q stamp p = true ↔ e.stamp < stamp ∨ e.stamp = stamp ∧ p < q := by
    rw [own]
    simp [HistoryEntry.before]
  rw [History.rank_eq, History.rank_eq, lengths]
  simp only [before]
  omega

/-! ## Eviction (R183, R184) -/

theorem State.notSeated_iff (s : State) (serial : Word64) :
    (s.seatedIn serial).isNone = true ↔
      ∀ k, (s.slot k).state ≠ .vacant → ∀ d, (s.slot k).description = some d → d.serial ≠ serial := by
  rw [← Option.not_isSome, Bool.not_eq_true', ← Bool.not_eq_true, State.seatedIn_isSome_iff]
  exact ⟨fun h k seated d described same => h ⟨k, seated, d, described, same⟩,
    fun h ⟨k, seated, d, described, same⟩ => h k seated d described same⟩

/-- The candidates of the three tiers. -/
def State.tierOne (s : State) (_ : PlaceId) (e : HistoryEntry) : Bool :=
  (s.seatedIn e.serial).isNone && e.pendingCharge.isNone && !e.barred

def State.tierTwo (s : State) (_ : PlaceId) (e : HistoryEntry) : Bool := (s.seatedIn e.serial).isNone && !e.barred

def State.tierThree (s : State) (_ : PlaceId) (e : HistoryEntry) : Bool := (s.seatedIn e.serial).isNone

theorem State.evictionChoice_one (first : s.nextByStamp s.tierOne = some p) : s.evictionChoice = some (p, 1) := by
  unfold State.evictionChoice
  dsimp only
  rw [show (s.nextByStamp fun _ e => (s.seatedIn e.serial).isNone && e.pendingCharge.isNone && !e.barred) = some p
    from first]

theorem State.evictionChoice_two (noFirst : s.nextByStamp s.tierOne = none) (second : s.nextByStamp s.tierTwo = some p) :
    s.evictionChoice = some (p, 2) := by
  unfold State.evictionChoice
  dsimp only
  rw [show (s.nextByStamp fun _ e => (s.seatedIn e.serial).isNone && e.pendingCharge.isNone && !e.barred) = none
    from noFirst, show (s.nextByStamp fun _ e => (s.seatedIn e.serial).isNone && !e.barred) = some p from second]

theorem State.evictionChoice_three (noFirst : s.nextByStamp s.tierOne = none)
    (noSecond : s.nextByStamp s.tierTwo = none) (third : s.nextByStamp s.tierThree = some p) :
    s.evictionChoice = some (p, 3) := by
  unfold State.evictionChoice
  dsimp only
  rw [show (s.nextByStamp fun _ e => (s.seatedIn e.serial).isNone && e.pendingCharge.isNone && !e.barred) = none
    from noFirst, show (s.nextByStamp fun _ e => (s.seatedIn e.serial).isNone && !e.barred) = none from noSecond,
    show (s.nextByStamp fun _ e => (s.seatedIn e.serial).isNone) = some p from third]

/-- R184: an entry evicted. -/
structure Evicted (s t : State) (p : PlaceId) (e : HistoryEntry) (tier : Nat) : Prop extends Emptied s t p where
  only : t = { s with history := t.history, notices := t.notices }
  notices : t.notices = s.notices.raise (.historyEvicted e.serial tier (e.pendingCharge.getD 0) e.barred p)
  recency : t.history.recency = s.history.recency
  forfeited : t.history.forfeited = min 281474976710655 (s.history.forfeited + e.pendingCharge.getD 0)

theorem State.evict_evicted {tier : Nat} {e : HistoryEntry} (choice : s.evictionChoice = some (p, tier))
    (here : s.place p = some e) : ∃ t, s.evict = (t, some p) ∧ Evicted s t p e tier := by
  unfold State.evict
  rw [choice]
  dsimp only
  rw [here]
  refine ⟨_, rfl, ⟨fun q => ?_⟩, rfl, rfl, rfl, rfl⟩
  exact modifyAt_get ..

/-! ## An entry written as its slot passes (R173, R175 to R177) -/

/-- The slot's accounts are set, its entry written with the next stamp, and the slot enters SENSING. -/
def State.passesWith (s : State) (i : SlotId) (committed uncommitted : Nat) (p : PlaceId) (x : Nat → HistoryEntry) :
    State :=
  let v := (s.setReconciled i committed uncommitted).roomForStamp.stampTaken
  (v.writePlace p (some (x v.history.recency)) false).enterSensing i

theorem State.entryPasses_eq {e : HistoryEntry} (here : s.place p = some e) (i : SlotId) (d : Description)
    (uncommitted : Nat) :
    s.entryPasses i d p uncommitted = s.passesWith i d.odometerAtRead uncommitted p fun stamp =>
      { e with
        inkCode := d.inkCode
        fillGeneration := d.fillGeneration
        odometer := d.odometerAtRead
        pendingCharge := nonzero uncommitted
        uncertain := none
        lastSlot := i
        stamp := stamp } := by
  unfold State.entryPasses State.passesWith
  dsimp only
  obtain ⟨_, _, _, place⟩ := (s.setReconciled i d.odometerAtRead uncommitted).stamped
  generalize (s.setReconciled i d.odometerAtRead uncommitted).roomForStamp.stampTaken = v at place ⊢
  have stamped : v.place p = some (s.history.restamped p e) := by
    rw [place p]
    show (s.place p).map _ = _
    rw [here]
    rfl
  unfold State.editEntry
  rw [stamped]
  rfl

/-- The entry made for a cartridge that has none. -/
def newEntry (i : SlotId) (d : Description) (stamp : Nat) : HistoryEntry :=
  ⟨d.serial, d.inkCode, d.fillGeneration, d.odometerAtRead, none, none, false, false, i, stamp⟩

theorem State.entryMade_empty {named : Option PlaceId} (empty : s.emptyPlace named = some p) (i : SlotId)
    (d : Description) :
    s.entryMade i d named =
      ({ s with freeDraws := s.freeDraws + 1 } : State).passesWith i d.odometerAtRead 0 p (newEntry i d) := by
  unfold State.entryMade
  rw [empty]
  rfl

theorem State.entryMade_evicts {named : Option PlaceId} (full : s.emptyPlace named = none)
    (evicts : s.evict = (u, some p)) (i : SlotId) (d : Description) :
    s.entryMade i d named = u.passesWith i d.odometerAtRead 0 p (newEntry i d) := by
  unfold State.entryMade
  rw [full]
  dsimp only
  rw [evicts]
  rfl

theorem State.requestAdmission_only (s : State) (i : SlotId) : SenseOnly s (s.requestAdmission i) := by
  unfold State.requestAdmission
  split
  case h_1 placed => exact (SenseOnly.refl s).placeRequest placed
  case h_2 => exact (SenseOnly.refl s).holdAdmission i

/-- What `State.passesWith` sets. -/
structure Passed (s t : State) (i : SlotId) (committed uncommitted : Nat) (p : PlaceId) (x : Nat → HistoryEntry) :
    Prop where
  record : RecordBecomes s t i { s.slot i with
    committed := committed
    uncommitted := uncommitted
    reconciled := true
    sensingStamp := s.joinStamps
    state := .sensing }
  leaves : LeavesJobs (· ≠ i) s t
  written : t.place p = some (x s.history.nextStamp)
  others : ∀ q, q ≠ p → t.place q = (s.place q).map (s.history.restamped q)
  recency : t.history.recency = s.history.nextStamp
  forfeited : t.history.forfeited = s.history.forfeited
  notices : Raises s.notices t.notices

theorem State.passesWith_passed (s : State) (i : SlotId) (committed uncommitted : Nat) (p : PlaceId)
    (x : Nat → HistoryEntry) : Passed s (s.passesWith i committed uncommitted p x) i committed uncommitted p x := by
  unfold State.passesWith State.enterSensing
  dsimp only
  have set : RecordBecomes s (s.setReconciled i committed uncommitted) i { s.slot i with
      committed := committed
      uncommitted := uncommitted
      reconciled := true
      sensingStamp := s.joinStamps } := by
    obtain ⟨own, others, channels⟩ := (RecordBecomes.refl s i).updSlot fun r =>
      { r with
        committed := committed
        uncommitted := uncommitted
        reconciled := true
        sensingStamp := s.joinStamps }
    exact ⟨own, others, channels⟩
  have base : LeavesJobs (· ≠ i) s (s.setReconciled i committed uncommitted) := .of_eq rfl rfl rfl
  obtain ⟨only, recency, forfeited, place⟩ := (s.setReconciled i committed uncommitted).stamped
  generalize vEq : (s.setReconciled i committed uncommitted).roomForStamp.stampTaken = v
    at only recency forfeited place ⊢
  obtain ⟨written, keptRecency, keptForfeited⟩ := v.writePlace_counts p (some (x v.history.recency)) false
  have places := fun q => v.writePlace_place p q (some (x v.history.recency)) false
  generalize v.writePlace p (some (x v.history.recency)) false = w at written keptRecency keptForfeited places ⊢
  replace written : w = { s.setReconciled i committed uncommitted with history := w.history } :=
    written.trans (congrArg (fun v : State => { v with history := w.history }) only)
  have passed : RecordBecomes s w i { s.slot i with
      committed := committed
      uncommitted := uncommitted
      reconciled := true
      sensingStamp := s.joinStamps } := by
    rw [written]
    exact ⟨set.own, set.others, set.channels⟩
  have moved := passed.moveSlot fun r => { r with state := .sensing }
  have notices : w.notices = s.notices := by rw [written]; rfl
  have leaves : LeavesJobs (· ≠ i) s w := base.trans (.of_eq (by rw [written]) (by rw [written]) (by rw [written]))
  have sensed := (w.moveSlot i fun r => { r with state := .sensing }).requestAdmission_only i
  have kept : RecordsKept (w.moveSlot i fun r => { r with state := .sensing }) _ := .requestAdmission (.refl _) i
  have history : ((w.moveSlot i fun r => { r with state := .sensing }).requestAdmission i).history = w.history :=
    kept.history
  refine ⟨moved.records kept, leaves.trans ((LeavesJobs.moveSlot w i _).trans
    (.of_eq (by rw [sensed]) (by rw [sensed]) (by rw [sensed]))), ?_, fun q other => ?_, ?_, ?_, ?_⟩
  · rw [kept.place]
    show w.place p = _
    rw [places, if_pos rfl, recency]
    rfl
  · rw [kept.place]
    show w.place q = _
    rw [places, if_neg (Ne.symm other), place]
    rfl
  · rw [history, keptRecency, recency]
    rfl
  · rw [history, keptForfeited, forfeited]
    rfl
  · rw [← notices, sensed]
    exact .raise _ .refl

end

end Sys2Proof.Machine

/-! PROOF. An answer that has been checked (R17, R50; O53). -/

namespace Sys2Proof.Machine

section
variable {s t u : State} {i : SlotId} {p q : PlaceId}

/-! ## What an answer's result leaves to the next job and the other slots -/

/-- The other slots, the channels and what the next job's start reads are left. -/
structure AnswerLeaves (s t : State) (i : SlotId) : Prop where
  jobs : LeavesJobs (· ≠ i) s t
  others : ∀ k, k ≠ i → t.slot k = s.slot k
  channels : t.channels = s.channels

theorem AnswerLeaves.refl (s : State) (i : SlotId) : AnswerLeaves s s i := ⟨.refl s, fun _ _ => rfl, rfl⟩

theorem AnswerLeaves.trans (h : AnswerLeaves s t i) (k : AnswerLeaves t u i) : AnswerLeaves s u i :=
  ⟨h.jobs.trans k.jobs, fun j other => (k.others j other).trans (h.others j other), k.channels.trans h.channels⟩

theorem AnswerLeaves.rejectSlot (s : State) (i : SlotId) (why : RejectReason) : AnswerLeaves s (s.rejectSlot i why) i :=
  have becomes := (RecordBecomes.refl s i).rejectSlot why
  ⟨.rejectSlot s i why, becomes.others, becomes.channels⟩

theorem AnswerLeaves.history {h : History} {n : NoticeUnit} {draws : Nat} :
    AnswerLeaves s { s with history := h, notices := n, freeDraws := draws } i :=
  ⟨.of_eq rfl rfl rfl, fun _ _ => rfl, rfl⟩

theorem AnswerLeaves.passesWith (s : State) (i : SlotId) (committed uncommitted : Nat) (p : PlaceId)
    (x : Nat → HistoryEntry) : AnswerLeaves s (s.passesWith i committed uncommitted p x) i :=
  have passed := s.passesWith_passed i committed uncommitted p x
  ⟨passed.leaves, passed.record.others, passed.record.channels⟩

theorem AnswerLeaves.evict (s : State) (i : SlotId) : AnswerLeaves s s.evict.1 i := by
  unfold State.evict
  split
  · split
    · exact .history (draws := s.freeDraws)
    · exact .refl s i
  · exact .refl s i

theorem AnswerLeaves.entryMade (s : State) (i : SlotId) (d : Description) (named : Option PlaceId) :
    AnswerLeaves s (s.entryMade i d named) i := by
  cases empty : s.emptyPlace named with
  | some p =>
    rw [State.entryMade_empty empty]
    refine .trans ?_ (.passesWith _ i _ _ p _)
    exact .history (h := s.history) (n := s.notices)
  | none =>
    have evicted := AnswerLeaves.evict s i
    cases evicts : s.evict with
    | mk v freed =>
      rw [evicts] at evicted
      cases freed with
      | some p =>
        rw [State.entryMade_evicts empty evicts]
        exact evicted.trans (.passesWith v i _ _ p _)
      | none =>
        unfold State.entryMade
        rw [empty]
        dsimp only
        rw [evicts]
        exact evicted

theorem State.rollback_eq (s : State) (i : SlotId) (d : Description) (p : PlaceId) (e : HistoryEntry) :
    ∃ n, s.rollback i d p e = ((s.editEntry p (fun e => { e with barred := true }) true).rejectSlot i .rollback).raise n :=
  ⟨_, rfl⟩

theorem AnswerLeaves.rollback (s : State) (i : SlotId) (d : Description) (p : PlaceId) (e : HistoryEntry) :
    AnswerLeaves s (s.rollback i d p e) i := by
  obtain ⟨n, rolls⟩ := s.rollback_eq i d p e
  rw [rolls]
  refine .trans ?_ (.history (h := State.history _) (draws := State.freeDraws _))
  refine .trans ?_ (.rejectSlot _ i .rollback)
  rw [State.editEntry_history]
  exact .history (n := s.notices) (draws := s.freeDraws)

theorem AnswerLeaves.reconcile (s : State) (i : SlotId) (d : Description) (named : Option PlaceId) :
    AnswerLeaves s (s.reconcile i d named) i := by
  unfold State.reconcile
  split
  case h_1 => exact .entryMade s i d named
  case h_2 p _ =>
    split
    case h_1 => exact .refl s i
    case h_2 e here =>
      split
      case h_1 => exact .rollback s i d p e
      case h_2 =>
        have forfeited : AnswerLeaves s (s.forfeit e.pendingCharge) i := .history (n := s.notices) (draws := s.freeDraws)
        rw [State.entryPasses_eq (s := s.forfeit e.pendingCharge) here]
        exact forfeited.trans (.passesWith _ i _ _ p _)
      case h_3 uncommitted _ =>
        rw [State.entryPasses_eq here]
        exact .passesWith s i _ _ p _

theorem AnswerLeaves.challengeResult (s : State) (i : SlotId) (isMatch : Bool) (named : Option PlaceId) :
    AnswerLeaves s (s.challengeResult i isMatch named) i := by
  unfold State.challengeResult
  split
  · split
    · split
      · exact .reconcile s i _ named
      · exact .refl s i
    · exact .rejectSlot s i .authFailed
  · exact .refl s i

/-! ## An empty place for a new entry (R175) -/

theorem State.mem_emptyPlaces : p ∈ s.emptyPlaces ↔ s.place p = none := by
  unfold State.emptyPlaces
  rw [List.mem_filter, Option.isNone_iff_eq_none]
  exact ⟨And.right, fun h => ⟨List.mem_finRange p, h⟩⟩

theorem State.emptyPlace_some (empty : ∃ p, s.place p = none) (named : Option PlaceId) :
    ∃ p, s.emptyPlace named = some p ∧ s.place p = none ∧ ∀ q, named = some q → s.place q = none → p = q := by
  obtain ⟨first, rest, places⟩ : ∃ first rest, s.emptyPlaces = first :: rest := by
    obtain ⟨p, here⟩ := empty
    exact List.exists_cons_of_ne_nil (List.ne_nil_of_mem (State.mem_emptyPlaces.2 here))
  have firstEmpty : s.place first = none := State.mem_emptyPlaces.1 (places ▸ List.mem_cons_self)
  unfold State.emptyPlace
  cases named with
  | some q =>
    dsimp only
    split
    case isTrue here => exact ⟨q, rfl, Option.isNone_iff_eq_none.1 here, fun x same _ => Option.some.inj same⟩
    case isFalse taken =>
      refine ⟨first, by rw [places]; rfl, firstEmpty, fun x same here => ?_⟩
      cases same
      exact (taken (Option.isNone_iff_eq_none.2 here)).elim
  | none =>
    dsimp only
    rw [places]
    refine ⟨_, rfl, State.mem_emptyPlaces.1 ?_, fun _ same => by cases same⟩
    have small : Config.placeChoice s.freeDraws % (rest.length + 1) < (first :: rest).length :=
      Nat.mod_lt _ (Nat.succ_pos rest.length)
    rw [places, List.getD_eq_getElem _ _ small]
    exact List.getElem_mem _

theorem State.emptyPlace_none (full : ∀ q, s.place q ≠ none) (named : Option PlaceId) : s.emptyPlace named = none := by
  have places : s.emptyPlaces = [] := List.eq_nil_iff_forall_not_mem.2 fun q mem => full q (State.mem_emptyPlaces.1 mem)
  unfold State.emptyPlace
  cases named with
  | some q =>
    dsimp only
    rw [places, if_neg fun h => full q (Option.isNone_iff_eq_none.1 h)]
    rfl
  | none =>
    dsimp only
    rw [places]

/-! ## Which entry is evicted (R183) -/

/-- The conditions of the three tiers, as predicates of an entry. -/
structure Tiers (s : State) (free first second third : HistoryEntry → Prop) : Prop where
  free_iff : ∀ x, free x ↔ ∀ k, (s.slot k).state ≠ .vacant → ∀ d, (s.slot k).description = some d → d.serial ≠ x.serial
  first_iff : ∀ x, first x ↔ free x ∧ x.pendingCharge = none ∧ x.barred = false
  second_iff : ∀ x, second x ↔ free x ∧ x.barred = false
  third_iff : ∀ x, third x ↔ free x

section
variable {free first second third : HistoryEntry → Prop} (tiers : Tiers s free first second third)
include tiers

theorem Tiers.one (q : PlaceId) (x : HistoryEntry) : s.tierOne q x = true ↔ first x := by
  rw [tiers.first_iff, tiers.free_iff, ← State.notSeated_iff, State.tierOne, Bool.and_eq_true, Bool.and_eq_true,
    Option.isNone_iff_eq_none, Option.isNone_iff_eq_none, Bool.not_eq_true', and_assoc]

theorem Tiers.two (q : PlaceId) (x : HistoryEntry) : s.tierTwo q x = true ↔ second x := by
  rw [tiers.second_iff, tiers.free_iff, ← State.notSeated_iff, State.tierTwo, Bool.and_eq_true, Bool.not_eq_true']

theorem Tiers.three (q : PlaceId) (x : HistoryEntry) : s.tierThree q x = true ↔ third x := by
  rw [tiers.third_iff, tiers.free_iff, ← State.notSeated_iff, State.tierThree]

/-- A candidate of the second tier's rule is one of the third's; with none of the second there is none of the first. -/
theorem Tiers.no_first (noSecond : ∀ q x, s.place q = some x → ¬second x) (q : PlaceId) (x : HistoryEntry)
    (here : s.place q = some x) : ¬first x := fun is =>
  have ⟨isFree, _, notBarred⟩ := (tiers.first_iff x).1 is
  noSecond q x here ((tiers.second_iff x).2 ⟨isFree, notBarred⟩)

theorem Tiers.evictionChoice {e : HistoryEntry} {tier : Nat} (here : s.place p = some e)
    (chosen : tier = 1 ∧ first e ∧ (∀ q x, q ≠ p → s.place q = some x → first x → e.stamp < x.stamp) ∨
      tier = 2 ∧ second e ∧ (∀ q x, s.place q = some x → ¬first x) ∧
        (∀ q x, q ≠ p → s.place q = some x → second x → e.stamp < x.stamp) ∨
      tier = 3 ∧ third e ∧ (∀ q x, s.place q = some x → ¬second x) ∧
        (∀ q x, q ≠ p → s.place q = some x → third x → e.stamp < x.stamp)) :
    s.evictionChoice = some (p, tier) := by
  have none_one (no : ∀ q x, s.place q = some x → ¬first x) : s.nextByStamp s.tierOne = none :=
    State.nextByStamp_none fun q x at_ => Bool.eq_false_iff.2 fun is => no q x at_ ((tiers.one q x).1 is)
  rcases chosen with ⟨rfl, is, lowest⟩ | ⟨rfl, is, noFirst, lowest⟩ | ⟨rfl, is, noSecond, lowest⟩
  · exact State.evictionChoice_one (State.nextByStamp_lowest here ((tiers.one p e).2 is)
      fun q x other at_ ok_ => lowest q x other at_ ((tiers.one q x).1 ok_))
  · exact State.evictionChoice_two (none_one noFirst) (State.nextByStamp_lowest here ((tiers.two p e).2 is)
      fun q x other at_ ok_ => lowest q x other at_ ((tiers.two q x).1 ok_))
  · refine State.evictionChoice_three (none_one (tiers.no_first noSecond)) ?_
      (State.nextByStamp_lowest here ((tiers.three p e).2 is)
        fun q x other at_ ok_ => lowest q x other at_ ((tiers.three q x).1 ok_))
    exact State.nextByStamp_none fun q x at_ => Bool.eq_false_iff.2 fun is => noSecond q x at_ ((tiers.two q x).1 is)

end

/-! ## Reconciliation (Table 10-2) -/

theorem State.reconcile_new {d : Description} (unknown : s.findEntry d.serial = none) (i : SlotId)
    (named : Option PlaceId) : s.reconcile i d named = s.entryMade i d named := by
  unfold State.reconcile
  rw [unknown]

theorem State.reconcile_against {d : Description} {e : HistoryEntry} (found : s.findEntry d.serial = some p)
    (here : s.place p = some e) (i : SlotId) (named : Option PlaceId) :
    (reconcileWith d e = .rollback → s.reconcile i d named = s.rollback i d p e) ∧
      (reconcileWith d e = .newFill → s.reconcile i d named = (s.forfeit e.pendingCharge).entryPasses i d p 0) ∧
      ∀ uncommitted, reconcileWith d e = .passed uncommitted →
        s.reconcile i d named = s.entryPasses i d p uncommitted := by
  unfold State.reconcile
  rw [found]
  dsimp only
  rw [here]
  dsimp only
  refine ⟨fun is => ?_, fun is => ?_, fun uncommitted is => ?_⟩
  · rw [is]
  · rw [is]
  · rw [is]

theorem reconcileWith_rollback {d : Description} {e : HistoryEntry}
    (lower : d.fillGeneration < e.fillGeneration ∨ d.fillGeneration = e.fillGeneration ∧ d.odometerAtRead < e.odometer) :
    reconcileWith d e = .rollback := by
  unfold reconcileWith
  dsimp only
  obtain older | ⟨same, lower⟩ := lower
  · rw [if_pos older]
  · rw [if_neg (by omega), if_neg (by omega), if_pos lower]

theorem reconcileWith_newFill {d : Description} {e : HistoryEntry} (newer : e.fillGeneration < d.fillGeneration) :
    reconcileWith d e = .newFill := by
  unfold reconcileWith
  dsimp only
  rw [if_neg (Nat.lt_asymm newer), if_pos newer]

theorem reconcileWith_passed {d : Description} {e : HistoryEntry} {uncommitted : Nat}
    (same : d.fillGeneration = e.fillGeneration)
    (passes : e.odometer + e.uncertain.getD 0 ≤ d.odometerAtRead ∧
        uncommitted = e.pendingCharge.getD 0 - e.uncertain.getD 0 ∨
      e.odometer ≤ d.odometerAtRead ∧ d.odometerAtRead < e.odometer + e.uncertain.getD 0 ∧
        uncommitted = e.pendingCharge.getD 0) : reconcileWith d e = .passed uncommitted := by
  unfold reconcileWith
  dsimp only
  rw [if_neg (by omega), if_neg (by omega)]
  obtain ⟨landed, rfl⟩ | ⟨atLeast, below, rfl⟩ := passes
  · rw [if_neg (by omega), if_pos landed]
  · rw [if_neg (by omega), if_neg (by omega)]

theorem State.rollback_rejects {e : HistoryEntry} (here : s.place p = some e) (i : SlotId) (d : Description) :
    ((s.rollback i d p e).slot i).state = .rejected ∧ ((s.rollback i d p e).slot i).rejectReason = some .rollback ∧
      (s.rollback i d p e).place p = some { e with barred := true } := by
  obtain ⟨n, rolls⟩ := s.rollback_eq i d p e
  rw [rolls]
  have becomes := (RecordBecomes.refl (s.editEntry p (fun e => { e with barred := true }) true) i).rejectSlot .rollback
  refine ⟨(congrArg SlotRecord.state becomes.own :), (congrArg SlotRecord.rejectReason becomes.own :), ?_⟩
  show (State.rejectSlot _ i _).place p = _
  rw [State.rejectSlot_place, State.editEntry_place here, if_pos rfl]

/-! ## The answer's end -/

/-- What the result of an answer, the start of the next job and the event's end leave of the state handed over. -/
theorem State.answer_kept (v : State) :
    v.startNextJob.settle.slots = v.slots ∧ v.startNextJob.settle.channels = v.channels ∧
      (∀ p, v.startNextJob.settle.place p = v.place p) ∧
      v.startNextJob.settle.history.places = v.history.places ∧
      v.startNextJob.settle.history.recency = v.history.recency ∧
      v.startNextJob.settle.history.forfeited = v.history.forfeited ∧
      Raises v.notices v.startNextJob.settle.notices := by
  have kept : RecordsKept v v.startNextJob := .startNextJob (.refl v)
  refine ⟨?_, ?_, fun p => ?_, ?_, ?_, ?_, ?_⟩
  · rw [State.settle_slots, kept.slots]
  · rw [State.settle_channels, kept.channels]
  · rw [State.settle_place, kept.place]
  · rw [State.settle_history_places, kept.history]
  · rw [State.settle_history_recency, kept.history]
  · rw [State.settle_history_forfeited, kept.history]
  · exact (((Undisturbed.refl v).startNextJob).settle).notices

theorem State.handResult_answer {j : Job} {g o : Nat} (work : j.work = .verifyChallenge g o) (isMatch : Bool)
    (place : Option PlaceId) : s.handResult j isMatch place = s.challengeResult j.slot isMatch place := by
  unfold State.handResult
  rw [work]

theorem State.challengeResult_mismatch (verifying : (s.slot i).state = .verifying) (named : Option PlaceId) :
    s.challengeResult i false named = s.rejectSlot i .authFailed := by
  unfold State.challengeResult
  rw [if_pos verifying, if_neg Bool.false_ne_true]

theorem State.challengeResult_match {d : Description} (verifying : (s.slot i).state = .verifying)
    (described : (s.slot i).description = some d) (named : Option PlaceId) :
    s.challengeResult i true named = s.reconcile i d named := by
  unfold State.challengeResult
  rw [if_pos verifying, if_pos rfl, described]

/-- The slot's record and the entry, as they stand when the slot passed. -/
theorem Passed.ended {v : State} {committed uncommitted : Nat} {x : Nat → HistoryEntry}
    (h : Passed s v i committed uncommitted p x) :
    ((v.startNextJob.settle.slot i).state = .sensing ∧ (v.startNextJob.settle.slot i).committed = committed ∧
        (v.startNextJob.settle.slot i).uncommitted = uncommitted) ∧
      v.startNextJob.settle.place p = some (x s.history.nextStamp) ∧
      v.startNextJob.settle.history.recency = s.history.nextStamp ∧
      v.startNextJob.settle.history.forfeited = s.history.forfeited ∧
      (∀ q, q ≠ p → v.startNextJob.settle.place q = (s.place q).map (s.history.restamped q)) ∧
      Raises s.notices v.startNextJob.settle.notices := by
  obtain ⟨slots, _, places, _, recency, forfeited, raises⟩ := v.answer_kept
  have slot : v.startNextJob.settle.slot i = v.slot i := by simp only [State.slot, slots]
  rw [slot, h.record.own, places, recency, forfeited]
  exact ⟨⟨rfl, rfl, rfl⟩, h.written, h.recency, h.forfeited, fun q other => (places q).trans (h.others q other),
    h.notices.trans raises⟩

/-- Settles O53: the comparison, and reconciliation with the History Table. -/
theorem answer_is_reconciled : Obligations.Answer_is_reconciled := by
  unfold Obligations.Answer_is_reconciled
  intro s named j g o root computed i d running work own provisioned verifying described hcomputed
  have fields : j.fields = [j.nonce.toNat, j.serial.toNat, g, o, j.makerLot.toNat] := by rw [Job.fields, work]
  have isMatch := State.jobMatches_iff provisioned j
  rw [fields, ← hcomputed] at isMatch
  have runs := (exec_digestJobComplete running named).trans
    (congrArg (fun u : State => Host.Outcome.next u.settle) (State.jobDone_handed s j named))
  have undisturbed : Undisturbed s ((s.handResult j (s.jobMatches j) named).startNextJob).settle :=
    (((Undisturbed.refl s).handResult j _ named).startNextJob).settle
  rw [State.handResult_answer work, own] at runs undisturbed
  have leaves := AnswerLeaves.challengeResult s i (s.jobMatches j) named
  refine ⟨_, runs, undisturbed, ((State.startNextJob_nextJob _ i).handed leaves.jobs).settled, fun k other => ?_, ?_,
    fun differs => ?_, fun equal => ?_⟩
  · obtain ⟨slots, _⟩ := (s.challengeResult i (s.jobMatches j) named).answer_kept
    rw [← leaves.others k other]
    simp only [State.slot, slots]
  · obtain ⟨_, channels, _⟩ := (s.challengeResult i (s.jobMatches j) named).answer_kept
    rw [channels, leaves.channels]
  · rw [Bool.eq_false_iff.2 fun is => differs (isMatch.1 is), State.challengeResult_mismatch verifying]
    obtain ⟨slots, _, _, places, _⟩ := (s.rejectSlot i .authFailed).answer_kept
    have becomes := (RecordBecomes.refl s i).rejectSlot .authFailed
    have history : (s.rejectSlot i .authFailed).history = s.history := by
      have kept : RecordsKept _ (s.rejectSlot i .authFailed) := .withdrawCommit (.refl _) i
      exact kept.history
    refine ⟨?_, ?_, ?_⟩
    · simp only [State.slot, slots]
      exact congrArg SlotRecord.state becomes.own
    · simp only [State.slot, slots]
      exact congrArg SlotRecord.rejectReason becomes.own
    · rw [places, history]
  · rw [isMatch.2 equal, State.challengeResult_match verifying described]
    refine ⟨fun unknown empty stamp _ hstamp => ?_, fun p e tier stamp free first second third unknown full _ hstamp
      isFree isFirst isSecond isThird here chosen => ?_, fun p e found here => ⟨fun lower => ?_,
        fun uncommitted stamp _ hstamp passes => ?_⟩⟩
    · obtain ⟨p, place, wasEmpty, isNamed⟩ := State.emptyPlace_some empty named
      rw [State.reconcile_new unknown, State.entryMade_empty place]
      have passed := ({ s with freeDraws := s.freeDraws + 1 } : State).passesWith_passed i d.odometerAtRead 0 p
        (newEntry i d)
      obtain ⟨⟨state, committed, uncommitted⟩, written, recency, _, others, _⟩ := passed.ended
      have next : s.history.nextStamp = stamp := hstamp.symm
      refine ⟨state, committed, uncommitted, p, wasEmpty, isNamed, ?_, ?_, others⟩
      · rw [← next]
        exact written
      · rw [← next]
        exact recency
    · have choice := Tiers.evictionChoice ⟨isFree, isFirst, isSecond, isThird⟩ here chosen
      obtain ⟨v, evicts, evicted⟩ := State.evict_evicted choice here
      rw [State.reconcile_new unknown, State.entryMade_evicts (State.emptyPlace_none full named) evicts]
      obtain ⟨⟨state, committed, uncommitted⟩, written, recency, forfeited, others, raises⟩ :=
        (v.passesWith_passed i d.odometerAtRead 0 p (newEntry i d)).ended
      have next : v.history.nextStamp = stamp := by
        rw [History.nextStamp, evicted.recency, evicted.count full, hstamp]
      rw [next] at written recency
      refine ⟨state, committed, uncommitted, written, recency, fun q x other at_ => ?_, ?_, ?_⟩
      · rw [others q other, evicted.place, if_neg (Ne.symm other), at_, Option.map_some, History.restamped,
          evicted.recency, evicted.rank here]
      · rw [forfeited, evicted.forfeited]
      · refine .trans ?_ raises
        rw [evicted.notices]
        exact .now _ _
    · obtain ⟨rollback, _, _⟩ := State.reconcile_against found here i named
      rw [rollback (reconcileWith_rollback lower)]
      obtain ⟨slots, _, places, _⟩ := (s.rollback i d p e).answer_kept
      obtain ⟨state, reason, entry⟩ := State.rollback_rejects here i d
      refine ⟨?_, ?_, ?_⟩
      · simp only [State.slot, slots]
        exact state
      · simp only [State.slot, slots]
        exact reason
      · rw [places, entry]
    · obtain ⟨_, newFill, passedBy⟩ := State.reconcile_against found here i named
      have next : s.history.nextStamp = stamp := hstamp.symm
      rw [← nonzero_eq]
      obtain ⟨newer, rfl⟩ | same := passes
      · rw [newFill (reconcileWith_newFill newer), State.entryPasses_eq (s := s.forfeit e.pendingCharge) here, if_pos newer]
        obtain ⟨⟨state, committed, uncommitted⟩, written, recency, forfeited, others, _⟩ :=
          (State.passesWith_passed (s.forfeit e.pendingCharge) i d.odometerAtRead 0 p _).ended
        refine ⟨state, committed, uncommitted, forfeited, ?_, ?_, fun q x other at_ => ?_⟩
        · rw [← next]
          exact written
        · rw [← next]
          exact recency
        · refine (others q other).trans ?_
          show (s.place q).map _ = _
          rw [at_]
          rfl
      · have sameFill : d.fillGeneration = e.fillGeneration := by omega
        rw [passedBy uncommitted (reconcileWith_passed sameFill (by omega)), State.entryPasses_eq here,
          if_neg (by omega)]
        obtain ⟨⟨state, committed, counted⟩, written, recency, forfeited, others, _⟩ :=
          (s.passesWith_passed i d.odometerAtRead uncommitted p _).ended
        refine ⟨state, committed, counted, forfeited, ?_, ?_, fun q x other at_ => ?_⟩
        · rw [← next]
          exact written
        · rw [← next]
          exact recency
        · rw [others q other, at_]
          rfl

end

end Sys2Proof.Machine

/-! PROOF. The calling off of a slot's lane work and jobs at its removal (R21, R29, R57), and the account left in its
History Entry (R109, R117, R173; O13). -/

namespace Sys2Proof.Machine

section
variable {s t u : State} {i : SlotId} {p q : PlaceId}

/-! ## Exposure -/

/-- No commit of the slot is WAITING. -/
def CommitState.noneWaiting (c : CommitState) : Prop := ∀ f, c.flight = some f → f.phase ≠ .waiting

/-- A commit in flight whose phase alone has changed, to `phase`. -/
theorem CommitState.exposedTop_phase {c : CommitState} (sent : c.noneWaiting) {phase : FlightPhase}
    (notWaiting : phase ≠ .waiting) :
    ({ c with flight := c.flight.map fun f => { f with phase := phase } } : CommitState).noneWaiting ∧
      ({ c with flight := c.flight.map fun f => { f with phase := phase } } : CommitState).exposedTop = c.exposedTop := by
  obtain ⟨flight, again, failures, doubtful⟩ := c
  cases flight with
  | none => exact ⟨fun _ same => (nomatch same), rfl⟩
  | some f =>
    refine ⟨fun g same => ?_, ?_⟩
    · cases same
      exact notWaiting
    · simp only [CommitState.exposedTop, Option.map_some, if_neg notWaiting, if_neg (sent f rfl)]

/-! ## What lane work and engine work leave of a slot that has none -/

/-- What the work of the lanes and the Digest Engine leaves: no entry of slot `i` joins a lane and no lane becomes HELD. A
commit of the slot that is under way stays exposed as it is; and with nothing of the slot on any lane its commit stays. -/
structure WorkLeft (i : SlotId) (s t : State) : Prop where
  queue : ∀ l, (∀ e ∈ (s.lane l).queue, e.slot ≠ i) → ∀ e ∈ (t.lane l).queue, e.slot ≠ i
  wire : ∀ l, (∀ e ∈ (s.lane l).queue, e.slot ≠ i) → (∀ x, (s.lane l).state = .onWire x → x.entry.slot ≠ i) →
    ∀ x, (t.lane l).state = .onWire x → x.entry.slot ≠ i
  held : ∀ l k, (t.lane l).state = .held k → (s.lane l).state = .held k
  exposure : (s.commit i).noneWaiting →
    (t.commit i).noneWaiting ∧ (t.commit i).exposedTop = (s.commit i).exposedTop
  commit : (∀ l, ∀ e ∈ (s.lane l).queue, e.slot ≠ i) → (∀ l k, (s.lane l).state = .held k → k.slot ≠ i) →
    t.commit i = s.commit i

theorem WorkLeft.of_eq (lanes : ∀ l, t.lane l = s.lane l) (commit : t.commit i = s.commit i) : WorkLeft i s t where
  queue l clear := by rw [lanes]; exact clear
  wire l _ clear := by rw [lanes]; exact clear
  held l k is := by rw [← lanes]; exact is
  exposure sent := by rw [commit]; exact ⟨sent, rfl⟩
  commit _ _ := commit

theorem WorkLeft.refl (s : State) : WorkLeft i s s := .of_eq (fun _ => rfl) rfl

theorem WorkLeft.trans (h : WorkLeft i s t) (k : WorkLeft i t u) : WorkLeft i s u where
  queue l clear := k.queue l (h.queue l clear)
  wire l clear off := k.wire l (h.queue l clear) (h.wire l clear off)
  held l x is := h.held l x (k.held l x is)
  exposure sent :=
    have ⟨still, same⟩ := h.exposure sent
    have ⟨still', same'⟩ := k.exposure still
    ⟨still', same'.trans same⟩
  commit clear off := (k.commit (fun l => h.queue l (clear l)) fun l x is => off l x (h.held l x is)).trans (h.commit clear off)

/-- The entry on the wire is one of the lane's queue. -/
theorem State.takeEntryN_wire {P : LaneEntry → Prop} (n : Nat) (s : State) (l : LaneId) (queue : ∀ e ∈ (s.lane l).queue, P e)
    (wire : ∀ x, (s.lane l).state = .onWire x → P x.entry) :
    ∀ x, ((State.takeEntryN n s l).lane l).state = .onWire x → P x.entry := by
  induction n generalizing s with
  | zero => exact wire
  | succ n ih =>
    unfold State.takeEntryN
    split
    case isTrue =>
      rw [State.updLane_lane_same, Lane.takeUp_state]
      exact wire
    case isFalse =>
      split
      case h_1 => exact wire
      case h_2 c chosen =>
        dsimp only
        split
        case isTrue =>
          generalize taken : (s.updLane l fun lane =>
            { lane with
              queue := lane.queue.eraseP fun e => e.laneClass = c.entry.laneClass
              wheel := c.wheel
              inUse := c.inUse }) = v
          have lane : (v.passDone c.entry (.failed .wrongState)).lane l = v.lane l := by
            unfold State.passDone
            split
            · rfl
            · rfl
          refine ih _ (fun e member => ?_) fun x is => ?_
          · rw [lane, ← taken, State.updLane_lane_same] at member
            exact queue e (List.mem_of_mem_eraseP member)
          · rw [lane, ← taken, State.updLane_lane_same] at is
            exact wire x is
        case isFalse =>
          rw [(State.startTransaction_spec _ l c.entry).1]
          intro x is
          cases is
          exact queue _ (State.chooseEntry_mem chosen)

/-- A lane that takes entries goes on the wire or keeps its state. -/
theorem State.takeEntryN_state (n : Nat) (s : State) (l : LaneId) :
    ((State.takeEntryN n s l).lane l).state = (s.lane l).state ∨
      ∃ x, ((State.takeEntryN n s l).lane l).state = .onWire x := by
  induction n generalizing s with
  | zero => exact .inl rfl
  | succ n ih =>
    unfold State.takeEntryN
    split
    case isTrue =>
      rw [State.updLane_lane_same, Lane.takeUp_state]
      exact .inl rfl
    case isFalse =>
      split
      case h_1 => exact .inl rfl
      case h_2 c _ =>
        dsimp only
        split
        case isTrue =>
          generalize taken : (s.updLane l fun lane =>
            { lane with
              queue := lane.queue.eraseP fun e => e.laneClass = c.entry.laneClass
              wheel := c.wheel
              inUse := c.inUse }) = v
          have state : ((v.passDone c.entry (.failed .wrongState)).lane l).state = (s.lane l).state := by
            have kept : (v.passDone c.entry (.failed .wrongState)).lane l = v.lane l := by
              unfold State.passDone
              split
              · rfl
              · rfl
            rw [kept, ← taken, State.updLane_lane_same]
          exact (ih _).imp_left fun same => same.trans state
        case isFalse =>
          rw [(State.startTransaction_spec _ l c.entry).1]
          exact .inr ⟨_, rfl⟩

theorem LaneWork.exposure {l : LaneId} (h : LaneWork s t l) (sent : (s.commit i).noneWaiting) :
    (t.commit i).noneWaiting ∧ (t.commit i).exposedTop = (s.commit i).exposedTop := by
  rcases h.commits i with same | isSent
  · rw [same]
    exact ⟨sent, rfl⟩
  · rw [isSent]
    exact CommitState.exposedTop_phase sent nofun

theorem WorkLeft.takeEntry (s : State) (l : LaneId) : WorkLeft i s (s.takeEntry l) := by
  have work := s.takeEntry_work l
  refine ⟨fun m clear => ?_, fun m clear off => ?_, fun m k is => ?_, work.exposure, fun clear _ => ?_⟩
  · by_cases same : l = m
    · subst same
      exact fun e member => clear e (s.takeEntry_queue l e member)
    · rw [work.lanes m same]
      exact clear
  · by_cases same : l = m
    · subst same
      exact State.takeEntryN_wire _ s l clear off
    · rw [work.lanes m same]
      exact off
  · by_cases same : l = m
    · subst same
      rcases State.takeEntryN_state _ s l with stays | ⟨x, wire⟩
      · exact stays.symm.trans is
      · cases wire.symm.trans is
    · rw [work.lanes m same] at is
      exact is
  · exact State.takeEntryN_commit _ s l fun e member own => (clear l e member own).elim

theorem WorkLeft.laneFree (s : State) (l : LaneId) : WorkLeft i s (s.laneFree l) := by
  unfold State.laneFree
  refine WorkLeft.trans (t := s.updLane l fun lane => { lane with state := .idle }) ?_ (.takeEntry _ l)
  refine ⟨fun m clear => ?_, fun m clear off x is => ?_, fun m k is => ?_, fun sent => ⟨sent, rfl⟩, fun _ _ => rfl⟩
  · rw [State.updLane_lane]
    split
    · exact clear
    · exact clear
  · rw [State.updLane_lane] at is
    split at is
    · cases is
    · exact off x is
  · rw [State.updLane_lane] at is
    split at is
    · cases is
    · exact is

theorem State.joinEngine_lane (s : State) (k : Job) (l : LaneId) : (s.joinEngine k).lane l = s.lane l := by
  unfold State.joinEngine State.commitChecking
  split
  · rfl
  · rfl

theorem State.joinEngine_exposure (s : State) (k : Job) (sent : (s.commit i).noneWaiting) :
    ((s.joinEngine k).commit i).noneWaiting ∧ ((s.joinEngine k).commit i).exposedTop = (s.commit i).exposedTop := by
  unfold State.joinEngine State.commitChecking
  split
  · rw [State.updCommit_commit]
    split
    · exact CommitState.exposedTop_phase (c := s.commit i) sent nofun
    · exact ⟨sent, rfl⟩
  · exact ⟨sent, rfl⟩

theorem State.joinEngine_commit (s : State) {k : Job} (other : k.slot ≠ i) : (s.joinEngine k).commit i = s.commit i := by
  unfold State.joinEngine State.commitChecking
  split
  · exact State.updCommit_commit_other _ _ _ _ other
  · rfl

theorem WorkLeft.joinEngine (s : State) {l : LaneId} {k : Job} (held : (s.lane l).state = .held k) :
    WorkLeft i s (s.joinEngine k) where
  queue m clear := by rw [State.joinEngine_lane]; exact clear
  wire m _ off := by rw [State.joinEngine_lane]; exact off
  held m x is := by rw [State.joinEngine_lane] at is; exact is
  exposure sent := s.joinEngine_exposure k sent
  commit _ off := s.joinEngine_commit (off l k held)

theorem WorkLeft.placeFreed (s : State) : WorkLeft i s s.placeFreed := by
  unfold State.placeFreed
  split
  case h_1 => exact .refl s
  case h_2 l rest _ =>
    split
    case h_1 k held =>
      refine .trans ?_ (.laneFree _ l)
      refine WorkLeft.trans (t := s.updEngine fun e => { e with heldLanes := rest }) (.of_eq (fun _ => rfl) rfl) ?_
      exact .joinEngine _ (l := l) held
    case h_2 => exact .of_eq (fun _ => rfl) rfl

theorem WorkLeft.withdrawJobs (s : State) (all : Bool) : WorkLeft i s (s.withdrawJobs i all) := by
  unfold State.withdrawJobs
  dsimp only
  split
  · refine .trans ?_ (.placeFreed _)
    exact .of_eq (fun _ => rfl) rfl
  · exact .of_eq (fun _ => rfl) rfl

theorem WorkLeft.dropHeld (s : State) (all : Bool) : WorkLeft i s (s.dropHeld i all) := by
  unfold State.dropHeld
  dsimp only
  split
  · split
    · refine .trans ?_ (.laneFree _ _)
      exact .of_eq (fun _ => rfl) rfl
    · exact .refl s
  · exact .refl s

theorem WorkLeft.abortTransaction (s : State) : WorkLeft i s (s.abortTransaction i) := by
  unfold State.abortTransaction
  split
  · split
    · exact .laneFree s _
    · exact .refl s
  · exact .refl s

theorem WorkLeft.dropEntries (s : State) (drop : LaneClass → Bool) : WorkLeft i s (s.dropEntries i drop) := by
  unfold State.dropEntries
  refine ⟨fun m clear => ?_, fun m clear off x is => ?_, fun m k is => ?_, fun sent => ⟨sent, rfl⟩, fun _ _ => rfl⟩
  · rw [State.updLane_lane]
    split
    · exact fun e member => clear e (List.mem_of_mem_filter member)
    · exact clear
  · rw [State.updLane_lane] at is
    split at is
    · exact off x is
    · exact off x is
  · rw [State.updLane_lane] at is
    split at is
    · exact is
    · exact is

/-- Pass-throughs that end raise notices alone. -/
theorem State.foldl_passDone (l : List LaneEntry) (status : PassStatus) (s : State) :
    l.foldl (fun s e => s.passDone e status) s =
      { s with notices := (l.foldl (fun s e => s.passDone e status) s).notices } := by
  induction l generalizing s with
  | nil => rfl
  | cons e rest ih =>
    rw [List.foldl_cons, ih]
    unfold State.passDone
    split
    · rfl
    · rfl

/-! ## The calling off of a removed slot's work -/

/-- The removed slot's entries have left the queue, and its pass-throughs have ended. -/
def State.entriesGone (s : State) (i : SlotId) : State :=
  (s.passEntries i).foldl (fun s e => s.passDone e .aborted) (s.dropEntries i fun _ => true)

/-- The slot's transaction and its held job are gone too. -/
def State.laneCleared (s : State) (i : SlotId) : State := ((s.entriesGone i).abortTransaction i).dropHeld i true

theorem State.removeWork_eq (s : State) (i : SlotId) :
    s.removeWork i = { (s.laneCleared i).withdrawJobs i true with
      bus := { ((s.laneCleared i).withdrawJobs i true).bus with
        wanted := modifyAt ((s.laneCleared i).withdrawJobs i true).bus.wanted i fun _ => noMarks } } := rfl

/-- The engine's part is done; what is left are the marks. -/
def State.workOff (s : State) (i : SlotId) : State := (s.laneCleared i).withdrawJobs i true

theorem State.removeWork_only (s : State) (i : SlotId) :
    s.removeWork i = { s.workOff i with bus := { (s.workOff i).bus with
      wanted := modifyAt (s.workOff i).bus.wanted i fun _ => noMarks } } := by
  rw [State.removeWork_eq]
  rfl

theorem State.removeWork_lane (s : State) (i : SlotId) (l : LaneId) : (s.removeWork i).lane l = (s.workOff i).lane l := by
  rw [State.removeWork_only]
  generalize s.workOff i = v
  rfl

theorem State.removeWork_commits (s : State) (i k : SlotId) : (s.removeWork i).commit k = (s.workOff i).commit k := by
  rw [State.removeWork_only]
  generalize s.workOff i = v
  rfl

theorem State.entriesGone_only (s : State) (i : SlotId) :
    s.entriesGone i = { s.dropEntries i fun _ => true with notices := (s.entriesGone i).notices } :=
  State.foldl_passDone _ _ _

theorem State.entriesGone_lane (s : State) (i : SlotId) (l : LaneId) :
    (s.entriesGone i).lane l = (s.dropEntries i fun _ => true).lane l := by
  rw [State.entriesGone_only]
  rfl

theorem State.entriesGone_commit (s : State) (i k : SlotId) : (s.entriesGone i).commit k = s.commit k := by
  rw [State.entriesGone_only]
  rfl

theorem WorkLeft.entriesGone (s : State) : WorkLeft i s (s.entriesGone i) :=
  (WorkLeft.dropEntries s _).trans (.of_eq (s.entriesGone_lane i) (by rw [State.entriesGone_commit]; rfl))

/-- The slot's lane holds none of its entries. -/
theorem State.entriesGone_queue (s : State) (i : SlotId) :
    ∀ e ∈ ((s.entriesGone i).lane (laneOf i)).queue, e.slot ≠ i := by
  rw [State.entriesGone_lane, State.dropEntries, State.updLane_lane_same]
  intro e member own
  have kept := (List.mem_filter.1 member).2
  rw [own] at kept
  simp at kept

theorem WorkLeft.laneCleared (s : State) : WorkLeft i s (s.laneCleared i) :=
  (WorkLeft.entriesGone s).trans ((WorkLeft.abortTransaction _).trans (.dropHeld _ true))

/-- A job of the slot is not held any more. -/
theorem State.dropHeld_held (s : State) (i : SlotId) :
    ∀ k, ((s.dropHeld i true).lane (laneOf i)).state = .held k → k.slot ≠ i := by
  unfold State.dropHeld
  dsimp only
  split
  case h_1 j held =>
    split
    case isTrue => exact fun k is => (State.laneFree_notHeld _ _ k is).elim
    case isFalse other =>
      intro k is own
      obtain rfl : j = k := LaneState.held.inj (held.symm.trans is)
      exact other ⟨own, rfl⟩
  case h_2 notHeld => exact fun k is => (notHeld k is).elim

theorem State.abortTransaction_commit {k : SlotId} (s : State)
    (clear : ∀ e ∈ (s.lane (laneOf i)).queue, e.slot = k → e.laneClass ≠ .commit) :
    (s.abortTransaction i).commit k = s.commit k := by
  unfold State.abortTransaction
  split
  · split
    · exact State.laneFree_commit s _ clear
    · rfl
  · rfl

theorem State.dropHeld_commit {k : SlotId} (s : State)
    (clear : ∀ e ∈ (s.lane (laneOf i)).queue, e.slot = k → e.laneClass ≠ .commit) :
    (s.dropHeld i true).commit k = s.commit k := by
  unfold State.dropHeld
  dsimp only
  split
  · split
    · exact State.laneFree_commit _ _ clear
    · rfl
  · rfl

/-- Until its accounts are written the slot's commit stays, when the lanes work for their own slots. -/
theorem State.removeWork_commit (lawful : ∀ l, (s.lane l).Lawful l) : (s.removeWork i).commit i = s.commit i := by
  have gone := WorkLeft.entriesGone (i := i) s
  have own : ∀ e ∈ ((s.entriesGone i).lane (laneOf i)).queue, e.slot ≠ i := s.entriesGone_queue i
  have aborted := WorkLeft.abortTransaction (i := i) (s.entriesGone i)
  have cleared : (s.laneCleared i).commit i = s.commit i := by
    rw [State.laneCleared, State.dropHeld_commit _ fun e member is => (aborted.queue _ own e member is).elim,
      State.abortTransaction_commit _ fun e member is => (own e member is).elim, State.entriesGone_commit]
  have left := WorkLeft.laneCleared (i := i) s
  rw [State.removeWork_commits, ← cleared]
  refine (WorkLeft.withdrawJobs (s.laneCleared i) true).commit (fun l => ?_) fun l k held is => ?_
  · by_cases same : laneOf i = l
    · subst same
      exact (WorkLeft.dropHeld _ true).queue _ (aborted.queue _ own)
    · exact left.queue l fun e member is => same (is ▸ (lawful l).queue e member)
  · by_cases same : laneOf i = l
    · subst same
      exact State.dropHeld_held _ i k held is
    · exact same (is ▸ (lawful l).held k (left.held l k held))

theorem WorkLeft.removeWork (s : State) : WorkLeft i s (s.removeWork i) :=
  (WorkLeft.laneCleared s).trans ((WorkLeft.withdrawJobs (s.laneCleared i) true).trans
    (.of_eq (s.removeWork_lane i) (s.removeWork_commits i i)))

/-- R109: the exposed amount is the one before the slot's work is called off. -/
theorem State.removeWork_exposed
    (h : (s.commit i).noneWaiting ∨ ∀ l, (s.lane l).Lawful l) : (s.removeWork i).exposed i = s.exposed i := by
  have kept : AccountsKept s (s.removeWork i) := .removeWork (.refl s) i
  have top : ((s.removeWork i).commit i).exposedTop = (s.commit i).exposedTop := by
    obtain sent | lawful := h
    · exact ((WorkLeft.removeWork s).exposure sent).2
    · rw [State.removeWork_commit lawful]
  rw [State.exposed, State.exposed, top, kept.committed]

/-- The removal of a slot's requests and samples is the Level Sense Unit's. -/
theorem State.removeSamples_only (s : State) (i : SlotId) : SenseOnly s (s.removeSamples i) := by
  unfold State.removeSamples State.removeSensing
  dsimp only
  exact (SenseOnly.placeHeldN ((SenseOnly.refl s).updSense _) _).trans rfl

/-! ## The account left (R109, R173) -/

theorem exec_removed {c : Instr} (seated : (s.slot i).state ≠ .vacant)
    (removal : c = .removal i ∨ c = .presenceLossDuringDebounce i) : exec c s = .next (s.removal i).settle := by
  have lost : s.presenceLost i = s.removal i := if_neg seated
  obtain rfl | rfl := removal
  · exact congrArg (fun u : State => Host.Outcome.next u.settle) lost
  · exact congrArg (fun u : State => Host.Outcome.next u.settle) lost

/-- R21: what the entry into VACANT leaves of the History Unit. -/
theorem State.vacate_history (s : State) (i : SlotId) : (s.vacate i).history = s.history := by
  unfold State.vacate
  dsimp only
  generalize emptied : (s.updSlot i SlotRecord.removed).updCommit i (fun _ => initialCommit) = v
  have history : v.history = s.history := by rw [← emptied]; rfl
  generalize slotChangedNotice i (s.slot i).state (v.slot i) = gone
  rw [← history]
  clear emptied history
  split
  case h_1 c _ =>
    split
    case isTrue =>
      exact (State.raise_history _ gone).trans (AccountsKept.failover (.refl v) c i .removed).history
    case isFalse =>
      exact (AccountsKept.targetTest (.refl (v.raise gone)) c).history.trans (State.raise_history v gone)
  case h_2 => rfl

/-- Entries rewritten under their own stamps keep their ranks and their number. -/
theorem History.restamped_congr {h k : History} (recency : k.recency = h.recency)
    (stamps : ∀ q : PlaceId, k.places[q.val].map HistoryEntry.stamp = h.places[q.val].map HistoryEntry.stamp) :
    k.nextStamp = h.nextStamp ∧ ∀ q stamp, k.rank q stamp = h.rank q stamp := by
  have counts : k.count = h.count := by
    rw [History.count_places, History.count_places]
    refine congrArg List.length (List.filter_congr fun q _ => ?_)
    have same := congrArg Option.isSome (stamps q)
    rw [Option.isSome_map, Option.isSome_map] at same
    exact same
  refine ⟨by rw [History.nextStamp, History.nextStamp, recency, counts], fun q stamp => ?_⟩
  rw [History.rank_eq, History.rank_eq]
  refine congrArg (1 + List.length ·) (List.filter_congr fun x _ => ?_)
  have same := stamps x
  unfold History.standsBefore
  cases first : k.places[x.val] with
  | none =>
    rw [first] at same
    rw [Option.map_eq_none_iff.1 same.symm]
  | some a =>
    rw [first] at same
    obtain ⟨b, second, equal⟩ := Option.map_eq_some_iff.1 same.symm
    rw [second]
    simp only [HistoryEntry.before, equal]

/-- R21, R109, R173: the account of a slot that has passed reconciliation. -/
theorem State.removeAccounts_spec {e : HistoryEntry} (reconciled : (s.slot i).reconciled = true)
    (found : s.entryOf i = some p) (here : s.place p = some e) :
    (s.removeAccounts i).place p = some { e with
        pendingCharge := nonzero (s.slot i).uncommitted
        uncertain := nonzero (s.exposed i)
        lastSlot := i
        stamp := s.history.nextStamp } ∧
      (s.removeAccounts i).history.recency = s.history.nextStamp ∧
      ∀ q, q ≠ p → (s.removeAccounts i).place q = (s.place q).map (s.history.restamped q) := by
  have counts : (s.preserve i false).history.recency = s.history.recency := by
    unfold State.preserve
    rw [found]
    exact (s.editEntry_counts p _ false).1
  have places : ∀ q, (s.preserve i false).place q = if p = q then some (s.preserved i e) else s.place q := fun q => by
    rw [State.preserve_eq found here, State.writePlace_place]
  unfold State.removeAccounts
  rw [if_pos reconciled, found]
  dsimp only
  generalize s.preserve i false = v at counts places ⊢
  obtain ⟨next, ranks⟩ := History.restamped_congr (h := s.history) (k := v.history) counts fun q => by
    show (v.place q).map _ = (s.place q).map _
    rw [places]
    split
    case isTrue same =>
      subst same
      rw [here]
      rfl
    case isFalse => rfl
  have restamped : ∀ q, v.history.restamped q = s.history.restamped q := fun q => by
    funext x
    rw [History.restamped, History.restamped, counts, ranks]
  obtain ⟨_, recency, _, stamped⟩ := v.stamped
  generalize v.roomForStamp.stampTaken = w at recency stamped ⊢
  have own : w.place p = some (s.history.restamped p (s.preserved i e)) := by
    rw [stamped, places, if_pos rfl, restamped]
    rfl
  refine ⟨?_, ?_, fun q other => ?_⟩
  · rw [State.editEntry_place own, if_pos rfl, recency, next]
    rfl
  · rw [(w.editEntry_counts p _ false).1, recency, next]
  · rw [State.editEntry_place own, if_neg (Ne.symm other), stamped, places, if_neg (Ne.symm other), restamped]

/-- Settles O13: the account is written, with the exposed amount of before, and the next stamp. -/
theorem removal_preserves_the_account : Obligations.Removal_preserves_the_account := by
  unfold Obligations.Removal_preserves_the_account
  intro s i p e c stamp seated removal reconciled found here _ hstamp
  have runs := exec_removed seated removal
  unfold State.removal at runs
  have kept : AccountsKept (s.setPresence i false) ((s.setPresence i false).removeWork i) := .removeWork (.refl _) i
  have exposed (h : (s.commit i).noneWaiting ∨ ∀ l, (s.lane l).Lawful l) :
      ((s.setPresence i false).removeWork i).exposed i = s.exposed i :=
    State.removeWork_exposed (s := s.setPresence i false) h
  have sensed : SenseOnly _ _ := ((s.setPresence i false).removeWork i).removeSamples_only i
  generalize (s.setPresence i false).removeWork i = v at exposed sensed kept runs
  have slots : (v.removeSamples i).slot i = v.slot i := by rw [sensed]; rfl
  have history : (v.removeSamples i).history = s.history := by rw [sensed]; exact kept.history
  have exposedThen : (v.removeSamples i).exposed i = v.exposed i := by rw [sensed]; rfl
  generalize v.removeSamples i = w at slots history exposedThen runs
  have places : ∀ q, w.place q = s.place q := fun q => congrArg (fun h : History => h.places[q.val]) history
  have described : (w.slot i).description = (s.slot i).description := by rw [slots]; exact kept.description i
  obtain ⟨own, recency, others⟩ := State.removeAccounts_spec (s := w) (i := i) (p := p) (e := e)
    (by rw [slots]; exact (kept.reconciled i).trans reconciled) (by rw [State.entryOf_congr described places]; exact found)
    (by rw [places]; exact here)
  have counted : (w.slot i).uncommitted = (s.slot i).uncommitted := by rw [slots]; exact kept.uncommitted i
  rw [counted, history, ← show stamp = s.history.nextStamp from hstamp] at own
  rw [history, ← show stamp = s.history.nextStamp from hstamp] at recency
  have final : ∀ q, ((w.removeAccounts i).vacate i).settle.place q = (w.removeAccounts i).place q := fun q => by
    rw [State.settle_place]
    exact congrArg (fun h : History => h.places[q.val]) ((w.removeAccounts i).vacate_history i)
  refine ⟨_, _, runs, (final p).trans own, ?_, ?_, fun h => ?_, fun q other => ?_⟩
  · rw [State.settle_history_recency, State.vacate_history]
    exact recency
  · rw [nonzero_eq]
  · show nonzero (w.exposed i) = _
    rw [exposedThen, exposed h, nonzero_eq]
  · rw [final, others q other, history, places]
    rfl

end

end Sys2Proof.Machine

/-! PROOF. A removed slot has no part in what the removal sets off: its requests stay gone, its lane works for others, and
the failover of its channel leaves its records (R21, R131, R132; O12). -/

namespace Sys2Proof.Machine

section
variable {s t u : State} {i k : SlotId}

/-! ## The Level Sense Unit without a slot's requests -/

/-- The Level Sense Unit has no request, held request or run of slot `i`. -/
structure LevelSense.Without (u : LevelSense) (i : SlotId) : Prop where
  injected : ∀ q ∈ u.injected, q.slot ≠ i
  heldAdmissions : ∀ j ∈ u.heldAdmissions, j ≠ i
  run : ∀ r, u.run = some r → r.request.slot ≠ i

theorem mem_insertInjected {q x : Injected} {l : List Injected} (h : x ∈ insertInjected q l) : x = q ∨ x ∈ l := by
  induction l with
  | nil => exact .inl (List.mem_singleton.1 h)
  | cons y rest ih =>
    unfold insertInjected at h
    split at h
    case isTrue => exact List.mem_cons.1 h
    case isFalse =>
      rcases List.mem_cons.1 h with rfl | h
      · exact .inr List.mem_cons_self
      · exact (ih h).imp_right (List.mem_cons_of_mem y)

theorem mem_insertHeld {j : SlotId} {l : List SlotId} (h : j ∈ insertHeld s k l) : j = k ∨ j ∈ l := by
  induction l with
  | nil => exact .inl (List.mem_singleton.1 h)
  | cons y rest ih =>
    unfold insertHeld at h
    split at h
    case isTrue => exact List.mem_cons.1 h
    case isFalse =>
      rcases List.mem_cons.1 h with rfl | h
      · exact .inr List.mem_cons_self
      · exact (ih h).imp_right (List.mem_cons_of_mem y)

theorem State.holdAdmission_without (free : s.sense.Without i) (other : k ≠ i) : (s.holdAdmission k).sense.Without i where
  injected := free.injected
  heldAdmissions j member := (mem_insertHeld member).elim (fun same => same ▸ other) (free.heldAdmissions j)
  run := free.run

theorem State.placeRequest_without {why : Reasons} (free : s.sense.Without i) (other : k ≠ i)
    (placed : s.placeRequest k why = some t) : t.sense.Without i := by
  unfold State.placeRequest at placed
  split at placed
  case isTrue =>
    cases placed
    refine ⟨fun q member => ?_, free.heldAdmissions, free.run⟩
    obtain ⟨x, old, rfl⟩ := List.mem_map.1 member
    split
    · exact free.injected x old
    · exact free.injected x old
  case isFalse =>
    split at placed
    case isTrue =>
      cases placed
      refine ⟨fun q member => ?_, free.heldAdmissions, free.run⟩
      rcases List.mem_append.1 member with old | new
      · exact free.injected q old
      · rw [List.mem_singleton.1 new]
        exact other
    case isFalse => cases placed

theorem State.placeHeldN_without (n : Nat) (s : State) (free : s.sense.Without i) :
    (State.placeHeldN n s).sense.Without i := by
  induction n generalizing s with
  | zero => exact free
  | succ n ih =>
    unfold State.placeHeldN
    split
    case h_1 => exact free
    case h_2 j rest held =>
      split
      case h_1 placed =>
        have inHeld : ∀ x ∈ j :: rest, x ≠ i := held ▸ free.heldAdmissions
        refine ih _ (State.placeRequest_without ?_ (inHeld j List.mem_cons_self) placed)
        exact ⟨free.injected, fun x member => inHeld x (List.mem_cons_of_mem j member), free.run⟩
      case h_2 => exact free

theorem State.placeHeld_without (free : s.sense.Without i) : s.placeHeld.sense.Without i := State.placeHeldN_without _ s free

theorem State.returnRequest_without {q : Injected} (free : s.sense.Without i) (other : q.slot ≠ i) :
    (s.returnRequest q).sense.Without i := by
  unfold State.returnRequest
  split
  case h_1 later _ =>
    refine ⟨fun x member => ?_, free.heldAdmissions, free.run⟩
    rcases mem_insertInjected member with rfl | old
    · exact other
    · exact free.injected x (List.mem_of_mem_filter old)
  case h_2 =>
    split
    case isTrue =>
      refine ⟨fun x member => ?_, free.heldAdmissions, free.run⟩
      rcases mem_insertInjected member with rfl | old
      · exact other
      · exact free.injected x old
    case isFalse =>
      split
      · exact State.holdAdmission_without free other
      · exact free

theorem State.goesOnWire_without (free : s.sense.Without i) : (s.goesOnWire k).sense.Without i := by
  unfold State.goesOnWire
  split
  case h_1 =>
    split
    case isTrue =>
      split
      case isTrue =>
        unfold State.abandonRun
        split
        case h_1 r running =>
          refine State.returnRequest_without ?_ (free.run r running)
          exact ⟨free.injected, free.heldAdmissions, fun _ none => nomatch none⟩
        case h_2 => exact free
      case isFalse => exact ⟨free.injected, free.heldAdmissions, free.run⟩
    case isFalse => exact free
  case h_2 => exact free

theorem State.takeEntryN_without (n : Nat) (s : State) (l : LaneId) (free : s.sense.Without i) :
    (State.takeEntryN n s l).sense.Without i := by
  induction n generalizing s with
  | zero => exact free
  | succ n ih =>
    unfold State.takeEntryN
    split
    case isTrue => exact free
    case isFalse =>
      split
      case h_1 => exact free
      case h_2 c _ =>
        dsimp only
        split
        case isTrue =>
          refine ih _ ?_
          unfold State.passDone
          split
          · exact free
          · exact free
        case isFalse =>
          rw [State.startTransaction_eq]
          refine State.goesOnWire_without ?_
          split
          · exact free
          · exact free

/-! ## The converter's next work -/

theorem State.scanFrom_without (l : List Source) (s : State) (free : s.sense.Without i) :
    (State.scanFrom l s).sense.Without i := by
  induction l generalizing s with
  | nil => exact ⟨free.injected, free.heldAdmissions, free.run⟩
  | cons source rest ih =>
    have moved : (s.updSense fun u => { u with position := u.position + 1 }).sense.Without i :=
      ⟨free.injected, free.heldAdmissions, free.run⟩
    unfold State.scanFrom
    dsimp only
    split
    · exact ⟨free.injected, free.heldAdmissions, free.run⟩
    · split
      · exact ih _ moved
      · split
        · exact ih _ ⟨free.injected, free.heldAdmissions, free.run⟩
        · exact ⟨free.injected, free.heldAdmissions, free.run⟩

theorem State.startInjected_without (free : s.sense.Without i) (started : s.startInjected = some t) :
    t.sense.Without i := by
  unfold State.startInjected at started
  split at started
  case isTrue => cases started
  case isFalse =>
    split at started
    case h_1 q oldest =>
      cases started
      refine State.placeHeld_without ⟨fun x member => ?_, free.heldAdmissions, fun r same => ?_⟩
      · exact free.injected x (List.mem_of_mem_filter member)
      · cases same
        exact free.injected q (List.mem_of_find?_eq_some oldest)
    case h_2 => cases started

theorem State.converterWork_without (free : s.sense.Without i) : s.converterWork.sense.Without i := by
  unfold State.converterWork
  split
  case h_1 => exact free
  case h_2 =>
    have passed : s.passOver.sense.Without i := by
      unfold State.passOver
      split
      · exact ⟨free.injected, free.heldAdmissions, free.run⟩
      · exact free
    dsimp only
    split
    case h_1 started => exact State.startInjected_without passed started
    case h_2 =>
      split
      · exact State.scanFrom_without _ _ passed
      · exact passed

theorem State.settle_without (free : s.sense.Without i) : s.settle.sense.Without i := by
  rw [s.settle_sense.1]
  exact State.converterWork_without free

/-- R160: a removal leaves no request, held request or run of the slot. -/
theorem State.removeSamples_without (s : State) (i : SlotId) : (s.removeSamples i).sense.Without i := by
  have placed : (s.removeSensing i).sense.Without i := by
    unfold State.removeSensing
    refine State.placeHeld_without ⟨fun q member => ?_, fun j member => ?_, fun r same => ?_⟩
    · exact of_decide_eq_true (List.mem_filter.1 member).2
    · exact of_decide_eq_true (List.mem_filter.1 member).2
    · have running : (match s.sense.run with
          | some r => if r.request.slot = i then none else some r
          | none => none) = some r := same
      split at running
      · split at running
        · cases running
        · next other =>
          cases running
          exact other
      · cases running
  exact ⟨placed.injected, placed.heldAdmissions, placed.run⟩

end

end Sys2Proof.Machine

/-! PROOF. The work that other slots' rules do leaves a slot that has been removed as it is (O12). -/

namespace Sys2Proof.Machine

section
variable {s t u : State} {i k : SlotId} {c : ChannelId}

/-! ## A slot that is gone -/

/-- Nothing of the slot is left in the Commit Unit, on its lane or in the Level Sense Unit. -/
structure Gone (i : SlotId) (s : State) : Prop where
  commit : s.commit i = initialCommit
  queue : ∀ e ∈ (s.lane (laneOf i)).queue, e.slot ≠ i
  wire : ∀ x, (s.lane (laneOf i)).state = .onWire x → x.entry.slot ≠ i
  marks : s.bus.wanted[i.val] = noMarks
  sense : s.sense.Without i
  ring : (s.slotSense i).ring = []
  goodRun : (s.slotSense i).goodRun = 0
  rise : (s.slotSense i).rise = 0
  deficit : (s.slotSense i).deficit = 0

/-- A slot stays gone, and no lane becomes HELD. -/
structure StaysGone (i : SlotId) (s t : State) : Prop where
  gone : Gone i s → Gone i t
  held : ∀ l j, (t.lane l).state = .held j → (s.lane l).state = .held j

theorem StaysGone.of_eq (bus : t.bus = s.bus) (commits : t.commits = s.commits) (sense : t.sense = s.sense) :
    StaysGone i s t := by
  have lane : ∀ l, t.lane l = s.lane l := fun l => by simp only [State.lane, bus]
  have commit : t.commit i = s.commit i := by simp only [State.commit, commits]
  have items : t.slotSense i = s.slotSense i := by simp only [State.slotSense, sense]
  refine ⟨fun g => ⟨by rw [commit]; exact g.commit, by rw [lane]; exact g.queue, by rw [lane]; exact g.wire,
    by simp only [bus]; exact g.marks, by rw [sense]; exact g.sense, by rw [items]; exact g.ring,
    by rw [items]; exact g.goodRun, by rw [items]; exact g.rise, by rw [items]; exact g.deficit⟩, fun l j is => ?_⟩
  rw [lane] at is
  exact is

theorem StaysGone.refl (s : State) : StaysGone i s s := .of_eq rfl rfl rfl

theorem StaysGone.trans (h : StaysGone i s t) (k : StaysGone i t u) : StaysGone i s u :=
  ⟨fun g => k.gone (h.gone g), fun l j is => h.held l j (k.held l j is)⟩

theorem StaysGone.updCommit (s : State) (other : k ≠ i) (f : CommitState → CommitState) :
    StaysGone i s (s.updCommit k f) :=
  ⟨fun g => ⟨by rw [State.updCommit_commit_other _ _ _ _ other]; exact g.commit, g.queue, g.wire, g.marks, g.sense, g.ring,
    g.goodRun, g.rise, g.deficit⟩, fun _ _ is => is⟩

/-- A lane's entries rewritten for their own slots, or joined by one of another slot. -/
theorem StaysGone.updQueue (s : State) (l : LaneId) (f : List LaneEntry → List LaneEntry)
    (h : ∀ q : List LaneEntry, (∀ e ∈ q, e.slot ≠ i) → ∀ e ∈ f q, e.slot ≠ i) :
    StaysGone i s (s.updLane l fun lane => { lane with queue := f lane.queue }) := by
  refine ⟨fun g => ⟨g.commit, ?_, ?_, g.marks, g.sense, g.ring, g.goodRun, g.rise, g.deficit⟩, fun m j is => ?_⟩
  · rw [State.updLane_lane]
    split
    · exact h _ g.queue
    · exact g.queue
  · rw [State.updLane_lane]
    split
    · exact g.wire
    · exact g.wire
  · rw [State.updLane_lane] at is
    split at is
    · exact is
    · exact is

theorem StaysGone.takeEntry (s : State) (l : LaneId) : StaysGone i s (s.takeEntry l) := by
  have work := s.takeEntry_work l
  have left := WorkLeft.takeEntry (i := i) s l
  have items : (s.takeEntry l).slotSense i = s.slotSense i := by simp only [State.slotSense, work.items]
  refine ⟨fun g => ⟨?_, left.queue _ g.queue, left.wire _ g.queue g.wire, ?_, State.takeEntryN_without _ s l g.sense,
    by rw [items]; exact g.ring, by rw [items]; exact g.goodRun, by rw [items]; exact g.rise,
    by rw [items]; exact g.deficit⟩, left.held⟩
  · rcases work.commits i with same | sent
    · rw [same, g.commit]
    · rw [sent, g.commit]
      rfl
  · have wanted : (s.takeEntry l).bus.wanted = s.bus.wanted := by rw [work.only]
    simp only [wanted]
    exact g.marks

theorem StaysGone.enqueue (s : State) {e : LaneEntry} (other : e.slot ≠ i) : StaysGone i s (s.enqueue e) := by
  have joined := StaysGone.updQueue (i := i) s (laneOf e.slot) (· ++ [e]) fun q clear x member =>
    (List.mem_append.1 member).elim (clear x) fun new => List.mem_singleton.1 new ▸ other
  unfold State.enqueue
  dsimp only
  split
  · exact joined.trans (.takeEntry _ _)
  · exact joined

/-! ## Commits of other slots -/

theorem StaysGone.actTrigger (s : State) (other : k ≠ i) (forced : Bool) : StaysGone i s (s.actTrigger k forced) := by
  unfold State.actTrigger
  split
  case h_1 =>
    unfold State.takeCommit
    dsimp only
    refine .trans ?_ (.enqueue _ (i := i) other)
    refine .trans ?_ (.updCommit _ other _)
    exact .of_eq rfl rfl rfl
  case h_2 =>
    split
    case isTrue =>
      unfold State.enlargeCommit
      dsimp only
      refine .trans (.updCommit s other _) (.updQueue _ _ (List.map _) fun q clear e member => ?_)
      obtain ⟨x, old, rfl⟩ := List.mem_map.1 member
      rw [LaneEntry.enlarged_slot]
      exact clear x old
    case isFalse =>
      split
      · exact .refl s
      · exact .updCommit s other _

theorem StaysGone.forcedTrigger (s : State) (other : k ≠ i) : StaysGone i s (s.forcedTrigger k) := by
  unfold State.forcedTrigger
  split
  · exact .actTrigger s other true
  · exact .refl s

theorem StaysGone.moveSlot (s : State) (k : SlotId) (f : SlotRecord → SlotRecord) : StaysGone i s (s.moveSlot k f) :=
  .of_eq rfl rfl rfl

theorem HeadTested.staysGone (h : HeadTested s t c) : StaysGone i s t :=
  .of_eq (by rw [h.only]) (by rw [h.only]) (by rw [h.only])

/-! ## A failover and a switch -/

theorem StaysGone.completionTest (s : State) (c : ChannelId) (notServing : (s.channel c).serving ≠ some i) :
    StaysGone i s (s.completionTest c) := by
  unfold State.completionTest
  dsimp only
  split
  · next old new _ serving _ =>
    split
    · exact .refl s
    · have other : old ≠ i := fun same => notServing (same ▸ serving)
      have back : StaysGone i s (s.toReady old) := (StaysGone.moveSlot s old _).trans (.forcedTrigger _ other)
      have moved := back.trans (.moveSlot _ new fun r => { r with state := .serving })
      unfold State.completeSwitch
      dsimp only
      refine .trans ?_ (State.headTest_tested _ c).staysGone
      exact moved.trans (.of_eq rfl rfl rfl)
  · exact .refl s

theorem StaysGone.plannedSwitch (s : State) (c : ChannelId) (notServing : (s.channel c).serving ≠ some i) :
    StaysGone i s (s.plannedSwitch c) := by
  unfold State.plannedSwitch
  dsimp only
  split
  · refine .trans ?_ (.completionTest _ c ?_)
    · exact .of_eq rfl rfl rfl
    · rw [State.raise_channel, State.updChannel_channel_same]
      exact notServing
  · exact .refl s

theorem State.standIn_ne (s : State) (c : ChannelId) (i : SlotId) : s.standIn c i ≠ some i := fun same => by
  obtain ⟨other, _⟩ := Option.filter_eq_some_iff.1 same
  exact Channel.otherSlot_ne other rfl

theorem StaysGone.failover (s : State) (c : ChannelId) (reason : LeaveReason) :
    StaysGone i s (s.failover c i reason) := by
  have pick := s.standIn_ne c i
  unfold State.failover
  dsimp only
  have channel := s.drawNext_channel c (s.standIn c i)
  generalize s.standIn c i = chosen at pick channel ⊢
  have next : StaysGone i s (s.drawNext c chosen) := by
    cases chosen with
    | none => exact .of_eq rfl rfl rfl
    | some j => exact (StaysGone.moveSlot s j fun r => { r with state := .serving }).trans (.of_eq rfl rfl rfl)
  obtain ⟨only, _, _⟩ := (s.drawNext c chosen).applySplit_spec c (some i) chosen
  generalize (s.drawNext c chosen).applySplit c (some i) chosen = v at only ⊢
  have split : StaysGone i s v := next.trans (.of_eq (by rw [only]) (by rw [only]) (by rw [only]))
  have serving : (v.channel c).serving = chosen := by
    have record : v.channel c = _ := congrArg (State.channel · c) only
    rw [record]
    show (((s.drawNext c chosen).updChannel c _).channel c).serving = _
    rw [State.updChannel_channel_same, channel]
    cases chosen with
    | none => rfl
    | some j => rfl
  refine .trans ?_ (.plannedSwitch _ c ?_)
  · refine .trans ?_ (State.headTest_tested _ c).staysGone
    exact split.trans (.of_eq rfl rfl rfl)
  · rw [(State.headTest_tested _ c).self]
    show (v.channel c).serving ≠ some i
    rw [serving]
    exact pick

theorem StaysGone.slotLeft (s : State) (reason : LeaveReason) : StaysGone i s (s.slotLeft i reason) := by
  unfold State.slotLeft
  split
  · split
    · exact .failover s _ reason
    · unfold State.targetTest
      dsimp only
      split
      · split
        · exact .refl s
        · unfold State.cancelSwitch
          dsimp only
          refine .trans ?_ (State.headTest_tested _ _).staysGone
          exact .of_eq rfl rfl rfl
      · exact .refl s
  · exact .refl s

theorem StaysGone.settle (s : State) : StaysGone i s s.settle where
  gone g := ⟨by rw [State.settle_commit]; exact g.commit, by rw [State.settle_lane]; exact g.queue,
    by rw [State.settle_lane]; exact g.wire, by simp only [State.settle_bus]; exact g.marks, State.settle_without g.sense,
    by rw [State.settle_slotSense]; exact g.ring, by rw [State.settle_slotSense]; exact g.goodRun,
    by rw [State.settle_slotSense]; exact g.rise, by rw [State.settle_slotSense]; exact g.deficit⟩
  held l j is := by rw [State.settle_lane] at is; exact is

end

end Sys2Proof.Machine

/-! PROOF. A removal empties the slot, calls off its work and its jobs, and fails over its channel (O12). -/

namespace Sys2Proof.Machine

section
variable {s t u : State} {i : SlotId}

/-! ## The lanes and the held lanes, before the slot's jobs are withdrawn -/

theorem State.abortTransaction_engine (s : State) (i : SlotId) : (s.abortTransaction i).engine = s.engine := by
  unfold State.abortTransaction
  split
  · split
    · exact State.laneFree_engine s _
    · rfl
  · rfl

/-- A lane with a held job has no transaction. -/
theorem State.abortTransaction_held {k : Job} (held : (s.lane (laneOf i)).state = .held k) : s.abortTransaction i = s := by
  unfold State.abortTransaction
  split
  case h_1 wire => cases held.symm.trans wire
  case h_2 => rfl

theorem State.abortTransaction_lane {l : LaneId} (other : laneOf i ≠ l) : (s.abortTransaction i).lane l = s.lane l := by
  unfold State.abortTransaction
  split
  · split
    · exact (s.laneFree_work _).lanes l other
    · rfl
  · rfl

theorem State.dropHeld_lane {l : LaneId} (other : laneOf i ≠ l) : (s.dropHeld i true).lane l = s.lane l := by
  unfold State.dropHeld
  dsimp only
  split
  · split
    · exact (State.laneFree_work _ _).lanes l other
    · rfl
  · rfl

/-- The lane whose held job is dropped leaves the held-lane list. -/
theorem State.dropHeld_drops {j : Job} (held : (s.lane (laneOf i)).state = .held j) (own : j.slot = i) :
    (s.dropHeld i true).engine = { s.engine with heldLanes := s.engine.heldLanes.filter fun l => l ≠ laneOf i } ∧
      ∀ k, ((s.dropHeld i true).lane (laneOf i)).state ≠ .held k := by
  unfold State.dropHeld
  simp only [held, own, JobWork.concerned, Bool.true_or, and_self, if_true]
  exact ⟨State.laneFree_engine _ _, State.laneFree_notHeld _ _⟩

theorem State.dropHeld_nothing (notHeld : ∀ j, (s.lane (laneOf i)).state = .held j → j.slot ≠ i) :
    s.dropHeld i true = s := by
  unfold State.dropHeld
  dsimp only
  split
  case h_1 j held => exact if_neg fun own => notHeld j held own.1
  case h_2 => rfl

theorem State.entriesGone_state (s : State) (i : SlotId) (l : LaneId) :
    ((s.entriesGone i).lane l).state = (s.lane l).state := by
  rw [State.entriesGone_lane, State.dropEntries, State.updLane_lane]
  split
  · rfl
  · rfl

theorem State.entriesGone_engine (s : State) (i : SlotId) : (s.entriesGone i).engine = s.engine := by
  rw [State.entriesGone_only]
  rfl

/-- What is left of the engine and of the held lanes once the slot's lane is cleared. -/
structure LaneCleared (s v : State) (i : SlotId) : Prop where
  running : v.engine.running = s.engine.running
  queue : v.engine.queue = s.engine.queue
  dropped : ∀ j, (s.lane (laneOf i)).state = .held j → j.slot = i →
    v.engine.heldLanes = (s.engine.heldLanes.filter fun l => l ≠ laneOf i) ∧
      ∀ k, (v.lane (laneOf i)).state ≠ .held k
  kept : (∀ j, (s.lane (laneOf i)).state = .held j → j.slot ≠ i) → v.engine.heldLanes = s.engine.heldLanes
  held : ∀ l k, l ∈ v.engine.heldLanes → (s.lane l).state = .held k → (v.lane l).state = .held k

theorem State.laneCleared_cleared (s : State) (i : SlotId) : LaneCleared s (s.laneCleared i) i := by
  have engine : ((s.entriesGone i).abortTransaction i).engine = s.engine := by
    rw [State.abortTransaction_engine, State.entriesGone_engine]
  have still : ∀ j, (s.lane (laneOf i)).state = .held j →
      (((s.entriesGone i).abortTransaction i).lane (laneOf i)).state = .held j := fun j held => by
    have same : ((s.entriesGone i).lane (laneOf i)).state = .held j := (s.entriesGone_state i _).trans held
    rw [State.abortTransaction_held same]
    exact same
  have back : ∀ j, (((s.entriesGone i).abortTransaction i).lane (laneOf i)).state = .held j →
      (s.lane (laneOf i)).state = .held j := fun j held =>
    ((WorkLeft.entriesGone (i := i) s).trans (.abortTransaction _)).held _ j held
  have others : ∀ l, laneOf i ≠ l → ((s.laneCleared i).lane l).state = (s.lane l).state := fun l other => by
    rw [State.laneCleared, State.dropHeld_lane other, State.abortTransaction_lane other, State.entriesGone_state]
  by_cases drops : ∃ j, (s.lane (laneOf i)).state = .held j ∧ j.slot = i
  · obtain ⟨j, held, own⟩ := drops
    obtain ⟨dropped, notHeld⟩ := State.dropHeld_drops (still j held) own
    rw [engine] at dropped
    have dropped : (s.laneCleared i).engine =
      { s.engine with heldLanes := s.engine.heldLanes.filter fun l => l ≠ laneOf i } := dropped
    refine ⟨by rw [dropped], by rw [dropped], fun _ _ _ => ⟨by rw [dropped], notHeld⟩, fun none => (none j held own).elim,
      fun l k member is => ?_⟩
    rw [dropped] at member
    have other : l ≠ laneOf i := of_decide_eq_true (List.mem_filter.1 member).2
    rw [others l (Ne.symm other)]
    exact is
  · have nothing : s.laneCleared i = (s.entriesGone i).abortTransaction i :=
      State.dropHeld_nothing fun j held own => drops ⟨j, back j held, own⟩
    rw [nothing]
    refine ⟨by rw [engine], by rw [engine], fun j held own => (drops ⟨j, held, own⟩).elim, fun _ => by rw [engine],
      fun l k _ is => ?_⟩
    by_cases same : laneOf i = l
    · subst same
      exact still k is
    · rw [State.abortTransaction_lane same, State.entriesGone_state]
      exact is

/-! ## The withdrawal of the slot's jobs (R57) -/

theorem State.placeFreed_nothing (empty : s.engine.heldLanes = []) : s.placeFreed = s := by
  unfold State.placeFreed
  rw [empty]

/-- The held lane at the head places its job behind a job in progress. -/
theorem State.placeFreed_places {l : LaneId} {rest : List LaneId} {k : Job} {r : RunningJob}
    (heldLanes : s.engine.heldLanes = l :: rest) (held : (s.lane l).state = .held k) (busy : s.engine.running = some r) :
    s.placeFreed.engine = { s.engine with queue := s.engine.queue ++ [k], heldLanes := rest } ∧
      ∀ x, (s.placeFreed.lane l).state ≠ .held x := by
  unfold State.placeFreed
  rw [heldLanes]
  dsimp only
  rw [held]
  refine ⟨?_, State.laneFree_notHeld _ l⟩
  dsimp only
  rw [State.laneFree_engine, State.joinEngine_engine (r := r)]
  · rfl
  · exact busy

theorem State.joinEngine_heldLanes (s : State) (k : Job) : (s.joinEngine k).engine.heldLanes = s.engine.heldLanes := by
  have joins : (s.engine.join k).heldLanes = s.engine.heldLanes := by
    unfold Engine.join
    split
    · rfl
    · rfl
  unfold State.joinEngine State.commitChecking
  split
  · exact joins
  · exact joins

theorem State.joinEngine_running {r : RunningJob} (busy : s.engine.running = some r) (k : Job) :
    (s.joinEngine k).engine.running = some r := by
  rw [State.joinEngine_engine busy]
  exact busy

theorem State.placeFreed_engine (s : State) :
    (∀ l ∈ s.placeFreed.engine.heldLanes, l ∈ s.engine.heldLanes) ∧
      ∀ r, s.engine.running = some r → s.placeFreed.engine.running = some r := by
  unfold State.placeFreed
  split
  case h_1 => exact ⟨fun _ h => h, fun _ h => h⟩
  case h_2 l rest heldLanes =>
    split
    case h_1 k held =>
      rw [State.laneFree_engine, State.joinEngine_heldLanes, heldLanes]
      exact ⟨fun x member => List.mem_cons_of_mem l member, fun r busy => 
        State.joinEngine_running (s := s.updEngine fun e => { e with heldLanes := rest }) (r := r) busy k⟩
    case h_2 =>
      rw [heldLanes]
      exact ⟨fun x member => List.mem_cons_of_mem l member, fun _ h => h⟩

/-- The engine without the slot's jobs. -/
def Engine.withoutSlot (e : Engine) (i : SlotId) : Engine :=
  { e with
    queue := e.queue.filter fun j => j.slot ≠ i
    running := e.running.map fun r => { r with discarded := r.discarded || decide (r.job.slot = i) } }

theorem State.withdrawJobs_eq (s : State) (i : SlotId) :
    s.withdrawJobs i true =
      if s.engine.queue.any (fun j => j.slot = i) then (s.updEngine fun e => e.withoutSlot i).placeFreed
      else s.updEngine fun e => e.withoutSlot i := by
  have mapped : ∀ r : RunningJob, (if (decide (r.job.slot = i) && r.job.work.concerned true) = true then
      { r with discarded := true } else r) = { r with discarded := r.discarded || decide (r.job.slot = i) } := fun r => by
    by_cases own : r.job.slot = i
    · simp [own, JobWork.concerned]
    · simp [own]
  have queue : ∀ q : List Job, (q.filter fun j => !(decide (j.slot = i) && j.work.concerned true)) =
      q.filter fun j => j.slot ≠ i := fun q => List.filter_congr fun j _ => by
    by_cases own : j.slot = i
    · simp [own, JobWork.concerned]
    · simp [own]
  have any : ∀ q : List Job, (q.any fun j => decide (j.slot = i) && j.work.concerned true) =
      q.any fun j => decide (j.slot = i) := fun q => by
    congr 1
    funext j
    simp [JobWork.concerned]
  unfold State.withdrawJobs Engine.withoutSlot
  simp only [mapped, queue, any]

/-- R57: what the withdrawal of the slot's jobs leaves, by the held lanes then. -/
structure JobsWithdrawn (s v : State) (i : SlotId) : Prop where
  running : ∀ r, s.engine.running = some r →
    v.engine.running = some { r with discarded := r.discarded || decide (r.job.slot = i) }
  none : (∀ j ∈ s.engine.queue, j.slot ≠ i) → v.engine.queue = s.engine.queue ∧ v.engine.heldLanes = s.engine.heldLanes
  unplaced : ∀ j ∈ s.engine.queue, j.slot = i → s.engine.heldLanes = [] →
    v.engine.queue = (s.engine.queue.filter fun k => k.slot ≠ i) ∧ v.engine.heldLanes = []
  placed : ∀ j ∈ s.engine.queue, j.slot = i → ∀ l rest k, s.engine.heldLanes = l :: rest → (s.lane l).state = .held k →
    s.engine.running ≠ .none →
      v.engine.queue = (s.engine.queue.filter fun x => x.slot ≠ i) ++ [k] ∧ v.engine.heldLanes = rest ∧
        ∀ x, (v.lane l).state ≠ .held x
  heldLanes : ∀ l ∈ v.engine.heldLanes, l ∈ s.engine.heldLanes

theorem State.withdrawJobs_withdrawn (s : State) (i : SlotId) : JobsWithdrawn s (s.withdrawJobs i true) i := by
  rw [State.withdrawJobs_eq]
  generalize withdraws : (s.updEngine fun e => e.withoutSlot i) = v
  have engine : v.engine = s.engine.withoutSlot i := by rw [← withdraws]; rfl
  have lanes : ∀ l, v.lane l = s.lane l := fun l => by rw [← withdraws]; rfl
  have running : ∀ r, s.engine.running = some r →
      v.engine.running = some { r with discarded := r.discarded || decide (r.job.slot = i) } := fun r busy => by
    rw [engine, Engine.withoutSlot, busy]
    rfl
  have heldLanes : v.engine.heldLanes = s.engine.heldLanes := by rw [engine]; rfl
  have queue : v.engine.queue = s.engine.queue.filter fun j => j.slot ≠ i := by rw [engine]; rfl
  split
  case isTrue some =>
    obtain ⟨subset, stays⟩ := v.placeFreed_engine
    refine ⟨fun r busy => stays _ (running r busy), fun none => ?_, fun j _ _ empty => ?_,
      fun j _ _ l rest k held isHeld busy => ?_, fun l member => heldLanes ▸ subset l member⟩
    · obtain ⟨j, member, own⟩ := List.any_eq_true.1 some
      exact (none j member (of_decide_eq_true own)).elim
    · rw [State.placeFreed_nothing (by rw [heldLanes]; exact empty), queue, heldLanes]
      exact ⟨rfl, empty⟩
    · obtain ⟨r, working⟩ := Option.ne_none_iff_exists'.1 busy
      obtain ⟨placed, notHeld⟩ := State.placeFreed_places (by rw [heldLanes]; exact held) (by rw [lanes]; exact isHeld)
        (running r working)
      rw [placed, queue]
      exact ⟨rfl, rfl, notHeld⟩
  case isFalse noneOwn =>
    have others : ∀ j ∈ s.engine.queue, j.slot ≠ i := fun j member own =>
      noneOwn (List.any_eq_true.2 ⟨j, member, decide_eq_true own⟩)
    refine ⟨running, fun _ => ⟨?_, heldLanes⟩, fun j member own => (others j member own).elim,
      fun j member own => (others j member own).elim, fun l member => heldLanes ▸ member⟩
    rw [queue]
    exact List.filter_eq_self.2 fun j member => decide_eq_true (others j member)

/-! ## The slot's lane is clear -/

theorem State.abortTransaction_wire (clear : ∀ e ∈ (s.lane (laneOf i)).queue, e.slot ≠ i) :
    ∀ x, ((s.abortTransaction i).lane (laneOf i)).state = .onWire x → x.entry.slot ≠ i := by
  unfold State.abortTransaction
  split
  case h_1 t wire =>
    split
    case isTrue =>
      refine State.takeEntryN_wire (P := fun e => e.slot ≠ i) _ _ (laneOf i) ?_ ?_
      · rw [State.updLane_lane_same]
        exact clear
      · rw [State.updLane_lane_same]
        exact fun _ => nofun
    case isFalse other =>
      intro x is
      obtain rfl := LaneState.onWire.inj (wire.symm.trans is)
      exact other
  case h_2 notWire => exact fun x is => (notWire x is).elim

theorem State.removeWork_clear (s : State) (i : SlotId) :
    (∀ e ∈ ((s.removeWork i).lane (laneOf i)).queue, e.slot ≠ i) ∧
      ∀ x, ((s.removeWork i).lane (laneOf i)).state = .onWire x → x.entry.slot ≠ i := by
  have own := s.entriesGone_queue i
  have aborted := (WorkLeft.abortTransaction (i := i) (s.entriesGone i)).queue _ own
  have after : WorkLeft i ((s.entriesGone i).abortTransaction i) (s.workOff i) :=
    (WorkLeft.dropHeld _ true).trans (.withdrawJobs _ true)
  rw [State.removeWork_lane]
  exact ⟨after.queue _ aborted, after.wire _ aborted (State.abortTransaction_wire own)⟩

theorem State.removeWork_engine (s : State) (i : SlotId) : (s.removeWork i).engine = (s.workOff i).engine := by
  rw [State.removeWork_only]

theorem State.removeWork_marks (s : State) (i : SlotId) : (s.removeWork i).bus.wanted[i.val] = noMarks := by
  rw [State.removeWork_only]
  exact modifyAt_same ..

/-- R45: each pass-through of a list that has a ticket is announced. -/
theorem State.foldl_passDone_announces {e : LaneEntry} {ticket : Nat} (hasTicket : e.ticket = some ticket)
    (status : PassStatus) (l : List LaneEntry) (s : State) (member : e ∈ l) :
    Announced s.notices (l.foldl (fun s e => s.passDone e status) s).notices (.passthroughDone e.slot ticket status) := by
  have raises : ∀ (l : List LaneEntry) (s : State),
      Raises s.notices (l.foldl (fun s e => s.passDone e status) s).notices := by
    intro l
    induction l with
    | nil => exact fun _ => .refl
    | cons x rest ih => exact fun s => (s.passDone_work (laneOf x.slot) x status).raises.trans (ih _)
  induction l generalizing s with
  | nil => cases member
  | cons x rest ih =>
    rw [List.foldl_cons]
    rcases List.mem_cons.1 member with rfl | later
    · have done : s.passDone e status = s.raise (.passthroughDone e.slot ticket status) := by
        rw [State.passDone, hasTicket]
      rw [done]
      exact (Announced.now _ _).trans (raises rest (s.raise (.passthroughDone e.slot ticket status)))
    · exact .after (s.passDone_work (laneOf x.slot) x status).raises (ih _ later)

theorem State.mem_passEntries {e : LaneEntry} (own : e.slot = i) (pass : e.laneClass = .pass)
    (here : e ∈ (s.lane (laneOf i)).queue ∨ ∃ x, (s.lane (laneOf i)).state = .onWire x ∧ x.entry = e) :
    e ∈ s.passEntries i := by
  unfold State.passEntries
  refine List.mem_filter.2 ⟨?_, by simp [own, pass]⟩
  obtain queued | ⟨x, wire, rfl⟩ := here
  · exact List.mem_append_right _ queued
  · rw [wire]
    exact List.mem_append_left _ (List.mem_singleton.2 rfl)

theorem State.removeWork_raises (s : State) (i : SlotId) : Raises (s.entriesGone i).notices (s.removeWork i).notices := by
  have undisturbed : Undisturbed (s.entriesGone i) (s.workOff i) :=
    (((Undisturbed.refl _).abortTransaction i).dropHeld i true).withdrawJobs i true
  rw [State.removeWork_only]
  exact undisturbed.notices

theorem State.removeWork_announces {e : LaneEntry} {ticket : Nat} (hasTicket : e.ticket = some ticket) (own : e.slot = i)
    (pass : e.laneClass = .pass)
    (here : e ∈ (s.lane (laneOf i)).queue ∨ ∃ x, (s.lane (laneOf i)).state = .onWire x ∧ x.entry = e) :
    Announced s.notices (s.removeWork i).notices (.passthroughDone i ticket .aborted) := by
  have announced := State.foldl_passDone_announces hasTicket .aborted (s.passEntries i) (s.dropEntries i fun _ => true)
    (State.mem_passEntries own pass here)
  rw [own] at announced
  exact Announced.trans announced (s.removeWork_raises i)

/-! ## The entry into VACANT -/

/-- The slot's record and its commit state at their initial values. -/
def State.emptied (s : State) (i : SlotId) : State := (s.updSlot i SlotRecord.removed).updCommit i fun _ => initialCommit

/-- The notice of a removal. -/
def State.removedNotice (s : State) (i : SlotId) : Notice := .slotChanged i (s.slot i).state .vacant none none none

theorem State.emptied_slot (s : State) (i : SlotId) : (s.emptied i).slot i = vacantSlot (s.slot i).channel :=
  State.updSlot_slot_same ..

theorem State.emptied_notice (s : State) (i : SlotId) :
    slotChangedNotice i (s.slot i).state ((s.emptied i).slot i) = s.removedNotice i := by
  rw [State.emptied_slot]
  rfl

theorem State.vacate_serving {c : ChannelId} (channel : (s.slot i).channel = some c)
    (serving : (s.channel c).serving = some i) :
    s.vacate i = ((s.emptied i).slotLeft i .removed).raise (s.removedNotice i) := by
  have named : ((s.emptied i).slot i).channel = some c := by rw [State.emptied_slot]; exact channel
  have stillServing : ((s.emptied i).channel c).serving = some i := serving
  have notice := s.emptied_notice i
  unfold State.vacate State.slotLeft
  generalize empties : (s.updSlot i SlotRecord.removed).updCommit i (fun _ => initialCommit) = v
  obtain rfl : v = s.emptied i := empties.symm
  dsimp only
  rw [notice, named]
  dsimp only
  rw [if_pos stillServing, if_pos stillServing]

theorem State.vacate_other (notServing : ∀ c, (s.slot i).channel = some c → (s.channel c).serving ≠ some i) :
    s.vacate i = ((s.emptied i).raise (s.removedNotice i)).slotLeft i .removed := by
  have notice := s.emptied_notice i
  unfold State.vacate State.slotLeft
  generalize empties : (s.updSlot i SlotRecord.removed).updCommit i (fun _ => initialCommit) = v
  obtain rfl : v = s.emptied i := empties.symm
  dsimp only
  rw [notice, State.raise_slot]
  cases named : ((s.emptied i).slot i).channel with
  | some c =>
    have other : ¬((s.emptied i).channel c).serving = some i := by
      rw [State.emptied_slot] at named
      exact notServing c named
    dsimp only
    rw [if_neg other, State.raise_channel, if_neg other]
  | none => rfl

/-- R131: a switch called off. -/
theorem State.cancelSwitch_eq {c : ChannelId} {k : SlotId} (switching : (s.channel c).state = .switching)
    (serving : (s.channel c).serving = some k) :
    s.cancelSwitch c = State.headTest
      ((s.withChannel c { s.channel c with state := .supplied, target := none }).raise
        (.channelChanged c ⟨.switchCancelled, .switching, .supplied, some k, some k, none, none⟩)) c := by
  unfold State.cancelSwitch
  rw [State.updChannel_eq]
  dsimp only
  rw [State.withChannel_channel, channelMove, switching, serving]

/-- What the entry into VACANT leaves, with what follows of the channel. -/
structure Vacates (s t : State) (i : SlotId) : Prop where
  stays : StaysGone i (s.emptied i) t
  slot : t.slot i = vacantSlot (s.slot i).channel
  engine : t.engine = s.engine
  notice : Announced s.notices t.notices (s.removedNotice i)
  failed : ∀ ch, (s.slot i).channel = some ch → (s.channel ch).serving = some i → i ∈ (s.channel ch).pairSlots →
    FailedOver s t ch i .removed (s.channel ch).reservations
  cancelled : ∀ ch k, (s.slot i).channel = some ch → (s.channel ch).serving = some k → k ≠ i →
    (s.channel ch).state = .switching → (s.channel ch).target = some i →
      (t.channel ch).state = .supplied ∧ (t.channel ch).serving = some k ∧ (t.channel ch).target = none ∧
        Announced s.notices t.notices
          (.channelChanged ch ⟨.switchCancelled, .switching, .supplied, some k, some k, none, none⟩)

theorem State.emptied_other (s : State) {i k : SlotId} (other : k ≠ i) : (s.emptied i).slot k = s.slot k :=
  State.updSlot_slot_other _ _ _ _ (Ne.symm other)

/-- A switch to a slot that is VACANT is called off. -/
theorem State.slotLeft_cancels {v : State} {ch : ChannelId} {k : SlotId} {reason : LeaveReason}
    (channel : (v.slot i).channel = some ch) (serving : (v.channel ch).serving = some k) (other : k ≠ i)
    (switching : (v.channel ch).state = .switching) (target : (v.channel ch).target = some i)
    (notReady : (v.slot i).state ≠ .ready) : v.slotLeft i reason = v.cancelSwitch ch := by
  unfold State.slotLeft
  rw [channel]
  dsimp only
  rw [if_neg fun same => other (Option.some.inj (serving.symm.trans same))]
  unfold State.targetTest
  dsimp only
  rw [switching, target]
  exact if_neg notReady

theorem State.vacate_vacates (s : State) (i : SlotId) : Vacates s (s.vacate i) i := by
  have record := s.emptied_slot i
  have vacant : ((s.emptied i).slot i).state ≠ .ready := by rw [record]; exact nofun
  by_cases serves : ∃ c, (s.slot i).channel = some c ∧ (s.channel c).serving = some i
  · obtain ⟨c, channel, serving⟩ := serves
    rw [State.vacate_serving channel serving]
    have jobs : LeavesJobs (fun _ => True) (s.emptied i) ((s.emptied i).slotLeft i .removed) := .slotLeft _ i .removed
    refine ⟨(StaysGone.slotLeft _ .removed).trans (.of_eq rfl rfl rfl), ?_, jobs.engine, ?_,
      fun ch named isServing inPair => ?_, fun ch k named isServing other => ?_⟩
    · rw [State.raise_slot, State.slotLeft_own _ vacant, record]
    · exact .after ((Undisturbed.refl (s.emptied i)).slotLeft i .removed).notices (.now _ _)
    · obtain ⟨failed, _⟩ := State.slotLeft_failsOver (s := s.emptied i) (c := ch) (i := i) (reason := .removed)
        (by rw [record]; exact named) isServing inPair vacant
      exact (failed.earlier (s := s) rfl (fun k other => s.emptied_other other) .refl).later rfl rfl (.raise _ .refl)
    · obtain rfl := Option.some.inj (channel.symm.trans named)
      exact (other (Option.some.inj (isServing.symm.trans serving))).elim
  · rw [State.vacate_other fun c channel serving => serves ⟨c, channel, serving⟩]
    generalize raised : (s.emptied i).raise (s.removedNotice i) = v
    have own : v.slot i = vacantSlot (s.slot i).channel := by rw [← raised, State.raise_slot, record]
    have channels : ∀ ch, v.channel ch = s.channel ch := fun ch => by rw [← raised]; rfl
    have notices : v.notices = s.notices.raise (s.removedNotice i) := by rw [← raised]; rfl
    have engine : v.engine = s.engine := by rw [← raised]; rfl
    have base : StaysGone i (s.emptied i) v := by rw [← raised]; exact .of_eq rfl rfl rfl
    have notReady : (v.slot i).state ≠ .ready := by rw [own]; exact nofun
    have jobs : LeavesJobs (fun _ => True) v (v.slotLeft i .removed) := .slotLeft v i .removed
    refine ⟨base.trans (.slotLeft v .removed), ?_, jobs.engine.trans engine, ?_, fun ch named isServing => ?_,
      fun ch k named isServing other switching target => ?_⟩
    · rw [State.slotLeft_own v notReady, own]
    · refine Announced.trans ?_ ((Undisturbed.refl v).slotLeft i .removed).notices
      rw [notices]
      exact .now _ _
    · exact (serves ⟨ch, named, isServing⟩).elim
    · rw [State.slotLeft_cancels (by rw [own]; exact named) (by rw [channels]; exact isServing) other
        (by rw [channels]; exact switching) (by rw [channels]; exact target) notReady]
      rw [State.cancelSwitch_eq (k := k) (by rw [channels]; exact switching) (by rw [channels]; exact isServing)]
      have tested := State.headTest_tested
        ((v.withChannel ch { v.channel ch with state := .supplied, target := none }).raise
          (.channelChanged ch ⟨.switchCancelled, .switching, .supplied, some k, some k, none, none⟩)) ch
      refine ⟨?_, ?_, ?_, ?_⟩
      · rw [tested.self, State.raise_channel, State.withChannel_channel]
      · rw [tested.self, State.raise_channel, State.withChannel_channel, channels]
        exact isServing
      · rw [tested.self, State.raise_channel, State.withChannel_channel]
      · refine .after (v := v.notices) ?_ ((Announced.now _ _).trans tested.notices)
        rw [notices]
        exact .raise _ .refl

/-! ## The removal -/

/-- The accounts are the History Unit's. -/
theorem State.removeAccounts_history (s : State) (i : SlotId) :
    s.removeAccounts i = { s with history := (s.removeAccounts i).history } := by
  unfold State.removeAccounts
  split
  case isTrue =>
    split
    case h_1 p _ =>
      dsimp only
      have preserved : s.preserve i false = { s with history := (s.preserve i false).history } := by
        unfold State.preserve
        split
        · exact State.editEntry_history ..
        · rfl
      generalize s.preserve i false = v at preserved ⊢
      have stamped := v.stamped.only
      generalize v.roomForStamp.stampTaken = w at stamped ⊢
      rw [State.editEntry_history, stamped, preserved]
    case h_2 => rfl
  case isFalse => rfl

/-- The state in which the removed slot enters VACANT. -/
def State.calledOff (s : State) (i : SlotId) : State :=
  (((s.setPresence i false).removeWork i).removeSamples i).removeAccounts i

/-- What the calling off leaves: the records; the lanes and the engine as its first part leaves them, in `v`; and the
Level Sense Unit as its second does, in `w`. -/
structure CalledOff (s v w t : State) : Prop where
  slots : t.slots = s.slots
  channels : t.channels = s.channels
  bus : t.bus = v.bus
  engine : t.engine = v.engine
  notices : t.notices = v.notices
  raises : Raises s.notices t.notices
  sense : t.sense = w.sense

theorem State.calledOff_calledOff (s : State) (i : SlotId) :
    CalledOff s ((s.setPresence i false).removeWork i) (((s.setPresence i false).removeWork i).removeSamples i)
      (s.calledOff i) := by
  have kept : RecordsKept (s.setPresence i false) ((s.setPresence i false).removeWork i) := .removeWork (.refl _) i
  have raises : Raises s.notices ((s.setPresence i false).removeWork i).notices :=
    ((Undisturbed.refl (s.setPresence i false)).removeWork i).notices
  unfold State.calledOff
  generalize (s.setPresence i false).removeWork i = v at kept raises ⊢
  have samples : SenseOnly v (v.removeSamples i) := v.removeSamples_only i
  unfold SenseOnly at samples
  generalize v.removeSamples i = w at samples ⊢
  have accounts := w.removeAccounts_history i
  generalize w.removeAccounts i = x at accounts ⊢
  have first : w.slots = v.slots ∧ w.channels = v.channels ∧ w.bus = v.bus ∧ w.engine = v.engine ∧
      w.notices = v.notices := by
    rw [samples]
    exact ⟨rfl, rfl, rfl, rfl, rfl⟩
  have second : x.slots = w.slots ∧ x.channels = w.channels ∧ x.bus = w.bus ∧ x.engine = w.engine ∧
      x.notices = w.notices ∧ x.sense = w.sense := by
    rw [accounts]
    exact ⟨rfl, rfl, rfl, rfl, rfl, rfl⟩
  obtain ⟨slots, channels, bus, engine, notices⟩ := first
  obtain ⟨slots', channels', bus', engine', notices', sense⟩ := second
  exact ⟨slots'.trans (slots.trans kept.slots), channels'.trans (channels.trans kept.channels), bus'.trans bus,
    engine'.trans engine, notices'.trans notices, (notices'.trans notices) ▸ raises, sense⟩

theorem State.lane_of_bus (h : t.bus = s.bus) (l : LaneId) : t.lane l = s.lane l := by simp only [State.lane, h]

theorem State.emptied_lane (s : State) (i : SlotId) (l : LaneId) : (s.emptied i).lane l = s.lane l := rfl

theorem State.removeSamples_items (s : State) (i : SlotId) :
    ((s.removeSamples i).slotSense i).ring = [] ∧ ((s.removeSamples i).slotSense i).goodRun = 0 ∧
      ((s.removeSamples i).slotSense i).rise = 0 ∧ ((s.removeSamples i).slotSense i).deficit = 0 := by
  unfold State.removeSamples
  rw [State.updSlotSense_slotSense_same]
  exact ⟨rfl, rfl, rfl, rfl⟩

theorem State.emptied_gone {v : State} (clear : (∀ e ∈ (v.lane (laneOf i)).queue, e.slot ≠ i) ∧
      ∀ x, (v.lane (laneOf i)).state = .onWire x → x.entry.slot ≠ i) (marks : v.bus.wanted[i.val] = noMarks)
    (without : v.sense.Without i) (items : (v.slotSense i).ring = [] ∧ (v.slotSense i).goodRun = 0 ∧
      (v.slotSense i).rise = 0 ∧ (v.slotSense i).deficit = 0) : Gone i (v.emptied i) :=
  ⟨State.updCommit_commit_same .., clear.1, clear.2, marks, without, items.1, items.2.1, items.2.2.1, items.2.2.2⟩

theorem State.calledOff_gone (s : State) (i : SlotId) : Gone i ((s.calledOff i).emptied i) := by
  obtain ⟨_, _, bus, _, _, _, sense⟩ := s.calledOff_calledOff i
  have clear := (s.setPresence i false).removeWork_clear i
  have marks := (s.setPresence i false).removeWork_marks i
  generalize (s.setPresence i false).removeWork i = v at bus sense clear marks
  have items := v.removeSamples_items i
  have without := v.removeSamples_without i
  generalize v.removeSamples i = w at sense items without
  generalize s.calledOff i = x at bus sense ⊢
  refine State.emptied_gone ?_ ?_ ?_ ?_
  · rw [State.lane_of_bus bus]
    exact clear
  · simp only [bus]
    exact marks
  · rw [sense]
    exact without
  · simp only [State.slotSense, sense]
    exact items

/-- Settles O12: what a removal empties and calls off, and what it does to the slot's channel. -/
theorem removal_empties_the_slot : Obligations.Removal_empties_the_slot := by
  unfold Obligations.Removal_empties_the_slot
  intro s i c seated removal
  have off := s.calledOff_calledOff i
  have goneThen := s.calledOff_gone i
  have vacates := (s.calledOff i).vacate_vacates i
  have slots : ∀ k, (s.calledOff i).slot k = s.slot k := fun k => by simp only [State.slot, off.slots]
  have channels : ∀ ch, (s.calledOff i).channel ch = s.channel ch := fun ch => by simp only [State.channel, off.channels]
  have undisturbed : Undisturbed (s.setPresence i false) (s.removal i).settle := (Undisturbed.removal s i).settle
  have here : s.removal i = (s.calledOff i).vacate i := rfl
  have gone : Gone i (s.removal i).settle := (vacates.stays.trans (.settle _)).gone goneThen
  have held : ∀ l j, ((s.removal i).settle.lane l).state = .held j →
      ((s.setPresence i false).removeWork i |>.lane l).state = .held j := fun l j is => by
    have before := (vacates.stays.trans (.settle _)).held l j is
    rw [State.emptied_lane, State.lane_of_bus off.bus] at before
    exact before
  have engine : (s.removal i).settle.engine = ((s.setPresence i false).workOff i).engine := by
    rw [State.settle_engine, here, vacates.engine, off.engine, State.removeWork_engine]
  have cleared := (s.setPresence i false).laneCleared_cleared i
  have withdrawn := ((s.setPresence i false).laneCleared i).withdrawJobs_withdrawn i
  rw [show ((s.setPresence i false).laneCleared i).withdrawJobs i true = (s.setPresence i false).workOff i from rfl]
    at withdrawn
  have laterHeld : ∀ heldThen : List LaneId,
      ((∃ j, (s.lane (laneOf i)).state = .held j ∧ j.slot = i) →
        heldThen = s.engine.heldLanes.filter fun l => l ≠ laneOf i) →
      ((∀ j, (s.lane (laneOf i)).state = .held j → j.slot ≠ i) → heldThen = s.engine.heldLanes) →
        ((s.setPresence i false).laneCleared i).engine.heldLanes = heldThen := fun heldThen drops keeps => by
    by_cases own : ∃ j, (s.lane (laneOf i)).state = .held j ∧ j.slot = i
    · obtain ⟨j, isHeld, same⟩ := own
      exact (cleared.dropped j isHeld same).1.trans (drops ⟨j, isHeld, same⟩).symm
    · have none : ∀ j, (s.lane (laneOf i)).state = .held j → j.slot ≠ i := fun j isHeld same => own ⟨j, isHeld, same⟩
      exact (cleared.kept none).trans (keeps none).symm
  have notHeldAfter : ∀ l, (∀ x, (((s.setPresence i false).workOff i).lane l).state ≠ .held x) →
      ∀ x, ((s.removal i).settle.lane l).state ≠ .held x := fun l none x is => by
    have before := held l x is
    rw [State.removeWork_lane] at before
    exact none x before
  have notOwn : ∀ l, (∀ x, (((s.setPresence i false).laneCleared i).lane l).state ≠ .held x) →
      ∀ x, (((s.setPresence i false).workOff i).lane l).state ≠ .held x := fun l none x is =>
    none x ((WorkLeft.withdrawJobs (i := i) _ true).held l x is)
  refine ⟨_, exec_removed seated removal, undisturbed, ?_, ?_, gone.commit, gone.marks, gone.ring, gone.goodRun, gone.rise,
    gone.deficit, gone.sense.injected, gone.queue, gone.wire, gone.sense.run, ?_, fun e tk own pass ticket member => ?_,
    fun r running => ?_, fun j isHeld own => ?_, fun heldThen drops keeps => ⟨fun others => ?_, fun j member own =>
      ⟨fun empty => ?_, fun l rest k first isHeld busy => ?_⟩⟩, fun ch named serving inPair => ?_,
    fun ch k named serving other switching target => ?_⟩
  · rw [State.settle_slot, here, vacates.slot]
    exact vacantSlot_vacated _
  · rw [State.settle_slot, here, vacates.slot, slots]
    rfl
  · have notice := vacates.notice
    rw [State.removedNotice, slots] at notice
    rw [State.settle_notices, here]
    exact .after off.raises notice
  · have announced := State.removeWork_announces (s := s.setPresence i false) ticket own pass member
    rw [State.settle_notices, here]
    refine Announced.trans announced ?_
    rw [← off.notices]
    exact ((Undisturbed.refl (s.calledOff i)).vacate i).notices
  · rw [engine]
    exact withdrawn.running r (cleared.running.trans running)
  · obtain ⟨dropped, notHeld⟩ := cleared.dropped j isHeld own
    refine ⟨fun member => ?_, notHeldAfter _ (notOwn _ notHeld)⟩
    rw [engine] at member
    have inList := withdrawn.heldLanes _ member
    rw [dropped] at inList
    exact of_decide_eq_true (List.mem_filter.1 inList).2 rfl
  · rw [engine, ← laterHeld heldThen drops keeps]
    have ⟨queue, list⟩ := withdrawn.none fun j member => others j (cleared.queue ▸ member)
    exact ⟨queue.trans cleared.queue, list⟩
  · rw [engine]
    have ⟨queue, list⟩ := withdrawn.unplaced j (cleared.queue.symm ▸ member) own
      ((laterHeld heldThen drops keeps).trans empty)
    rw [cleared.queue] at queue
    exact ⟨queue, list⟩
  · have list := (laterHeld heldThen drops keeps).trans first
    have ⟨queue, left, notHeld⟩ := withdrawn.placed j (cleared.queue.symm ▸ member) own l rest k list
      (cleared.held l k (list.symm ▸ List.mem_cons_self) isHeld) (cleared.running.symm ▸ busy)
    rw [cleared.queue] at queue
    rw [engine]
    exact ⟨queue, left, notHeldAfter l notHeld⟩
  · have failed := vacates.failed ch (by rw [slots]; exact named) (by rw [channels]; exact serving)
      (by rw [channels]; exact inPair)
    rw [channels] at failed
    have before := failed.earlier (channels ch) (fun k _ => slots k) off.raises
    rw [here]
    refine before.later (State.settle_channels _) (State.settle_slots _) ?_
    rw [State.settle_notices]
    exact .refl
  · obtain ⟨state, servingNow, noTarget, notice⟩ := vacates.cancelled ch k (by rw [slots]; exact named)
      (by rw [channels]; exact serving) other (by rw [channels]; exact switching) (by rw [channels]; exact target)
    rw [State.settle_channel, State.settle_notices]
    exact ⟨state, servingNow, noTarget, .after off.raises notice⟩

end

end Sys2Proof.Machine

/-! PROOF. The supply pairs (R11 to R13, R123, R124; O27). -/

namespace Sys2Proof.Machine

section
variable {s t u : State} {i k : SlotId} {c : ChannelId}

/-! ## Work on one slot -/

/-- Work that leaves the other slots, the channels and the History Unit, and no commit of another slot the less. -/
structure OneSlot (s t : State) (i : SlotId) : Prop where
  others : ∀ k, k ≠ i → t.slot k = s.slot k
  channels : t.channels = s.channels
  history : t.history = s.history

theorem OneSlot.refl (s : State) (i : SlotId) : OneSlot s s i := ⟨fun _ _ => rfl, rfl, rfl⟩

theorem OneSlot.trans (h : OneSlot s t i) (k : OneSlot t u i) : OneSlot s u i :=
  ⟨fun j other => (k.others j other).trans (h.others j other), k.channels.trans h.channels, k.history.trans h.history⟩

theorem RecordsKept.oneSlot (h : RecordsKept s t) (i : SlotId) : OneSlot s t i :=
  ⟨fun k _ => h.slot k, h.channels, h.history⟩

theorem OneSlot.updSlot (s : State) (i : SlotId) (f : SlotRecord → SlotRecord) : OneSlot s (s.updSlot i f) i :=
  ⟨fun _ other => State.updSlot_slot_other _ _ _ _ (Ne.symm other), rfl, rfl⟩

theorem OneSlot.moveSlot (s : State) (i : SlotId) (f : SlotRecord → SlotRecord) : OneSlot s (s.moveSlot i f) i :=
  (OneSlot.updSlot s i f).trans ⟨fun _ _ => rfl, rfl, rfl⟩

/-! ## A slot that leaves (R11, R12) -/

/-- The record of a slot that has left every pair. -/
def SlotRecord.leftPair (r : SlotRecord) : SlotRecord :=
  if r.state.inAdmission = true then
    { r with
      channel := none
      state := .seating
      description := none
      quality := none
      committed := 0
      uncommitted := 0
      reconciled := false }
  else { r with channel := none }

theorem SlotRecord.leftPair_leftPair (r : SlotRecord) : r.leftPair.leftPair = r.leftPair := by
  unfold SlotRecord.leftPair
  by_cases admitting : r.state.inAdmission = true
  · rw [if_pos admitting]
    exact if_neg Bool.false_ne_true
  · rw [if_neg admitting]
    exact if_neg admitting

theorem State.leavePair_leaves (s : State) (i : SlotId) :
    OneSlot s (s.leavePair i) i ∧ (s.leavePair i).slot i = (s.slot i).leftPair := by
  unfold State.leavePair
  dsimp only
  have unnamed := OneSlot.updSlot s i fun r => { r with channel := none }
  split
  case isTrue admitting =>
    have called : RecordsKept _ ((s.updSlot i fun r => { r with channel := none }).abandonAdmission i) :=
      .abandonAdmission (.refl _) i
    refine ⟨unnamed.trans ((called.oneSlot i).trans (.moveSlot _ i _)), ?_⟩
    rw [State.moveSlot_slot, if_pos rfl, called.slot, State.updSlot_slot_same, SlotRecord.leftPair, if_pos admitting]
  case isFalse staying =>
    refine ⟨unnamed, ?_⟩
    rw [State.updSlot_slot_same, SlotRecord.leftPair, if_neg staying]

/-- The slots of a list leave. -/
theorem State.foldl_leavePair (l : List SlotId) (s : State) :
    (l.foldl (fun s i => s.leavePair i) s).channels = s.channels ∧
      (l.foldl (fun s i => s.leavePair i) s).history = s.history ∧
      (∀ i, i ∉ l → (l.foldl (fun s i => s.leavePair i) s).slot i = s.slot i) ∧
      ∀ i ∈ l, (l.foldl (fun s i => s.leavePair i) s).slot i = (s.slot i).leftPair := by
  induction l generalizing s with
  | nil => exact ⟨rfl, rfl, fun _ _ => rfl, fun _ member => by cases member⟩
  | cons j rest ih =>
    obtain ⟨one, own⟩ := s.leavePair_leaves j
    obtain ⟨channels, history, others, left⟩ := ih (s.leavePair j)
    rw [List.foldl_cons]
    refine ⟨channels.trans one.channels, history.trans one.history, fun i notIn => ?_, fun i member => ?_⟩
    · rw [others i fun inRest => notIn (List.mem_cons_of_mem j inRest)]
      exact one.others i fun same => notIn (same ▸ List.mem_cons_self)
    · by_cases inRest : i ∈ rest
      · rw [left i inRest]
        by_cases same : i = j
        · subst same
          rw [own, SlotRecord.leftPair_leftPair]
        · rw [one.others i same]
      · obtain rfl : i = j := (List.mem_cons.1 member).resolve_right inRest
        rw [others i inRest, own]

/-! ## A slot that is named (R11 to R13, R94, R104) -/

/-- What the naming of slot `i` for channel `c` leaves of the slot, from `s` to `u`. -/
structure NamedFor (s u : State) (c : ChannelId) (i : SlotId) : Prop where
  seating : (s.slot i).state = .seating → u.slot i = { s.slot i with channel := some c, state := .reading }
  rejected : (s.slot i).state = .ready ∨ (s.slot i).state = .spent →
    (∃ d, (s.slot i).description = some d ∧ d.inkCode ≠ (s.channel c).settings.inkCode) →
      u.slot i = { s.slot i with channel := some c, state := .rejected, rejectReason := some .wrongInk }
  accepted : (s.slot i).state = .ready ∨ (s.slot i).state = .spent →
    (∀ d, (s.slot i).description = some d → d.inkCode = (s.channel c).settings.inkCode) →
      u.slot i = { s.slot i with
        channel := some c
        band := bandOf (s.slot i).remaining (s.slot i).perMille (s.channel c).settings } ∧
      ((u.slot i).band ≠ (s.slot i).band → Announced s.notices u.notices
        (.levelBand i c (s.slot i).band (u.slot i).band (s.slot i).perMille (s.slot i).remaining)) ∧
      (0 < (s.slot i).uncommitted → (s.channel c).settings.commitStep ≤ (s.slot i).uncommitted →
        (u.commit i).flight.isSome = true)
  resting : (s.slot i).state ≠ .seating → (s.slot i).state ≠ .ready → (s.slot i).state ≠ .spent →
    u.slot i = { s.slot i with channel := some c }

theorem NamedFor.earlier (h : NamedFor t u c i) (slot : t.slot i = s.slot i)
    (settings : (t.channel c).settings = (s.channel c).settings) (raises : Raises s.notices t.notices) :
    NamedFor s u c i := by
  obtain ⟨seating, rejected, accepted, resting⟩ := h
  rw [slot] at seating rejected accepted resting
  rw [settings] at rejected accepted
  refine ⟨seating, rejected, fun state ink => ?_, resting⟩
  obtain ⟨record, notice, step⟩ := accepted state ink
  exact ⟨record, fun differs => .after raises (notice differs), step⟩

theorem NamedFor.later (h : NamedFor s t c i) (slot : u.slot i = t.slot i)
    (flight : (t.commit i).flight.isSome = true → (u.commit i).flight.isSome = true)
    (raises : Raises t.notices u.notices) : NamedFor s u c i := by
  obtain ⟨seating, rejected, accepted, resting⟩ := h
  rw [← slot] at seating rejected accepted resting
  refine ⟨seating, rejected, fun state ink => ?_, resting⟩
  obtain ⟨record, notice, step⟩ := accepted state ink
  exact ⟨record, fun differs => (notice differs).trans raises, fun positive reached => flight (step positive reached)⟩

theorem LaneWork.flights {l : LaneId} (h : LaneWork s t l) (k : SlotId) (inFlight : (s.commit k).flight.isSome = true) :
    (t.commit k).flight.isSome = true := by
  rcases h.commits k with same | sent
  · rw [same]
    exact inFlight
  · rw [sent, CommitState.sent_flight]
    exact inFlight

theorem State.withdrawCommit_other (s : State) {i k : SlotId} (other : k ≠ i) :
    (s.withdrawCommit i).commit k = s.commit k := by
  unfold State.withdrawCommit
  split
  · split
    · rw [State.updCommit_commit_other _ _ _ _ (Ne.symm other)]
      rfl
    · rfl
  · rfl

theorem State.inkDiffers_iff (s : State) {i : SlotId} {c : ChannelId} (channel : (s.slot i).channel = some c)
    (tested : (s.slot i).state.inkTested = true) :
    s.inkDiffers i = true ↔ ∃ d, (s.slot i).description = some d ∧ d.inkCode ≠ (s.channel c).settings.inkCode := by
  unfold State.inkDiffers
  rw [channel]
  cases described : (s.slot i).description with
  | none => simp
  | some d => simp [tested]

/-- What the naming of a slot leaves of the others. -/
structure NamedOnly (s t : State) (i : SlotId) : Prop extends OneSlot s t i where
  flights : ∀ k, k ≠ i → (s.commit k).flight.isSome = true → (t.commit k).flight.isSome = true

/-- R13, for a slot in READY or SPENT: the ink test, and with its cartridge kept the band and the step trigger. -/
theorem State.inkTest_rejects (differs : s.inkDiffers i = true) (settled : (s.slot i).state.inAdmission = false) :
    s.inkTest i = s.rejectSlot i .wrongInk := by
  unfold State.inkTest
  rw [if_pos differs, if_neg (by rw [settled]; exact Bool.false_ne_true)]

theorem State.inkTest_keeps (same : s.inkDiffers i = false) : s.inkTest i = s := by
  unfold State.inkTest
  rw [if_neg (by rw [same]; exact Bool.false_ne_true)]

theorem State.namePair_seating (seating : (s.slot i).state = .seating) :
    s.namePair c i = (s.updSlot i fun r => { r with channel := some c }).enterReading i := by
  unfold State.namePair
  dsimp only
  rw [State.updSlot_slot_same, seating]

/-- The test that a slot in READY or SPENT meets when it is named. -/
def State.namedTest (v : State) (i : SlotId) : State :=
  if ((v.inkTest i).slot i).state = (v.slot i).state then ((v.inkTest i).formBand i).stepTrigger i else v.inkTest i

theorem State.namePair_tested (tested : (s.slot i).state = .ready ∨ (s.slot i).state = .spent) :
    s.namePair c i = (s.updSlot i fun r => { r with channel := some c }).namedTest i := by
  unfold State.namePair State.namedTest
  dsimp only
  rw [State.updSlot_slot_same]
  obtain ready | spent := tested
  · rw [ready]
  · rw [spent]

theorem State.namePair_resting (notSeating : (s.slot i).state ≠ .seating) (notReady : (s.slot i).state ≠ .ready)
    (notSpent : (s.slot i).state ≠ .spent) : s.namePair c i = s.updSlot i fun r => { r with channel := some c } := by
  unfold State.namePair
  dsimp only
  rw [State.updSlot_slot_same]
  split
  case h_1 seating => exact (notSeating seating).elim
  case h_2 ready => exact (notReady ready).elim
  case h_3 spent => exact (notSpent spent).elim
  case h_4 => rfl

theorem State.enterReading_named (s : State) (i : SlotId) :
    (s.enterReading i).slot i = { s.slot i with state := .reading } ∧ NamedOnly s (s.enterReading i) i := by
  have kept := s.enterReading_records i
  refine ⟨?_, (OneSlot.moveSlot s i _).trans (kept.oneSlot i), fun k _ inFlight => ?_⟩
  · rw [kept.slot, State.moveSlot_slot, if_pos rfl]
  · exact (State.enqueue_work (s.moveSlot i fun r => { r with state := .reading }) ⟨i, .describe, none⟩).flights k inFlight

theorem State.rejectSlot_named (s : State) (i : SlotId) (why : RejectReason) :
    (s.rejectSlot i why).slot i = { s.slot i with state := .rejected, rejectReason := some why } ∧
      NamedOnly s (s.rejectSlot i why) i := by
  have kept : RecordsKept (s.moveSlot i fun r => { r with state := .rejected, rejectReason := some why })
      (s.rejectSlot i why) := .withdrawCommit (.refl _) i
  refine ⟨((RecordBecomes.refl s i).rejectSlot why).own, (OneSlot.moveSlot s i _).trans (kept.oneSlot i),
    fun k other inFlight => ?_⟩
  unfold State.rejectSlot
  rw [State.withdrawCommit_other _ other]
  exact inFlight

theorem State.bandFormed_history (s : State) (i : SlotId) : ((s.formBand i).stepTrigger i).history = s.history :=
  (AccountsKept.stepTrigger (.formBand (.refl s) i) i).history

theorem BandFormed.namedOnly (h : BandFormed s t c i) (history : t.history = s.history) : NamedOnly s t i where
  others k other := by
    simp only [State.slot, h.slots]
    exact Vector.getElem_set_ne _ _ fun same => other (Fin.ext same.symm)
  channels := h.channels
  history := history
  flights k _ := h.flights k

theorem BandFormed.own (h : BandFormed s t c i) :
    t.slot i = { s.slot i with band := bandOf (s.slot i).remaining (s.slot i).perMille (s.channel c).settings } := by
  have record : t.slots[i.val] = _ := congrArg (fun v : Vector SlotRecord 16 => v[i.val]) h.slots
  exact record.trans (Vector.getElem_set_self _)

/-- What the test leaves: a rejection, or the band and the step trigger. -/
theorem State.namedTest_spec (channel : (s.slot i).channel = some c)
    (tested : (s.slot i).state = .ready ∨ (s.slot i).state = .spent) :
    NamedOnly s (s.namedTest i) i ∧
      ((∃ d, (s.slot i).description = some d ∧ d.inkCode ≠ (s.channel c).settings.inkCode) →
        (s.namedTest i).slot i = { s.slot i with state := .rejected, rejectReason := some .wrongInk }) ∧
      ((∀ d, (s.slot i).description = some d → d.inkCode = (s.channel c).settings.inkCode) →
        BandFormed s (s.namedTest i) c i) := by
  have inkTested : (s.slot i).state.inkTested = true := by rcases tested with is | is <;> rw [is] <;> rfl
  have settled : (s.slot i).state.inAdmission = false := by rcases tested with is | is <;> rw [is] <;> rfl
  have differs := s.inkDiffers_iff channel inkTested
  unfold State.namedTest
  cases test : s.inkDiffers i with
  | true =>
    obtain ⟨own, only⟩ := s.rejectSlot_named i .wrongInk
    have moved : ¬((s.rejectSlot i .wrongInk).slot i).state = (s.slot i).state := by
      rw [own]
      rcases tested with is | is <;> rw [is] <;> exact nofun
    rw [State.inkTest_rejects test settled, if_neg moved]
    obtain ⟨d, described, other⟩ := differs.1 test
    exact ⟨only, fun _ => own, fun same => (other (same d described)).elim⟩
  | false =>
    rw [State.inkTest_keeps test, if_pos rfl]
    have formed := State.bandFormed channel
    refine ⟨formed.namedOnly (s.bandFormed_history i), fun ink => ?_, fun _ => formed⟩
    rw [differs.2 ink] at test
    cases test

theorem State.namePair_raises (s : State) (c : ChannelId) (i : SlotId) : Raises s.notices (s.namePair c i).notices :=
  ((Undisturbed.refl s).namePair c i).notices

theorem SlotRecord.remaining_named (r : SlotRecord) (channel : Option ChannelId) :
    ({ r with channel := channel } : SlotRecord).remaining = r.remaining := rfl

theorem SlotRecord.perMille_named (r : SlotRecord) (channel : Option ChannelId) :
    ({ r with channel := channel } : SlotRecord).perMille = r.perMille := rfl

theorem State.namePair_named (s : State) (c : ChannelId) (i : SlotId) :
    NamedFor s (s.namePair c i) c i ∧ NamedOnly s (s.namePair c i) i := by
  generalize names : (s.updSlot i fun r => { r with channel := some c }) = v
  have own : v.slot i = { s.slot i with channel := some c } := by rw [← names, State.updSlot_slot_same]
  have only : NamedOnly s v i := by
    rw [← names]
    exact ⟨.updSlot s i _, fun _ _ inFlight => inFlight⟩
  have trans {u : State} (h : NamedOnly v u i) : NamedOnly s u i :=
    ⟨only.toOneSlot.trans h.toOneSlot, fun k other inFlight => h.flights k other (only.flights k other inFlight)⟩
  by_cases seating : (s.slot i).state = .seating
  · obtain ⟨record, work⟩ := v.enterReading_named i
    rw [State.namePair_seating seating, names]
    refine ⟨⟨fun _ => by rw [record, own], fun tested => ?_, fun tested => ?_, fun notSeating => (notSeating seating).elim⟩,
      trans work⟩
    · rw [seating] at tested
      rcases tested with is | is <;> cases is
    · rw [seating] at tested
      rcases tested with is | is <;> cases is
  by_cases tested : (s.slot i).state = .ready ∨ (s.slot i).state = .spent
  · have channel : (v.slot i).channel = some c := by rw [own]
    have settings : v.channel c = s.channel c := by rw [← names]; rfl
    have notices : v.notices = s.notices := by rw [← names]; rfl
    obtain ⟨work, rejects, forms⟩ := State.namedTest_spec (s := v) channel (by rw [own]; exact tested)
    rw [State.namePair_tested tested, names]
    refine ⟨⟨fun is => (seating is).elim, fun _ ink => ?_, fun _ ink => ?_, fun _ notReady notSpent => ?_⟩, trans work⟩
    · rw [rejects (by rw [own, settings]; exact ink), own]
    · have formed := forms (by rw [own, settings]; exact ink)
      have ⟨_, _, _, notice, _, step⟩ := formed
      rw [own, notices] at notice
      rw [own, settings] at step
      refine ⟨?_, notice, step (by rcases tested with is | is <;> rw [is] <;> rfl)⟩
      rw [formed.own, own, settings]
      exact congrArg₂ (fun remaining perMille => ({ s.slot i with
        channel := some c
        band := bandOf remaining perMille (s.channel c).settings } : SlotRecord))
        (SlotRecord.remaining_named _ _) (SlotRecord.perMille_named _ _)
    · exact (tested.elim notReady notSpent).elim
  · have notTested := not_or.1 tested
    rw [State.namePair_resting seating notTested.1 notTested.2, names]
    exact ⟨⟨fun is => (seating is).elim, fun is => (tested is).elim, fun is => (tested is).elim, fun _ _ _ => own⟩, only⟩

/-- The slots of a list without repetition are named. -/
theorem State.foldl_namePair (l : List SlotId) (nodup : l.Nodup) (s : State) (c : ChannelId) :
    (l.foldl (fun s i => s.namePair c i) s).channels = s.channels ∧
      (l.foldl (fun s i => s.namePair c i) s).history = s.history ∧
      Raises s.notices (l.foldl (fun s i => s.namePair c i) s).notices ∧
      (∀ k, k ∉ l → (l.foldl (fun s i => s.namePair c i) s).slot k = s.slot k ∧
        ((s.commit k).flight.isSome = true → ((l.foldl (fun s i => s.namePair c i) s).commit k).flight.isSome = true)) ∧
      ∀ i ∈ l, NamedFor s (l.foldl (fun s i => s.namePair c i) s) c i := by
  induction l generalizing s with
  | nil => exact ⟨rfl, rfl, .refl, fun _ _ => ⟨rfl, id⟩, fun _ member => by cases member⟩
  | cons j rest ih =>
    obtain ⟨notInRest, nodupRest⟩ := List.nodup_cons.1 nodup
    obtain ⟨named, one, flights⟩ := s.namePair_named c j
    have raises := s.namePair_raises c j
    obtain ⟨channels, history, later, others, all⟩ := ih nodupRest (s.namePair c j)
    rw [List.foldl_cons]
    refine ⟨channels.trans one.channels, history.trans one.history, raises.trans later, fun k notIn => ?_,
      fun i member => ?_⟩
    · have other : k ≠ j := fun same => notIn (same ▸ List.mem_cons_self)
      obtain ⟨slot, flight⟩ := others k fun inRest => notIn (List.mem_cons_of_mem j inRest)
      exact ⟨slot.trans (one.others k other), fun inFlight => flight (flights k other inFlight)⟩
    · rcases List.mem_cons.1 member with rfl | inRest
      · obtain ⟨slot, flight⟩ := others i notInRest
        exact named.later slot flight later
      · have other : i ≠ j := fun same => notInRest (same ▸ inRest)
        refine (all i inRest).earlier (one.others i other) ?_ raises
        exact congrArg (fun v : Vector Channel 8 => v[c.val].settings) one.channels

/-! ## The pair a request names -/

theorem mem_pairNamed {primary alternate : Option SlotId} (alone : ¬(primary = none ∧ alternate ≠ none)) {ch : Channel}
    (pair : ch.pair = primary.map fun i => ⟨i, alternate⟩) (i : SlotId) :
    i ∈ ch.pairSlots ↔ primary = some i ∨ alternate = some i := by
  unfold Channel.pairSlots
  rw [pair]
  cases primary with
  | none =>
    have absent : alternate = none := by_contra fun is => alone ⟨rfl, is⟩
    simp [absent]
  | some p =>
    cases alternate with
    | none => simp [SupplyPair.slots, eq_comm]
    | some a => simp [SupplyPair.slots, eq_comm]

theorem pairNamed_nodup {primary alternate : Option SlotId} (apart : ¬(primary ≠ none ∧ primary = alternate)) {ch : Channel}
    (pair : ch.pair = primary.map fun i => ⟨i, alternate⟩) : ch.pairSlots.Nodup := by
  unfold Channel.pairSlots
  rw [pair]
  cases primary with
  | none => exact List.nodup_nil
  | some p =>
    cases alternate with
    | none => simp [SupplyPair.slots]
    | some a =>
      have other : p ≠ a := fun same => apart ⟨nofun, congrArg some same⟩
      simp [SupplyPair.slots, other]

theorem State.inOtherPair_iff (s : State) (c : ChannelId) (i : SlotId) :
    s.inOtherPair c i = true ↔ ∃ d, d ≠ c ∧ i ∈ (s.channel d).pairSlots := by
  unfold State.inOtherPair
  simp

theorem State.pairRefused_iff (s : State) (c : ChannelId) (primary alternate : Option SlotId) :
    s.pairRefused c primary alternate = true ↔
      primary = none ∧ alternate ≠ none ∨ primary ≠ none ∧ primary = alternate ∨
        ∃ i d, (primary = some i ∨ alternate = some i) ∧ d ≠ c ∧ i ∈ (s.channel d).pairSlots := by
  have named : ((primary.toList ++ alternate.toList).any fun i => s.inOtherPair c i) = true ↔
      ∃ i d, (primary = some i ∨ alternate = some i) ∧ d ≠ c ∧ i ∈ (s.channel d).pairSlots := by
    simp only [List.any_eq_true, List.mem_append, Option.mem_toList, State.inOtherPair_iff]
    exact ⟨fun ⟨i, is, d, other, inPair⟩ => ⟨i, d, is, other, inPair⟩,
      fun ⟨i, d, is, other, inPair⟩ => ⟨i, is, d, other, inPair⟩⟩
  unfold State.pairRefused
  rw [Bool.or_eq_true, Bool.or_eq_true, named, Bool.and_eq_true, Bool.and_eq_true, Option.isNone_iff_eq_none,
    Option.isSome_iff_ne_none, Option.isSome_iff_ne_none, decide_eq_true_iff, or_assoc]

theorem slotOf_eq_none_iff {n : Nat} : slotOf n = none ↔ 15 < n := by
  unfold slotOf
  split
  · next small => simp; omega
  · next large => simp; omega

theorem optionalSlotOf_eq_none {o : Option Nat} (above : ∃ n, o = some n ∧ 15 < n) : optionalSlotOf o = none := by
  obtain ⟨n, rfl, large⟩ := above
  rw [optionalSlotOf, slotOf_eq_none_iff.2 large]

theorem optionalSlotOf_map (o : Option SlotId) : optionalSlotOf (o.map fun i => i.val) = some o := by
  cases o with
  | none => rfl
  | some i =>
    show optionalSlotOf (some i.val) = _
    rw [optionalSlotOf, slotOf_of_val rfl]

/-! ## The pair taken (R124) -/

/-- R124: the pair taken, the slots that leave it, and the slots that are named. -/
structure PairSet (s u : State) (c : ChannelId) (new : List SlotId) : Prop where
  history : u.history = s.history
  named : ∀ i ∈ new, i ∉ (s.channel c).pairSlots → NamedFor s u c i
  left : ∀ i ∈ (s.channel c).pairSlots, i ∉ new → u.slot i = (s.slot i).leftPair
  stayed : ∀ i, (i ∈ (s.channel c).pairSlots ↔ i ∈ new) → u.slot i = s.slot i

theorem State.setPair_set (s : State) (c : ChannelId) {pair : Option SupplyPair} {new : List SlotId}
    (slots : ({ s.channel c with pair := pair } : Channel).pairSlots = new) (nodup : new.Nodup) :
    PairSet s (s.setPair c pair) c new ∧
      (s.setPair c pair).channels = s.channels.set c.val { s.channel c with pair := pair } c.isLt := by
  generalize olds : (s.channel c).pairSlots = old
  generalize taken : (s.updChannel c fun ch => { ch with pair := pair }) = v
  have record : (v.channel c).pairSlots = new := by
    rw [← taken, State.updChannel_channel_same, slots]
  have settings : (v.channel c).settings = (s.channel c).settings := by rw [← taken, State.updChannel_channel_same]
  have slotV : ∀ i, v.slot i = s.slot i := fun i => by rw [← taken]; rfl
  have noticesV : v.notices = s.notices := by rw [← taken]; rfl
  have historyV : v.history = s.history := by rw [← taken]; rfl
  have channelsV : v.channels = s.channels.set c.val { s.channel c with pair := pair } c.isLt := by rw [← taken]; rfl
  obtain ⟨channelsL, historyL, others, lefts⟩ := State.foldl_leavePair (old.filter fun i => !new.contains i) v
  have raisesL : Raises v.notices ((old.filter fun i => !new.contains i).foldl (fun s i => s.leavePair i) v).notices :=
    ((Undisturbed.refl v).foldl _ _ fun _ _ k => k.leavePair _).notices
  have sets : s.setPair c pair = (new.filter fun i => !old.contains i).foldl (fun s i => s.namePair c i)
      ((old.filter fun i => !new.contains i).foldl (fun s i => s.leavePair i) v) := by
    unfold State.setPair
    dsimp only
    rw [taken, record, olds]
  generalize (old.filter fun i => !new.contains i).foldl (fun s i => s.leavePair i) v = w
    at channelsL historyL others lefts raisesL sets
  obtain ⟨channelsN, historyN, _, stays, named⟩ :=
    State.foldl_namePair (new.filter fun i => !old.contains i) (nodup.filter _) w c
  rw [← sets] at channelsN historyN stays named
  have memLeft : ∀ i, i ∈ (old.filter fun i => !new.contains i) ↔ i ∈ old ∧ i ∉ new := fun i => by simp
  have memNamed : ∀ i, i ∈ (new.filter fun i => !old.contains i) ↔ i ∈ new ∧ i ∉ old := fun i => by simp
  have channelW : w.channel c = v.channel c := congrArg (fun x : Vector Channel 8 => x[c.val]) channelsL
  refine ⟨⟨historyN.trans (historyL.trans historyV), fun i inNew notOld => ?_, fun i inOld notNew => ?_, fun i same => ?_⟩,
    channelsN.trans (channelsL.trans channelsV)⟩
  · rw [olds] at notOld
    refine (named i ((memNamed i).2 ⟨inNew, notOld⟩)).earlier ?_ ?_ (noticesV ▸ raisesL)
    · rw [others i fun is => notOld ((memLeft i).1 is).1, slotV]
    · rw [channelW, settings]
  · rw [olds] at inOld
    rw [(stays i fun is => notNew ((memNamed i).1 is).1).1, lefts i ((memLeft i).2 ⟨inOld, notNew⟩), slotV]
  · rw [olds] at same
    rw [(stays i fun is => ((memNamed i).1 is).2 (same.2 ((memNamed i).1 is).1)).1,
      others i fun is => ((memLeft i).1 is).2 (same.1 ((memLeft i).1 is).1), slotV]

/-- Settles O27: the checks in their order, and what the pair taken does to the slots that leave and are named. -/
theorem supply_map_set : Obligations.Supply_map_set := by
  unfold Obligations.Supply_map_set
  intro s tag f ready
  refine ⟨fun above => ?_, fun c p a isChannel isPrimary isAlternate => ?_⟩
  · refine exec_served ready ?_
    unfold serveSupplyMapSet
    split
    case h_1 channel primary alternate =>
      rcases above with large | large | large
      · rw [channelOf_eq_none large] at channel
        cases channel
      · rw [optionalSlotOf_eq_none large] at primary
        cases primary
      · rw [optionalSlotOf_eq_none large] at alternate
        cases alternate
    case h_2 => rfl
  have serves : ∀ v : State, serveSupplyMapSet f v =
      if (v.channel c).state ≠ .idle then (v, only .wrongState)
      else if v.pairRefused c p a then (v, only .badArgument)
      else (v.setPair c (pairNamed p a), only .ok) := fun v => by
    rw [serveSupplyMapSet, channelOf_of_val isChannel, isPrimary, isAlternate, optionalSlotOf_map, optionalSlotOf_map]
  have refused := State.pairRefused_iff s.beginRequest c p a
  refine ⟨fun active => ?_, fun idle malformed => ?_, fun idle accepted => ?_⟩
  · exact exec_served ready ((serves _).trans (if_pos (show (s.beginRequest.channel c).state ≠ .idle from active)))
  · refine exec_served ready ((serves _).trans ?_)
    rw [if_neg (not_not.2 (show (s.beginRequest.channel c).state = .idle from idle)), if_pos (refused.2 malformed)]
    rfl
  · have notRefused : ¬s.beginRequest.pairRefused c p a = true := fun is => accepted (refused.1 is)
    have alone : ¬(p = none ∧ a ≠ none) := fun is => accepted (.inl is)
    have apart : ¬(p ≠ none ∧ p = a) := fun is => accepted (.inr (.inl is))
    have undisturbed := Undisturbed.setPair s.beginRequest c (pairNamed p a)
    have isNamed : ∀ i, i ∈ ({ s.channel c with pair := pairNamed p a } : Channel).pairSlots ↔
        p = some i ∨ a = some i := mem_pairNamed alone rfl
    obtain ⟨⟨history, named, left, stayed⟩, channels⟩ := State.setPair_set s.beginRequest c (pair := pairNamed p a) rfl
      (pairNamed_nodup apart rfl)
    refine ⟨s.beginRequest.setPair c (pairNamed p a), exec_answered ready ?_ undisturbed.host, channels,
      fun i is notOld => ?_, fun i inOld notNew => ?_, fun i same => ?_, undisturbed.host, undisturbed.pins,
      undisturbed.keys, history, undisturbed.debounce⟩
    · rw [serves, if_neg (not_not.2 (show (s.beginRequest.channel c).state = .idle from idle)), if_neg notRefused]
      rfl
    · obtain ⟨seating, rejected, kept, resting⟩ := named i ((isNamed i).2 is) notOld
      exact ⟨seating, fun tested => ⟨rejected tested, kept tested⟩, resting⟩
    · have record := left i inOld fun is => notNew ((isNamed i).1 is)
      unfold SlotRecord.leftPair at record
      refine ⟨fun admitting => record.trans (if_pos admitting), fun settled => record.trans (if_neg ?_)⟩
      show ¬(s.slot i).state.inAdmission = true
      rw [settled]
      exact Bool.false_ne_true
    · exact stayed i (same.trans (isNamed i).symm)

end

end Sys2Proof.Machine

/-! PROOF. CHANNEL_SET: its checks, the settings taken, and what each that acts does (R13, R120, R121; O24). -/

namespace Sys2Proof.Machine

section
variable {s t u v : State} {i j k : SlotId} {c : ChannelId}

/-! ## The ink tests of a pair's slots (R13) -/

/-- REJECTED, WRONG_INK. -/
def SlotRecord.RejectedInk (r : SlotRecord) : Prop := r.state = .rejected ∧ r.rejectReason = some .wrongInk

theorem State.inkDiffers_congr (slot : t.slot i = s.slot i) (channels : t.channels = s.channels) :
    t.inkDiffers i = s.inkDiffers i := by
  have channel : ∀ c, t.channel c = s.channel c := fun c => by simp only [State.channel, channels]
  unfold State.inkDiffers
  simp only [slot, channel]

theorem State.inkTest_oneSlot (s : State) (i : SlotId) : OneSlot s (s.inkTest i) i := by
  unfold State.inkTest
  split
  case isTrue =>
    dsimp only
    refine OneSlot.trans ?_ (State.rejectSlot_named _ i .wrongInk).2.toOneSlot
    split
    · exact (RecordsKept.abandonAdmission (.refl s) i).oneSlot i
    · exact .refl s i
  case isFalse => exact .refl s i

theorem State.inkTest_rejected (differs : s.inkDiffers i = true) : ((s.inkTest i).slot i).RejectedInk := by
  unfold State.inkTest
  rw [if_pos differs]
  dsimp only
  have own (w : State) := (w.rejectSlot_named i .wrongInk).1
  rw [own]
  exact ⟨rfl, rfl⟩

theorem State.inkTest_keepsRejected (rejected : (s.slot i).RejectedInk) : ((s.inkTest i).slot i).RejectedInk := by
  cases differs : s.inkDiffers i with
  | true => exact State.inkTest_rejected differs
  | false =>
    rw [State.inkTest_keeps differs]
    exact rejected

theorem State.foldl_inkTest (l : List SlotId) (s : State)
    (each : ∀ i ∈ l, s.inkDiffers i = true ∨ (s.slot i).RejectedInk) :
    (l.foldl (fun s i => s.inkTest i) s).channels = s.channels ∧
      Raises s.notices (l.foldl (fun s i => s.inkTest i) s).notices ∧
      (∀ i, i ∉ l → (l.foldl (fun s i => s.inkTest i) s).slot i = s.slot i) ∧
      ∀ i ∈ l, ((l.foldl (fun s i => s.inkTest i) s).slot i).RejectedInk := by
  induction l generalizing s with
  | nil => exact ⟨rfl, .refl, fun _ _ => rfl, fun _ member => by cases member⟩
  | cons j rest ih =>
    have one := s.inkTest_oneSlot j
    have own : ((s.inkTest j).slot j).RejectedInk :=
      (each j List.mem_cons_self).elim State.inkTest_rejected State.inkTest_keepsRejected
    obtain ⟨channels, raises, others, rejected⟩ := ih (s.inkTest j) fun i member => by
      by_cases same : i = j
      · exact .inr (same ▸ own)
      · rw [State.inkDiffers_congr (one.others i same) one.channels, one.others i same]
        exact each i (List.mem_cons_of_mem j member)
    rw [List.foldl_cons]
    refine ⟨channels.trans one.channels, ((Undisturbed.refl s).inkTest j).notices.trans raises, fun i notIn => ?_,
      fun i member => ?_⟩
    · rw [others i fun inRest => notIn (List.mem_cons_of_mem j inRest)]
      exact one.others i fun same => notIn (same ▸ List.mem_cons_self)
    · by_cases inRest : i ∈ rest
      · exact rejected i inRest
      · obtain rfl : i = j := (List.mem_cons.1 member).resolve_right inRest
        rw [others i inRest]
        exact own

/-! ## A changed ink code (R121, step 1) -/

/-- The slots of a channel's pair whose cartridges do not carry the ink. -/
def State.wrongSlots (v : State) (c : ChannelId) : List SlotId :=
  (v.channel c).pairSlots.filter fun i => v.inkDiffers i

/-- The state in which they have been rejected. -/
def State.inkTested (v : State) (c : ChannelId) : State := (v.wrongSlots c).foldl (fun s i => s.inkTest i) v

/-- The state in which a rejected serving slot has been failed over. -/
def State.inkFailed (v : State) (c : ChannelId) : State :=
  match ((v.inkTested c).channel c).serving with
  | some i => if i ∈ v.wrongSlots c then (v.inkTested c).failover c i .rejected else v.inkTested c
  | none => v.inkTested c

theorem State.inkCodeChanged_eq (v : State) (c : ChannelId) : v.inkCodeChanged c = (v.inkFailed c).targetTest c := rfl

theorem State.inkTested_spec (v : State) (c : ChannelId) :
    (v.inkTested c).channels = v.channels ∧ Raises v.notices (v.inkTested c).notices ∧
      (∀ i, i ∉ v.wrongSlots c → (v.inkTested c).slot i = v.slot i) ∧
      ∀ i ∈ v.wrongSlots c, ((v.inkTested c).slot i).RejectedInk :=
  State.foldl_inkTest _ v fun _ member => .inl (List.mem_filter.1 member).2

theorem State.targetTest_slot (s : State) (c : ChannelId) (k : SlotId) : (s.targetTest c).slot k = s.slot k := by
  unfold State.targetTest
  dsimp only
  split
  · split
    · rfl
    · unfold State.cancelSwitch
      dsimp only
      rw [(State.headTest_tested _ c).slot]
      rfl
  · rfl

theorem State.targetTest_nothing (notSwitching : (s.channel c).state ≠ .switching) : s.targetTest c = s := by
  unfold State.targetTest
  dsimp only
  split
  · next switching _ => exact (notSwitching switching).elim
  · rfl

theorem State.targetTest_cancels (switching : (s.channel c).state = .switching) (target : (s.channel c).target = some j)
    (notReady : (s.slot j).state ≠ .ready) : s.targetTest c = s.cancelSwitch c := by
  unfold State.targetTest
  dsimp only
  rw [switching, target]
  exact if_neg notReady

/-- After a failover no switch is under way. -/
theorem FailedOver.notSwitching {reason : LeaveReason} {l : List Reservation} (h : FailedOver s t c i reason l) :
    (t.channel c).state ≠ .switching := by
  by_cases taken : ∃ j, (s.channel c).paired i j ∧ s.CanServe j
  · obtain ⟨j, paired, serves⟩ := taken
    rw [(h.taken j paired serves).state]
    exact nofun
  · rw [(h.lost fun j paired serves => taken ⟨j, paired, serves⟩).state]
    exact nofun

theorem SlotRecord.RejectedInk.notReady {r : SlotRecord} (h : r.RejectedInk) : r.state ≠ .ready := by
  rw [h.1]
  exact nofun

theorem State.inkTested_channel (v : State) (c : ChannelId) : (v.inkTested c).channel c = v.channel c :=
  congrArg (fun x : Vector Channel 8 => x[c.val]) (v.inkTested_spec c).1

/-- A rejected serving slot fails over, and the target test then finds nothing. -/
theorem State.inkCodeChanged_fails (serving : (v.channel c).serving = some i) (wrong : i ∈ v.wrongSlots c) :
    FailedOver (v.inkTested c) (v.inkCodeChanged c) c i .rejected (v.channel c).reservations ∧
      ∀ k ∈ v.wrongSlots c, (v.inkCodeChanged c).slot k = (v.inkTested c).slot k := by
  obtain ⟨_, _, _, rejected⟩ := v.inkTested_spec c
  have channel := v.inkTested_channel c
  have failed : v.inkFailed c = (v.inkTested c).failover c i .rejected := by
    unfold State.inkFailed
    rw [channel, serving]
    exact if_pos wrong
  obtain ⟨failedOver, others⟩ := State.failover_failedOver (v.inkTested c) c i .rejected (by rw [channel]; exact serving)
    (by rw [channel]; exact (List.mem_filter.1 wrong).1) (rejected i wrong).notReady
  rw [State.inkCodeChanged_eq, failed, State.targetTest_nothing failedOver.notSwitching]
  rw [channel] at failedOver
  exact ⟨failedOver, fun k member => others k fun ⟨_, serves⟩ => (rejected k member).notReady serves.1⟩

/-- With the serving slot kept only the target is tested. -/
theorem State.inkCodeChanged_keeps (kept : ∀ i, (v.channel c).serving = some i → i ∉ v.wrongSlots c) :
    v.inkCodeChanged c = (v.inkTested c).targetTest c := by
  rw [State.inkCodeChanged_eq]
  unfold State.inkFailed
  rw [v.inkTested_channel c]
  split
  case h_1 i serving => rw [if_neg (kept i serving)]
  case h_2 => rfl

theorem State.inkCodeChanged_rejects (wrong : k ∈ v.wrongSlots c) : ((v.inkCodeChanged c).slot k).RejectedInk := by
  have rejected := (v.inkTested_spec c).2.2.2 k wrong
  by_cases failed : ∃ i, (v.channel c).serving = some i ∧ i ∈ v.wrongSlots c
  · obtain ⟨i, serving, own⟩ := failed
    rw [(State.inkCodeChanged_fails serving own).2 k wrong]
    exact rejected
  · rw [State.inkCodeChanged_keeps fun i serving own => failed ⟨i, serving, own⟩, State.targetTest_slot]
    exact rejected

/-- A switch to a rejected slot is called off. -/
theorem State.inkCodeChanged_cancels (switching : (v.channel c).state = .switching)
    (serving : (v.channel c).serving = some i) (target : (v.channel c).target = some j) (kept : i ∉ v.wrongSlots c)
    (wrong : j ∈ v.wrongSlots c) :
    ((v.inkCodeChanged c).channel c).state = .supplied ∧ ((v.inkCodeChanged c).channel c).serving = some i ∧
      ((v.inkCodeChanged c).channel c).target = none ∧
      Announced v.notices (v.inkCodeChanged c).notices
        (.channelChanged c ⟨.switchCancelled, .switching, .supplied, some i, some i, none, none⟩) := by
  obtain ⟨_, raises, _, rejected⟩ := v.inkTested_spec c
  have channel := v.inkTested_channel c
  rw [State.inkCodeChanged_keeps fun x is => Option.some.inj (serving.symm.trans is) ▸ kept,
    State.targetTest_cancels (by rw [channel]; exact switching) (by rw [channel]; exact target) (rejected j wrong).notReady,
    State.cancelSwitch_eq (k := i) (by rw [channel]; exact switching) (by rw [channel]; exact serving)]
  generalize v.inkTested c = w at raises channel ⊢
  have tested := State.headTest_tested ((w.withChannel c { w.channel c with state := .supplied, target := none }).raise
    (.channelChanged c ⟨.switchCancelled, .switching, .supplied, some i, some i, none, none⟩)) c
  refine ⟨?_, ?_, ?_, .after raises ((Announced.now _ _).trans tested.notices)⟩
  · rw [tested.self, State.raise_channel, State.withChannel_channel]
  · rw [tested.self, State.raise_channel, State.withChannel_channel, channel]
    exact serving
  · rw [tested.self, State.raise_channel, State.withChannel_channel]

end

end Sys2Proof.Machine

/-! PROOF. The bands, step triggers and switch level of CHANNEL_SET, and the request (R93, R94, R104, R120, R121, R129 to
R131, R150; O24). -/

namespace Sys2Proof.Machine

section
variable {s t u v : State} {i j k : SlotId} {c : ChannelId}

/-! ## Changed levels (R121, step 2) -/

/-- The band of slot `i` formed with the levels of channel `c`. -/
structure Banded (s t : State) (c : ChannelId) (i : SlotId) : Prop where
  record : t.slot i = { s.slot i with
    band := bandOf (s.slot i).remaining (s.slot i).perMille (s.channel c).settings }
  notice : (t.slot i).band ≠ (s.slot i).band → Announced s.notices t.notices
    (.levelBand i c (s.slot i).band (t.slot i).band (s.slot i).perMille (s.slot i).remaining)

theorem State.formBand_banded (channel : (s.slot i).channel = some c) :
    Banded s (s.formBand i) c i ∧ OneSlot s (s.formBand i) i := by
  have formed := State.formBand_eq channel rfl
  have record : (s.formBand i).slot i = { s.slot i with
      band := bandOf (s.slot i).remaining (s.slot i).perMille (s.channel c).settings } := by
    rw [formed]
    exact (s.withSlot_slot i i _).trans (if_pos rfl)
  refine ⟨⟨record, fun differs => ?_⟩, fun k other => ?_, ?_, ?_⟩
  · rw [record] at differs ⊢
    rw [formed]
    simp only [if_neg differs]
    exact .now _ _
  · rw [formed]
    exact (s.withSlot_slot i k _).trans (if_neg (Ne.symm other))
  · rw [formed]
    rfl
  · rw [formed]
    rfl

theorem Banded.earlier (h : Banded t u c i) (slot : t.slot i = s.slot i) (channel : t.channel c = s.channel c)
    (raises : Raises s.notices t.notices) : Banded s u c i := by
  obtain ⟨record, notice⟩ := h
  rw [slot, channel] at record
  rw [slot] at notice
  exact ⟨record, fun differs => .after raises (notice differs)⟩

theorem Banded.later (h : Banded s t c i) (slot : u.slot i = t.slot i) (raises : Raises t.notices u.notices) :
    Banded s u c i := by
  obtain ⟨record, notice⟩ := h
  rw [← slot] at record notice
  exact ⟨record, fun differs => (notice differs).trans raises⟩

theorem State.foldl_formBand (l : List SlotId) (nodup : l.Nodup) (s : State)
    (named : ∀ i ∈ l, (s.slot i).channel = some c) :
    (l.foldl (fun s i => s.formBand i) s).channels = s.channels ∧
      Raises s.notices (l.foldl (fun s i => s.formBand i) s).notices ∧
      (∀ i, i ∉ l → (l.foldl (fun s i => s.formBand i) s).slot i = s.slot i) ∧
      ∀ i ∈ l, Banded s (l.foldl (fun s i => s.formBand i) s) c i := by
  induction l generalizing s with
  | nil => exact ⟨rfl, .refl, fun _ _ => rfl, fun _ member => by cases member⟩
  | cons j rest ih =>
    obtain ⟨notInRest, nodupRest⟩ := List.nodup_cons.1 nodup
    obtain ⟨banded, one⟩ := State.formBand_banded (named j List.mem_cons_self)
    have raises : Raises s.notices (s.formBand j).notices := ((Undisturbed.refl s).formBand j).notices
    have apart : ∀ i ∈ rest, i ≠ j := fun i member same => notInRest (same ▸ member)
    obtain ⟨channels, later, others, all⟩ := ih nodupRest (s.formBand j) fun i member => by
      rw [one.others i (apart i member)]
      exact named i (List.mem_cons_of_mem j member)
    rw [List.foldl_cons]
    refine ⟨channels.trans one.channels, raises.trans later, fun i notIn => ?_, fun i member => ?_⟩
    · rw [others i fun inRest => notIn (List.mem_cons_of_mem j inRest)]
      exact one.others i fun same => notIn (same ▸ List.mem_cons_self)
    · rcases List.mem_cons.1 member with rfl | inRest
      · exact banded.later (others i notInRest) later
      · exact (all i inRest).earlier (one.others i (apart i inRest))
          (congrArg (fun x : Vector Channel 8 => x[c.val]) one.channels) raises

theorem State.mem_admittedOf (s : State) (c : ChannelId) (i : SlotId) :
    i ∈ s.admittedOf c ↔ (s.slot i).state.isAdmitted = true ∧ (s.slot i).channel = some c := by
  unfold State.admittedOf
  simp

theorem State.admittedOf_nodup (s : State) (c : ChannelId) : (s.admittedOf c).Nodup := (List.nodup_finRange 16).filter _

/-! ## A changed commit step (R121, step 3) -/

theorem State.stepHolds_of (channel : (s.slot i).channel = some c)
    (reached : (s.channel c).settings.commitStep ≤ (s.slot i).uncommitted) : s.stepHolds i = true := by
  unfold State.stepHolds
  rw [channel]
  exact decide_eq_true reached

theorem State.stepHolds_congr (h : RecordsKept s t) (i : SlotId) : t.stepHolds i = s.stepHolds i := by
  have channel : ∀ c, t.channel c = s.channel c := fun c => by simp only [State.channel, h.channels]
  unfold State.stepHolds
  simp only [h.slot, channel]

theorem State.foldl_stepTrigger (l : List SlotId) (s : State) :
    RecordsKept s (l.foldl (fun s i => s.stepTrigger i) s) ∧
      (∀ j, (s.commit j).flight.isSome = true →
        ((l.foldl (fun s i => s.stepTrigger i) s).commit j).flight.isSome = true) ∧
      ∀ i ∈ l, s.triggerActs i = true → s.stepHolds i = true →
        ((l.foldl (fun s i => s.stepTrigger i) s).commit i).flight.isSome = true := by
  induction l generalizing s with
  | nil => exact ⟨.refl s, fun _ inFlight => inFlight, fun _ member => by cases member⟩
  | cons k rest ih =>
    have kept : RecordsKept s (s.stepTrigger k) := .stepTrigger (.refl s) k
    obtain ⟨records, stays, acted⟩ := ih (s.stepTrigger k)
    have flights := (StatesMoved.stepTrigger s k).flights
    rw [List.foldl_cons]
    refine ⟨⟨records.slots.trans kept.slots, records.channels.trans kept.channels, records.history.trans kept.history⟩,
      fun j inFlight => stays j (flights j inFlight), fun i member acts holds => ?_⟩
    rcases List.mem_cons.1 member with rfl | later
    · refine stays i ?_
      rw [State.stepTrigger, if_pos ⟨acts, holds⟩]
      exact (State.actTrigger_flight s i false).1
    · exact acted i later ((State.triggerActs_congr kept i).trans acts) ((State.stepHolds_congr kept i).trans holds)

/-! ## A changed switch level (R121, step 4) -/

theorem State.switchLevelChanged_rests (h : (s.channel c).state = .idle ∨ (s.channel c).state = .unsupplied) :
    s.switchLevelChanged c = s := by
  unfold State.switchLevelChanged
  rcases h with is | is
  · rw [is]
  · rw [is]

theorem State.switchLevelChanged_supplied (h : (s.channel c).state = .supplied) :
    s.switchLevelChanged c = s.plannedSwitch c := by
  unfold State.switchLevelChanged
  rw [h]

theorem State.switchLevelChanged_switching (switching : (s.channel c).state = .switching)
    (serving : (s.channel c).serving = some i) (target : (s.channel c).target = some j) :
    s.switchLevelChanged c =
      if (s.slot j).perMille ≤ (s.channel c).settings.switchLevel ∨ (s.channel c).settings.switchLevel < (s.slot i).perMille
      then s.cancelSwitch c else s := by
  unfold State.switchLevelChanged
  rw [switching]
  unfold State.levelCancelTest
  dsimp only
  rw [switching, serving, target]

theorem State.plannedSwitch_notDue (supplied : (s.channel c).state = .supplied)
    (serving : (s.channel c).serving = some i) (inPair : i ∈ (s.channel c).pairSlots) (notDue : ∀ j, ¬s.SwitchDue c i j) :
    s.plannedSwitch c = s := by
  refine State.plannedSwitch_of_none ?_
  cases wanted : s.switchWanted c with
  | none => rfl
  | some j => exact (notDue j ((State.switchWanted_iff supplied serving inPair).1 wanted)).elim

/-! ## The settings that act (R121) -/

section
variable {old new : ChannelSettings}

theorem State.settingsAct_nothing (ink : new.inkCode = old.inkCode) (low : new.lowLevel = old.lowLevel)
    (veryLow : new.veryLowLevel = old.veryLowLevel) (step : new.commitStep = old.commitStep)
    (switch : new.switchLevel = old.switchLevel) (upper : new.upperThreshold = old.upperThreshold)
    (lower : new.lowerThreshold = old.lowerThreshold) : v.settingsAct c old new = v := by
  simp [State.settingsAct, ink, low, veryLow, step, switch, upper, lower]

theorem State.settingsAct_ink (h : new = { old with inkCode := new.inkCode }) (differs : new ≠ old) :
    v.settingsAct c old new = v.inkCodeChanged c := by
  generalize new.inkCode = x at h
  subst h
  have ink : ¬old.inkCode = x := fun same => differs (by rw [← same])
  simp [State.settingsAct, ink]

theorem State.settingsAct_levels (h : new = { old with lowLevel := new.lowLevel, veryLowLevel := new.veryLowLevel })
    (differs : new ≠ old) : v.settingsAct c old new = v.levelsChanged c := by
  generalize new.lowLevel = x, new.veryLowLevel = y at h
  subst h
  have levels : ¬(old.lowLevel = x ∧ old.veryLowLevel = y) := fun ⟨low, veryLow⟩ => differs (by rw [← low, ← veryLow])
  simp [State.settingsAct, ← not_and_or, levels]

theorem State.settingsAct_step (h : new = { old with commitStep := new.commitStep }) (differs : new ≠ old) :
    v.settingsAct c old new = v.commitStepChanged c := by
  generalize new.commitStep = x at h
  subst h
  have step : ¬old.commitStep = x := fun same => differs (by rw [← same])
  simp [State.settingsAct, step]

theorem State.settingsAct_switch (h : new = { old with switchLevel := new.switchLevel }) (differs : new ≠ old) :
    v.settingsAct c old new = v.switchLevelChanged c := by
  generalize new.switchLevel = x at h
  subst h
  have switch : ¬old.switchLevel = x := fun same => differs (by rw [← same])
  simp [State.settingsAct, switch]

theorem State.settingsAct_thresholds
    (h : new = { old with upperThreshold := new.upperThreshold, lowerThreshold := new.lowerThreshold })
    (differs : new ≠ old) : v.settingsAct c old new = v.thresholdsChanged c := by
  generalize new.upperThreshold = x, new.lowerThreshold = y at h
  subst h
  have thresholds : ¬(old.upperThreshold = x ∧ old.lowerThreshold = y) := fun ⟨upper, lower⟩ =>
    differs (by rw [← upper, ← lower])
  simp [State.settingsAct, ← not_and_or, thresholds]

end

/-- The slots whose ink a new code finds wrong are among those that the model tests, and with a channel field that names
the channel they are the same. -/
theorem State.WrongInk.mem {new : ChannelSettings} (h : s.WrongInk c new.inkCode i)
    (slots : ∀ k, v.slot k = s.slot k) (channel : v.channel c = { s.channel c with settings := new }) :
    i ∈ v.wrongSlots c := by
  obtain ⟨pair, named, tested, d, described, differs⟩ := h
  refine List.mem_filter.2 ⟨by rw [channel]; exact pair, ?_⟩
  have inkTested : (v.slot i).state.inkTested = true := by
    rw [slots]
    rcases tested with is | is | is
    · rw [is]; rfl
    · rw [is]; rfl
    · revert is
      cases (s.slot i).state <;> decide
  rw [State.inkDiffers_iff v (c := c) (by rw [slots]; exact named) inkTested, slots, channel]
  exact ⟨d, described, differs⟩

theorem State.wrongInk_of_mem {new : ChannelSettings} (wrong : i ∈ v.wrongSlots c) (named : (s.slot i).channel = some c)
    (slots : ∀ k, v.slot k = s.slot k) (channel : v.channel c = { s.channel c with settings := new }) :
    s.WrongInk c new.inkCode i := by
  obtain ⟨pair, differs⟩ := List.mem_filter.1 wrong
  rw [channel] at pair
  have inkTested : (s.slot i).state.inkTested = true := by
    unfold State.inkDiffers at differs
    rw [slots, named] at differs
    split at differs
    · exact (Bool.and_eq_true _ _ ▸ differs).1
    · cases differs
  rw [State.inkDiffers_iff v (c := c) (by rw [slots]; exact named) (by rw [slots]; exact inkTested), slots, channel]
    at differs
  refine ⟨pair, named, ?_, differs⟩
  revert inkTested
  cases (s.slot i).state <;> decide

/-! ## What each changed setting does, from the state in which the settings have been taken -/

/-- `v` is `s` with the settings of channel `c` replaced. -/
structure SettingsTaken (s v : State) (c : ChannelId) (new : ChannelSettings) : Prop where
  slots : ∀ k, v.slot k = s.slot k
  channel : v.channel c = { s.channel c with settings := new }
  notices : v.notices = s.notices

section
variable {new : ChannelSettings} (taken : SettingsTaken s v c new)
include taken

theorem SettingsTaken.ink_rejects (wrong : s.WrongInk c new.inkCode i) :
    ((v.inkCodeChanged c).slot i).RejectedInk :=
  State.inkCodeChanged_rejects (wrong.mem taken.slots taken.channel)

theorem SettingsTaken.ink_fails (serving : (s.channel c).serving = some i) (wrong : s.WrongInk c new.inkCode i) :
    (∀ j, (s.channel c).paired i j → (s.slot j).channel = some c → s.CanServe j → ¬s.WrongInk c new.inkCode j →
      DrawsFrom (v.inkCodeChanged c) c j) ∧
    ((∀ j, (s.channel c).paired i j → ¬s.CanServe j ∨ s.WrongInk c new.inkCode j) → Undrawn (v.inkCodeChanged c) c) ∧
    SplitMarked s (v.inkCodeChanged c) c (s.channel c).reservations (some i) ∧
    Announced s.notices (v.inkCodeChanged c).notices
      (.channelChanged c ⟨.failover, (s.channel c).state, ((v.inkCodeChanged c).channel c).state, some i,
        ((v.inkCodeChanged c).channel c).serving, none, some .rejected⟩) := by
  obtain ⟨slots, channel, notices⟩ := taken
  obtain ⟨_, raises, kept, rejected⟩ := v.inkTested_spec c
  have record := v.inkTested_channel c
  obtain ⟨failed, _⟩ := State.inkCodeChanged_fails (v := v) (c := c) (i := i) (by rw [channel]; exact serving)
    (wrong.mem slots channel)
  obtain ⟨draws, lost, ⟨marked, last, splits⟩, notice⟩ := failed
  rw [record, channel] at draws lost notice
  rw [channel] at marked last splits
  have raised : Raises s.notices (v.inkTested c).notices := notices ▸ raises
  refine ⟨fun j paired named serves right => draws j paired ?_, fun noneCan => lost fun j paired serves => ?_,
    ⟨marked, last, fun r member drawing => .after raised (splits r member drawing)⟩, .after raised notice⟩
  · have notWrong : j ∉ v.wrongSlots c := fun is => right (State.wrongInk_of_mem is named slots channel)
    rw [State.CanServe, kept j notWrong, slots]
    exact serves
  · by_cases isWrong : j ∈ v.wrongSlots c
    · exact (rejected j isWrong).notReady serves.1
    · rw [State.CanServe, kept j isWrong, slots] at serves
      exact (noneCan j paired).elim (· serves) fun wrong => isWrong (wrong.mem slots channel)

theorem SettingsTaken.ink_cancels (switching : (s.channel c).state = .switching)
    (serving : (s.channel c).serving = some i) (target : (s.channel c).target = some j)
    (named : (s.slot i).channel = some c) (right : ¬s.WrongInk c new.inkCode i) (wrong : s.WrongInk c new.inkCode j) :
    ((v.inkCodeChanged c).channel c).state = .supplied ∧ ((v.inkCodeChanged c).channel c).serving = some i ∧
      ((v.inkCodeChanged c).channel c).target = none ∧
      Announced s.notices (v.inkCodeChanged c).notices
        (.channelChanged c ⟨.switchCancelled, .switching, .supplied, some i, some i, none, none⟩) := by
  obtain ⟨slots, channel, notices⟩ := taken
  rw [← notices]
  exact State.inkCodeChanged_cancels (by rw [channel]; exact switching) (by rw [channel]; exact serving)
    (by rw [channel]; exact target) (fun is => right (State.wrongInk_of_mem is named slots channel))
    (wrong.mem slots channel)

theorem SettingsTaken.levels :
    (v.levelsChanged c).channels = v.channels ∧
      ∀ i, ((s.slot i).state.isAdmitted = true → (s.slot i).channel = some c →
          (v.levelsChanged c).slot i = { s.slot i with band := bandOf (s.slot i).remaining (s.slot i).perMille new } ∧
          (((v.levelsChanged c).slot i).band ≠ (s.slot i).band → Announced s.notices (v.levelsChanged c).notices
            (.levelBand i c (s.slot i).band ((v.levelsChanged c).slot i).band (s.slot i).perMille
              (s.slot i).remaining))) ∧
        ((s.slot i).state.isAdmitted = false ∨ (s.slot i).channel ≠ some c → (v.levelsChanged c).slot i = s.slot i) := by
  obtain ⟨slots, channel, notices⟩ := taken
  obtain ⟨channels, _, others, banded⟩ := State.foldl_formBand (c := c) (v.admittedOf c) (v.admittedOf_nodup c) v
    fun i member => ((v.mem_admittedOf c i).1 member).2
  refine ⟨channels, fun i => ⟨fun admitted named => ?_, fun h => ?_⟩⟩
  · obtain ⟨record, notice⟩ := banded i ((v.mem_admittedOf c i).2 ⟨by rw [slots]; exact admitted, by rw [slots]; exact named⟩)
    rw [slots, channel] at record
    rw [slots, notices] at notice
    exact ⟨record, notice⟩
  · refine (others i fun member => ?_).trans (slots i)
    obtain ⟨admitted, named⟩ := (v.mem_admittedOf c i).1 member
    rw [slots] at admitted named
    rcases h with not | not
    · rw [not] at admitted
      cases admitted
    · exact not named

theorem SettingsTaken.step :
    (v.commitStepChanged c).channels = v.channels ∧ (v.commitStepChanged c).slots = v.slots ∧
      ∀ i, (s.slot i).state.isAdmitted = true → (s.slot i).channel = some c → 0 < (s.slot i).uncommitted →
        new.commitStep ≤ (s.slot i).uncommitted → ((v.commitStepChanged c).commit i).flight.isSome = true := by
  obtain ⟨slots, channel, _⟩ := taken
  obtain ⟨kept, _, acts⟩ := State.foldl_stepTrigger (v.admittedOf c) v
  refine ⟨kept.channels, kept.slots, fun i admitted named positive reached => ?_⟩
  refine acts i ((v.mem_admittedOf c i).2 ⟨by rw [slots]; exact admitted, by rw [slots]; exact named⟩)
    ((State.triggerActs_iff v i).2 ⟨by rw [slots]; exact admitted, by rw [slots]; exact positive⟩)
    (State.stepHolds_of (c := c) (by rw [slots]; exact named) ?_)
  rw [channel, slots]
  exact reached

theorem SettingsTaken.switch :
    ((s.channel c).state = .idle ∨ (s.channel c).state = .unsupplied → v.switchLevelChanged c = v) ∧
      (∀ i, (s.channel c).state = .supplied → (s.channel c).serving = some i → i ∈ (s.channel c).pairSlots →
        ((∀ j, ¬v.SwitchDue c i j) → v.switchLevelChanged c = v) ∧
        (∀ j, v.SwitchDue c i j →
          ((∃ r ∈ (s.channel c).reservations, r.isDrawing = true) →
            v.switchLevelChanged c = (v.withChannel c { v.channel c with state := .switching, target := some j }).raise
              (.channelChanged c ⟨.switchBegin, .supplied, .switching, some i, some i, some j, none⟩)) ∧
          ((∀ r ∈ (s.channel c).reservations, r.isDrawing = false) →
            SwitchedOver v (v.switchLevelChanged c) c i j))) ∧
      ∀ i j, (s.channel c).state = .switching → (s.channel c).serving = some i → (s.channel c).target = some j →
        ((s.slot i).perMille ≤ new.switchLevel ∧ new.switchLevel < (s.slot j).perMille → v.switchLevelChanged c = v) ∧
        (new.switchLevel < (s.slot i).perMille ∨ (s.slot j).perMille ≤ new.switchLevel →
          HeadTests c
            ((v.withChannel c { v.channel c with state := .supplied, target := none }).raise
              (.channelChanged c ⟨.switchCancelled, .switching, .supplied, some i, some i, none, none⟩))
            (v.switchLevelChanged c)) := by
  obtain ⟨slots, channel, _⟩ := taken
  have drawing := Channel.hasDrawing_iff (v.channel c)
  refine ⟨fun rests => State.switchLevelChanged_rests (by rw [channel]; exact rests),
    fun i supplied serving inPair => ?_, fun i j switching serving target => ?_⟩
  · have suppliedV : (v.channel c).state = .supplied := by rw [channel]; exact supplied
    have servingV : (v.channel c).serving = some i := by rw [channel]; exact serving
    have inPairV : i ∈ (v.channel c).pairSlots := by rw [channel]; exact inPair
    rw [State.switchLevelChanged_supplied suppliedV]
    refine ⟨State.plannedSwitch_notDue suppliedV servingV inPairV, fun j due => ⟨fun is => ?_, fun is => ?_⟩⟩
    · exact State.plannedSwitch_begins suppliedV servingV due (drawing.1.2 (by rw [channel]; exact is))
    · exact State.plannedSwitch_completes suppliedV servingV due (drawing.2.2 (by rw [channel]; exact is))
  · have switchingV : (v.channel c).state = .switching := by rw [channel]; exact switching
    have servingV : (v.channel c).serving = some i := by rw [channel]; exact serving
    have settings : (v.channel c).settings = new := by rw [channel]
    rw [State.switchLevelChanged_switching switchingV servingV (by rw [channel]; exact target), slots, slots, settings]
    refine ⟨fun h => if_neg (by omega), fun h => ?_⟩
    rw [if_pos (by omega)]
    exact State.cancelSwitch_tests switchingV servingV

end

/-! ## The request -/

theorem policyOf_of {n : Nat} {policy : RefillPolicy} (h : n = 0 ∧ policy = .warn ∨ n = 1 ∧ policy = .reject) :
    policyOf n = some policy := by
  rcases h with ⟨rfl, rfl⟩ | ⟨rfl, rfl⟩
  · rfl
  · rfl

theorem policyOf_none {n : Nat} (above : 1 < n) : policyOf n = none := by
  match n, above with
  | n + 2, _ => rfl

theorem State.lockRefuses_iff (s : State) (c : ChannelId) (policy : Nat) :
    s.lockRefuses c policy = true ↔
      s.keys.policyLock = true ∧ policyOf policy ≠ some (s.channel c).settings.refillPolicy := by
  unfold State.lockRefuses
  rw [Bool.and_eq_true, decide_eq_true_iff]

/-- Settles O24: the refusals, the settings taken, and what each that acts does. -/
theorem channel_set : Obligations.Channel_set := by
  unfold Obligations.Channel_set
  intro s tag f ready
  refine ⟨fun above => ?_, fun c named => ⟨fun locked other => ?_, fun unlocked above => ?_, fun policy isPolicy lock => ?_⟩⟩
  · refine exec_served ready ?_
    rw [serveChannelSet, channelOf_eq_none above]
    rfl
  · refine exec_served ready ?_
    rw [serveChannelSet, channelOf_of_val named]
    dsimp only
    rw [if_pos ((State.lockRefuses_iff s.beginRequest c _).2 ⟨locked, other⟩), State.violation_beginRequest]
    rfl
  · refine exec_served ready ?_
    rw [serveChannelSet, channelOf_of_val named]
    dsimp only
    have notLocked : ¬s.beginRequest.lockRefuses c f.settings.refillPolicy = true := fun is => by
      have locked : s.keys.policyLock = true := ((State.lockRefuses_iff s.beginRequest c _).1 is).1
      rw [unlocked] at locked
      cases locked
    rw [if_neg notLocked, policyOf_none above]
    rfl
  · have notRefused : ¬s.beginRequest.lockRefuses c f.settings.refillPolicy = true := fun is => by
      obtain ⟨locked, other⟩ := (State.lockRefuses_iff s.beginRequest c _).1 is
      rw [policyOf_of isPolicy] at other
      exact other (congrArg some (lock locked))
    have undisturbed := Undisturbed.takeSettings s.beginRequest c (takenSettings f.settings policy)
    refine ⟨takenSettings f.settings policy, s.beginRequest.takeSettings c (takenSettings f.settings policy),
      exec_answered ready ?_ undisturbed.host, undisturbed, rfl, fun v old isOld isV => ?_⟩
    · rw [serveChannelSet, channelOf_of_val named]
      dsimp only
      rw [if_neg notRefused, policyOf_of isPolicy]
      dsimp only
      split
      · rfl
      · rfl
    generalize takenSettings f.settings policy = new at isV ⊢
    have acts : s.beginRequest.takeSettings c new = v.settingsAct c old new := by rw [isV, isOld]; rfl
    have taken : SettingsTaken s v c new := by
      rw [isV]
      exact ⟨fun _ => rfl, Vector.getElem_set_self _, rfl⟩
    have slots : v.slots = s.slots := by rw [isV]; rfl
    rw [acts]
    refine ⟨State.settingsAct_nothing, fun only differs => ?_, fun only differs => ?_, fun only differs => ?_,
      fun only differs => ?_, fun only differs => ?_⟩
    · rw [State.settingsAct_ink only differs]
      exact ⟨fun i => taken.ink_rejects, fun i => taken.ink_fails, fun i j => taken.ink_cancels⟩
    · rw [State.settingsAct_levels only differs]
      exact taken.levels
    · rw [State.settingsAct_step only differs]
      obtain ⟨channels, slotsU, step⟩ := taken.step
      exact ⟨channels, slotsU.trans slots, step⟩
    · rw [State.settingsAct_switch only differs]
      exact taken.switch
    · rw [State.settingsAct_thresholds only differs, State.thresholdsChanged, State.clearTest_eq]
      exact State.headTest_tests _ c

end

end Sys2Proof.Machine

/-! PROOF. What the work that a verdict sets off leaves of the Level Sense Unit and of the marks under way (O54). -/

namespace Sys2Proof.Machine

section
variable {s t u : State} {i k : SlotId} {c : ChannelId}

/-! ## The items of the sensors, a run, and the marks under way -/

/-- The sensors' items stay, no run begins, and a MARK that is queued or in flight is so afterwards. -/
structure MarksStay (s t : State) : Prop where
  items : t.sense.slots = s.sense.slots
  run : s.sense.run = none → t.sense.run = none
  marks : ∀ l e, e.laneClass = .mark → s.underWay l e → t.underWay l e

theorem MarksStay.of_eq (lanes : t.bus.lanes = s.bus.lanes) (sense : t.sense = s.sense) : MarksStay s t where
  items := by rw [sense]
  run := by rw [sense]; exact id
  marks l e _ h := by
    have lane : t.lane l = s.lane l := by simp only [State.lane, lanes]
    rw [State.underWay, lane]
    exact h

theorem MarksStay.refl (s : State) : MarksStay s s := .of_eq rfl rfl

theorem MarksStay.trans (h : MarksStay s t) (k : MarksStay t u) : MarksStay s u :=
  ⟨k.items.trans h.items, fun none => k.run (h.run none), fun l e mark under => k.marks l e mark (h.marks l e mark under)⟩

/-- A lane's queue changes and keeps its MARK entries. -/
theorem MarksStay.updQueue (s : State) (l : LaneId) (f : List LaneEntry → List LaneEntry)
    (keeps : ∀ (q : List LaneEntry) e, e.laneClass = .mark → e ∈ q → e ∈ f q) :
    MarksStay s (s.updLane l fun lane => { lane with queue := f lane.queue }) := by
  refine ⟨rfl, id, fun m e mark under => ?_⟩
  rw [State.underWay, State.updLane_lane]
  split
  · exact under.imp_left (keeps _ e mark)
  · exact under

theorem State.goesOnWire_noRun (none : s.sense.run = none) : (s.goesOnWire i).sense.run = .none := by
  unfold State.goesOnWire State.abandonRun
  rw [none]
  split
  · split
    · split
      · exact none
      · exact none
    · exact none
  · exact none

theorem State.takeEntryN_noRun (n : Nat) (s : State) (l : LaneId) (none : s.sense.run = none) :
    (State.takeEntryN n s l).sense.run = .none := by
  induction n generalizing s with
  | zero => exact none
  | succ n ih =>
    unfold State.takeEntryN
    split
    case isTrue => exact none
    case isFalse =>
      split
      case h_1 => exact none
      case h_2 c _ =>
        dsimp only
        split
        case isTrue =>
          refine ih _ ?_
          unfold State.passDone
          split
          · exact none
          · exact none
        case isFalse =>
          rw [State.startTransaction_eq]
          refine State.goesOnWire_noRun ?_
          split
          · exact none
          · exact none

theorem MarksStay.takeEntry (s : State) (l : LaneId) (idle : (s.lane l).state = .idle) : MarksStay s (s.takeEntry l) := by
  have work := s.takeEntry_work l
  refine ⟨work.items, fun none => State.takeEntryN_noRun _ s l none, fun m e mark under => ?_⟩
  by_cases same : l = m
  · subst same
    refine State.takeEntryN_underWay _ s l (under.resolve_right ?_) (by rw [mark]; exact nofun)
    rintro ⟨x, wire, _⟩
    cases idle.symm.trans wire
  · rw [State.underWay, work.lanes m same]
    exact under

theorem MarksStay.enqueue (s : State) (e : LaneEntry) : MarksStay s (s.enqueue e) := by
  have joined := MarksStay.updQueue s (laneOf e.slot) (· ++ [e]) fun q x _ member => List.mem_append_left _ member
  unfold State.enqueue
  dsimp only
  split
  case h_1 idle => exact joined.trans (.takeEntry _ _ idle)
  case h_2 => exact joined

/-- A MARK asked for, that the description does not show with none of the slot under way, is under way. -/
theorem State.enqueue_underWay (s : State) {e : LaneEntry} (noPass : e.laneClass ≠ .pass) :
    (s.enqueue e).underWay (laneOf e.slot) e := by
  have member : e ∈ ((s.updLane (laneOf e.slot) fun lane =>
      { lane with queue := lane.queue ++ [e] }).lane (laneOf e.slot)).queue := by
    rw [State.updLane_lane_same]
    exact List.mem_append_right _ (List.mem_singleton.2 rfl)
  unfold State.enqueue
  dsimp only
  split
  · exact State.takeEntryN_underWay _ _ _ member noPass
  · exact .inl member

theorem State.requestMark_underWay {m : TagMark} (hidden : (s.slot i).shows m = false)
    (none : s.markUnderWay i = none) : (s.requestMark i m).underWay (laneOf i) ⟨i, .mark m, .none⟩ := by
  unfold State.requestMark
  rw [if_neg (by rw [hidden]; exact Bool.false_ne_true), none]
  exact State.enqueue_underWay s nofun

theorem MarksStay.requestMark (s : State) (i : SlotId) (m : TagMark) : MarksStay s (s.requestMark i m) := by
  unfold State.requestMark
  split
  · exact .refl s
  · split
    · exact .enqueue s _
    · split
      · exact .refl s
      · exact .of_eq rfl rfl

/-! ## Commits -/

theorem LaneEntry.enlarged_mark {e : LaneEntry} (mark : e.laneClass = .mark) (j : SlotId) (advance : Nat) :
    e.enlarged j advance = e := by
  obtain ⟨slot, command, ticket⟩ := e
  cases command with
  | odoAdvance v g n => cases mark
  | _ => rfl

theorem MarksStay.actTrigger (s : State) (k : SlotId) (forced : Bool) : MarksStay s (s.actTrigger k forced) := by
  unfold State.actTrigger
  split
  case h_1 =>
    unfold State.takeCommit
    dsimp only
    refine .trans ?_ (.enqueue _ _)
    exact .of_eq rfl rfl
  case h_2 =>
    split
    case isTrue =>
      unfold State.enlargeCommit
      dsimp only
      have counted := MarksStay.of_eq (s := s) (t := s.updCommit k fun c => { c with flight := c.flight.map fun f =>
        { f with
          snapshot := (s.slot k).uncommitted
          advance := (s.slot k).committed + (s.slot k).uncommitted } }) rfl rfl
      refine counted.trans (.updQueue _ _ (List.map _) fun q e mark member => ?_)
      exact List.mem_map.2 ⟨e, member, LaneEntry.enlarged_mark mark k _⟩
    case isFalse =>
      split
      · exact .refl s
      · exact .of_eq rfl rfl

theorem MarksStay.forcedTrigger (s : State) (k : SlotId) : MarksStay s (s.forcedTrigger k) := by
  unfold State.forcedTrigger
  split
  · exact .actTrigger s k true
  · exact .refl s

theorem MarksStay.stepTrigger (s : State) (k : SlotId) : MarksStay s (s.stepTrigger k) := by
  unfold State.stepTrigger
  split
  · exact .actTrigger s k false
  · exact .refl s

theorem MarksStay.withdrawCommit (s : State) (k : SlotId) : MarksStay s (s.withdrawCommit k) := by
  unfold State.withdrawCommit
  split
  · split
    · unfold State.dropEntries
      refine .trans (.updQueue s (laneOf k) (List.filter _) fun q e mark member => ?_) (.of_eq rfl rfl)
      exact List.mem_filter.2 ⟨member, by rw [mark]; simp⟩
    · exact .refl s
  · exact .refl s

/-! ## Slots and channels -/

theorem MarksStay.moveSlot (s : State) (k : SlotId) (f : SlotRecord → SlotRecord) : MarksStay s (s.moveSlot k f) :=
  .of_eq rfl rfl

theorem MarksStay.rejectSlot (s : State) (k : SlotId) (why : RejectReason) : MarksStay s (s.rejectSlot k why) :=
  (MarksStay.moveSlot s k _).trans (.withdrawCommit _ k)

theorem HeadTested.marksStay (h : HeadTested s t c) : MarksStay s t := .of_eq (by rw [h.only]) (by rw [h.only])

theorem MarksStay.completionTest (s : State) (c : ChannelId) : MarksStay s (s.completionTest c) := by
  unfold State.completionTest
  dsimp only
  split
  · next old new _ _ _ =>
    split
    · exact .refl s
    · have back : MarksStay s (s.toReady old) := (MarksStay.moveSlot s old _).trans (.forcedTrigger _ old)
      have moved := back.trans (.moveSlot _ new fun r => { r with state := .serving })
      unfold State.completeSwitch
      dsimp only
      refine .trans ?_ (State.headTest_tested _ c).marksStay
      exact moved.trans (.of_eq rfl rfl)
  · exact .refl s

theorem MarksStay.plannedSwitch (s : State) (c : ChannelId) : MarksStay s (s.plannedSwitch c) := by
  unfold State.plannedSwitch
  dsimp only
  split
  · refine .trans ?_ (.completionTest _ c)
    exact .of_eq rfl rfl
  · exact .refl s

theorem MarksStay.applySplit (s : State) (c : ChannelId) (drewFrom drawsFrom : Option SlotId) :
    MarksStay s (s.applySplit c drewFrom drawsFrom) := by
  obtain ⟨only, _, _⟩ := s.applySplit_spec c drewFrom drawsFrom
  exact .of_eq (by rw [only]) (by rw [only])

theorem MarksStay.failover (s : State) (c : ChannelId) (old : SlotId) (reason : LeaveReason) :
    MarksStay s (s.failover c old reason) := by
  have next : MarksStay s (s.drawNext c (s.standIn c old)) := by
    cases s.standIn c old with
    | none => exact .of_eq rfl rfl
    | some j => exact (MarksStay.moveSlot s j fun r => { r with state := .serving }).trans (.of_eq rfl rfl)
  unfold State.failover
  dsimp only
  refine .trans ?_ (.plannedSwitch _ c)
  refine .trans ?_ (State.headTest_tested _ c).marksStay
  exact (next.trans (.applySplit _ c _ _)).trans (.of_eq rfl rfl)

theorem MarksStay.slotLeft (s : State) (k : SlotId) (reason : LeaveReason) : MarksStay s (s.slotLeft k reason) := by
  unfold State.slotLeft
  split
  · split
    · exact .failover s _ k reason
    · unfold State.targetTest
      dsimp only
      split
      · split
        · exact .refl s
        · unfold State.cancelSwitch
          dsimp only
          refine .trans ?_ (State.headTest_tested _ _).marksStay
          exact .of_eq rfl rfl
      · exact .refl s
  · exact .refl s

theorem MarksStay.select (s : State) (c : ChannelId) : MarksStay s (s.select c) := by
  unfold State.select
  split
  · split
    case h_1 j _ =>
      dsimp only
      refine .trans ?_ (.plannedSwitch _ c)
      refine .trans ?_ (State.headTest_tested _ c).marksStay
      have served : MarksStay s ((s.toServing j).updChannel c fun ch => ch.supplied j) :=
        (MarksStay.moveSlot s j fun r => { r with state := .serving }).trans (.of_eq rfl rfl)
      exact (served.trans (.applySplit _ c _ _)).trans (.of_eq rfl rfl)
    case h_2 => exact .refl s
  · exact .refl s

theorem MarksStay.offerReady (s : State) (k : SlotId) : MarksStay s (s.offerReady k) := by
  unfold State.offerReady
  split
  · refine .trans ?_ (State.headTest_tested _ _).marksStay
    exact (MarksStay.select s _).trans (.plannedSwitch _ _)
  · exact .refl s

end

end Sys2Proof.Machine

/-! PROOF. A slot's sample (R162, R163) and the window check of a regular one (R167 to R169), up to a detection (O54). -/

namespace Sys2Proof.Machine

section
variable {s t u : State} {i k : SlotId} {c : ChannelId}

/-! ## The record and the sensor items of one slot, and the notices -/

/-- One slot's record and sensor items, and the notices, replaced: all that a sample and a window check can change. -/
def State.sampled (s : State) (i : SlotId) (r : SlotRecord) (q : SlotSense) (n : NoticeUnit) : State :=
  { (s.withSlotSense i q).withSlot i r with notices := n }

theorem State.sampled_same (s : State) (i : SlotId) : s.sampled i (s.slot i) (s.slotSense i) s.notices = s := by
  have slots : s.slots.set i.val (s.slot i) i.isLt = s.slots := Vector.set_getElem_self _
  have items : s.sense.slots.set i.val (s.slotSense i) i.isLt = s.sense.slots := Vector.set_getElem_self _
  unfold State.sampled State.withSlot State.withSlotSense
  rw [slots, items]

theorem State.sampled_sampled (s : State) (i : SlotId) (r r' : SlotRecord) (q q' : SlotSense) (n n' : NoticeUnit) :
    (s.sampled i r q n).sampled i r' q' n' = s.sampled i r' q' n' := by
  simp only [State.sampled, State.withSlot, State.withSlotSense, Vector.set_set]

theorem State.sampled_slot (s : State) (i : SlotId) (r : SlotRecord) (q : SlotSense) (n : NoticeUnit) :
    (s.sampled i r q n).slot i = r :=
  Vector.getElem_set_self _

theorem State.sampled_slot_other {r : SlotRecord} {q : SlotSense} {n : NoticeUnit} (other : k ≠ i) :
    (s.sampled i r q n).slot k = s.slot k :=
  Vector.getElem_set_ne i.isLt k.isLt fun same => other (Fin.ext same.symm)

theorem State.sampled_slotSense (s : State) (i : SlotId) (r : SlotRecord) (q : SlotSense) (n : NoticeUnit) :
    (s.sampled i r q n).slotSense i = q :=
  Vector.getElem_set_self _

theorem State.updSlot_sampled (s : State) (i : SlotId) (f : SlotRecord → SlotRecord) :
    s.updSlot i f = s.sampled i (f (s.slot i)) (s.slotSense i) s.notices := by
  have items : s.sense.slots.set i.val (s.slotSense i) i.isLt = s.sense.slots := Vector.set_getElem_self _
  unfold State.sampled State.withSlot State.withSlotSense
  rw [items]
  rfl

theorem State.updSlotSense_sampled (s : State) (i : SlotId) (f : SlotSense → SlotSense) :
    s.updSlotSense i f = s.sampled i (s.slot i) (f (s.slotSense i)) s.notices := by
  have slots : s.slots.set i.val (s.slot i) i.isLt = s.slots := Vector.set_getElem_self _
  unfold State.sampled State.withSlot
  rw [show (s.withSlotSense i (f (s.slotSense i))).slots = s.slots from rfl, slots]
  rfl

theorem State.raise_sampled (s : State) (i : SlotId) (n : Notice) :
    s.raise n = s.sampled i (s.slot i) (s.slotSense i) (s.notices.raise n) := by
  conv => lhs; rw [← s.sampled_same i]
  rfl

/-! ## The sample (R162, R163) -/

theorem rawFaulted_iff (raw : Nat) : rawFaulted raw = true ↔ raw ≤ 15 ∨ 4080 ≤ raw := by
  simp [rawFaulted]

/-- The record after a good sample: the fourth good one of a run clears SENSOR_FAULT. -/
def SlotRecord.goodSample (r : SlotRecord) (run : Nat) : SlotRecord :=
  { r with sensorFault := r.sensorFault && decide (run < 3) }

def SlotSense.goodSample (q : SlotSense) (fault : Bool) : SlotSense :=
  { q with goodRun := if fault then min 4 (q.goodRun + 1) else q.goodRun }

theorem State.takeSample_faulted {raw : Nat} (s : State) (i : SlotId) (offset : Int) (gain : Nat)
    (faulted : rawFaulted raw = true) :
    s.takeSample i raw offset gain =
      (s.sampled i { s.slot i with sensorFault := true } { s.slotSense i with goodRun := 0 }
        (if (s.slot i).sensorFault then s.notices else s.notices.raise (.sensorFault (some i) raw)), none) := by
  unfold State.takeSample
  rw [if_pos faulted, State.updSlotSense_sampled]
  dsimp only
  rw [State.sampled_slot]
  split
  case isTrue fault =>
    have same : { s.slot i with sensorFault := true } = s.slot i := by rw [← fault]
    rw [same]
  case isFalse =>
    rw [State.updSlot_sampled, State.sampled_sampled, State.raise_sampled _ i, State.sampled_sampled, State.sampled_slot,
      State.sampled_slot, State.sampled_slotSense, State.sampled_slotSense]
    rfl

theorem State.takeSample_good {raw : Nat} (s : State) (i : SlotId) (offset : Int) (gain : Nat)
    (good : rawFaulted raw = false) :
    s.takeSample i raw offset gain =
      (s.sampled i ((s.slot i).goodSample (s.slotSense i).goodRun)
        ((s.slotSense i).goodSample (s.slot i).sensorFault) s.notices, some (levelOf raw offset gain)) := by
  unfold State.takeSample
  rw [if_neg (by rw [good]; exact Bool.false_ne_true)]
  dsimp only
  cases fault : (s.slot i).sensorFault with
  | false =>
    have record : (s.slot i).goodSample (s.slotSense i).goodRun = s.slot i := by
      rw [SlotRecord.goodSample, fault, Bool.false_and, ← fault]
    rw [if_neg Bool.false_ne_true, record, SlotSense.goodSample, if_neg Bool.false_ne_true, State.sampled_same]
  | true =>
    have four : min Config.runSamples ((s.slotSense i).goodRun + 1) = Config.runSamples ↔ ¬(s.slotSense i).goodRun < 3 := by
      rw [Config.runSamples]
      omega
    rw [if_pos rfl, State.updSlotSense_sampled, SlotSense.goodSample, if_pos rfl, SlotRecord.goodSample, fault,
      Bool.true_and]
    split
    case isTrue full =>
      rw [State.updSlot_sampled, State.sampled_sampled, State.sampled_slot, State.sampled_slotSense,
        decide_eq_false (four.1 full)]
      rfl
    case isFalse short =>
      rw [decide_eq_true (not_not.1 fun h => short (four.2 h)), ← fault]
      rfl

/-- The state with a conversion's completion noted: the converter is free. -/
def State.converterFreed (s : State) : State := s.updSense fun u => { u with conversion := none }

/-- A conversion of a slot completes and its sample is taken (R154, R162, R163). -/
theorem State.takeSample_taken (s : State) (i : SlotId) (raw : Nat) (conversion : Conversion) :
    SampleTaken s (s.converterFreed.takeSample i raw conversion.offset conversion.gain).1 i raw conversion
      (s.converterFreed.takeSample i raw conversion.offset conversion.gain).2 := by
  cases faulted : rawFaulted raw with
  | true =>
    rw [State.takeSample_faulted _ _ _ _ faulted]
    refine ⟨?_, fun _ => ⟨rfl, ?_, ?_, rfl⟩, fun above below => ?_⟩
    · rw [State.sampled_slot, State.sampled_slotSense]
      rfl
    · rw [State.sampled_slotSense]
    · rw [State.sampled_slot]
    · have bad := (rawFaulted_iff raw).1 faulted
      omega
  | false =>
    rw [State.takeSample_good _ _ _ _ faulted]
    refine ⟨?_, fun bad => ?_, fun _ _ => ⟨rfl, rfl, fun clear => ?_, fun fault => ?_⟩⟩
    · rw [State.sampled_slot, State.sampled_slotSense]
      rfl
    · rw [(rawFaulted_iff raw).2 bad] at faulted
      cases faulted
    · have fault' : (s.converterFreed.slot i).sensorFault = false := clear
      rw [State.sampled_slot, State.sampled_slotSense, SlotSense.goodSample, SlotRecord.goodSample, fault']
      exact ⟨rfl, rfl⟩
    · have fault' : (s.converterFreed.slot i).sensorFault = true := fault
      rw [State.sampled_slot, State.sampled_slotSense, SlotSense.goodSample, SlotRecord.goodSample, fault']
      refine ⟨rfl, ?_⟩
      rw [Bool.true_and, decide_eq_false_iff_not, Nat.not_lt]
      rfl

end

end Sys2Proof.Machine

/-! PROOF. REFILL_SEEN, MARK(REFILL), the window check and the in-service detection (R167 to R169, R181, R182; O54). -/

namespace Sys2Proof.Machine

section
variable {s t u : State} {i k : SlotId} {c : ChannelId}

/-! ## REFILL_SEEN and MARK(REFILL) -/

theorem State.refillSeen_iff (s : State) (i : SlotId) :
    s.refillSeen i = true ↔ ∃ p e, s.entryOf i = some p ∧ s.place p = some e ∧ e.refillSeen = true := by
  unfold State.refillSeen
  split
  case h_1 p found =>
    split
    case h_1 e here => simp [found, here]
    case h_2 empty => simp [found, empty]
  case h_2 missing => simp [missing]

theorem State.setRefillSeen_history (s : State) (i : SlotId) :
    s.setRefillSeen i = { s with history := (s.setRefillSeen i).history } := by
  unfold State.setRefillSeen
  split
  · rfl
  · split
    · exact State.editEntry_history ..
    · rfl

theorem State.setRefillSeen_only (s : State) (i : SlotId) :
    (s.setRefillSeen i).slots = s.slots ∧ (s.setRefillSeen i).channels = s.channels ∧
      (s.setRefillSeen i).bus = s.bus ∧ (s.setRefillSeen i).sense = s.sense := by
  rw [State.setRefillSeen_history]
  exact ⟨rfl, rfl, rfl, rfl⟩

theorem State.setRefillSeen_seen (s : State) (i : SlotId) : RefillSeen s (s.setRefillSeen i) i := by
  intro p e found here
  unfold State.setRefillSeen
  split
  case isTrue seen =>
    obtain ⟨p', e', found', here', set⟩ := (s.refillSeen_iff i).1 seen
    obtain rfl : p = p' := Option.some.inj (found.symm.trans found')
    obtain rfl : e = e' := Option.some.inj (here.symm.trans here')
    rw [here, ← set]
  case isFalse =>
    rw [found]
    exact (State.editEntry_place here _ _ p).trans (if_pos rfl)

theorem RefillSeen.later (h : RefillSeen s t i) (history : u.history = t.history) : RefillSeen s u i := by
  intro p e found here
  rw [State.place, history]
  exact h p e found here

theorem RefillSeen.earlier (h : RefillSeen t u i) (description : (t.slot i).description = (s.slot i).description)
    (history : t.history = s.history) : RefillSeen s u i := by
  have places : ∀ p, t.place p = s.place p := fun p => by rw [State.place, history]; rfl
  intro p e found here
  exact h p e ((State.entryOf_congr description places).trans found) ((places p).trans here)

theorem RefillMarked.earlier (h : RefillMarked t u i) (description : (t.slot i).description = (s.slot i).description)
    (bus : t.bus = s.bus) : RefillMarked s u i := by
  intro hidden none
  refine h ?_ ?_
  · rw [SlotRecord.shows, description]
    exact hidden
  · rw [State.markUnderWay, State.lane, bus]
    exact none

theorem RefillMarked.later (h : RefillMarked s t i) (stays : MarksStay t u) : RefillMarked s u i :=
  fun hidden none => stays.marks _ _ rfl (h hidden none)

theorem State.requestMark_refillMarked (s : State) (i : SlotId) : RefillMarked s (s.requestMark i .refill) i :=
  fun hidden none => State.requestMark_underWay hidden none

theorem LastRaised.of_raises {v w : NoticeUnit} {n : Notice} (h : Raises v w) : LastRaised v (w.raise n) n :=
  ⟨w, h, rfl⟩

theorem LastRaised.earlier {a v w : NoticeUnit} {n : Notice} (h : LastRaised v w n) (raises : Raises a v) :
    LastRaised a w n := by
  obtain ⟨x, between, last⟩ := h
  exact ⟨x, raises.trans between, last⟩

/-! ## A detection (R181, R182) -/

/-- What a detection does under either policy: REFILL_SEEN is set, MARK(REFILL) asked for, the sensors' items stay. -/
structure Detected (s t : State) (i : SlotId) : Prop where
  seen : RefillSeen s t i
  marked : RefillMarked s t i
  items : t.sense.slots = s.sense.slots

/-- R181: the quality REFILLED that a detection under WARN leaves. -/
def SlotRecord.detected (r : SlotRecord) : SlotRecord :=
  { r with quality := if r.quality = some .genuine then some .refilled else r.quality }

/-- The VERDICT of an in-service detection (R181, R182). -/
def detectionNotice (i : SlotId) (serial : Word64) (outcome : VerdictOutcome) (sensed expected : Nat)
    (policy : RefillPolicy) : Notice :=
  .verdict i ⟨serial, .inService, outcome, some ⟨false, false, true⟩, some ⟨sensed, expected⟩, false, some policy, none⟩

theorem State.detection_warn (s : State) (i : SlotId) (sensed expected : Nat) :
    Detected s (s.detection i sensed expected .warn) i ∧
      (s.detection i sensed expected .warn).channels = s.channels ∧
      (s.detection i sensed expected .warn).slots = s.slots.set i.val (s.slot i).detected i.isLt ∧
      LastRaised s.notices (s.detection i sensed expected .warn).notices
        (detectionNotice i (s.slot i).serial .refilled sensed expected .warn) := by
  let v := s.updSlot i SlotRecord.detected
  let w := v.setRefillSeen i
  let x := w.requestMark i .refill
  obtain ⟨sameSlots, sameChannels, sameBus, sameSense⟩ := v.setRefillSeen_only i
  have kept : RecordsKept w x := .requestMark (.refl w) i .refill
  have slots : x.slots = v.slots := kept.slots.trans sameSlots
  have description : (v.slot i).description = (s.slot i).description := by rw [State.updSlot_slot_same]; rfl
  have bus : w.bus = s.bus := sameBus
  have seen : RefillSeen s w i := (v.setRefillSeen_seen i).earlier description rfl
  have marked : RefillMarked s x i := by
    refine (w.requestMark_refillMarked i).earlier ?_ bus
    rw [State.slot, sameSlots]
    exact description
  have serial : (v.slot i).serial = (s.slot i).serial := by rw [SlotRecord.serial, description]; rfl
  refine ⟨⟨seen.later kept.history, marked, ?_⟩, ?_, slots, ?_⟩
  · exact (MarksStay.requestMark w i .refill).items.trans (congrArg LevelSense.slots sameSense)
  · exact kept.channels.trans sameChannels
  · have raises : Raises s.notices x.notices :=
      ((((Undisturbed.refl s).updSlot i SlotRecord.detected).setRefillSeen i).requestMark i .refill).notices
    have verdict : (Notice.verdict i (x.serviceVerdict i sensed expected .refilled .warn)) =
        detectionNotice i (s.slot i).serial .refilled sensed expected .warn := by
      rw [State.serviceVerdict, State.slot, slots]
      rw [← serial]
      rfl
    rw [← verdict]
    exact .of_raises raises

/-- R182: the record that a detection under REJECT leaves. -/
def SlotRecord.refillRejected (r : SlotRecord) : SlotRecord :=
  { r with state := .rejected, rejectReason := some .refillRejected }

theorem State.detection_reject (channel : (s.slot i).channel = some c) (sensed expected : Nat) :
    Detected s (s.detection i sensed expected .reject) i ∧
      (s.detection i sensed expected .reject).slot i = (s.slot i).refillRejected ∧
      ((s.channel c).serving = some i → i ∈ (s.channel c).pairSlots →
        FailedOver s (s.detection i sensed expected .reject) c i .rejected (s.channel c).reservations) ∧
      LastRaised s.notices (s.detection i sensed expected .reject).notices
        (detectionNotice i (s.slot i).serial .refillRejected sensed expected .reject) := by
  let v := s.requestMark i .refill
  let w := v.setRefillSeen i
  let x := w.rejectSlot i .refillRejected
  let y := x.slotLeft i .rejected
  have kept : RecordsKept s v := .requestMark (.refl s) i .refill
  obtain ⟨sameSlots, sameChannels, sameBus, sameSense⟩ := v.setRefillSeen_only i
  have slots : w.slots = s.slots := sameSlots.trans kept.slots
  have channels : w.channels = s.channels := sameChannels.trans kept.channels
  obtain ⟨own, only⟩ := w.rejectSlot_named i .refillRejected
  have rejected : x.slot i = (s.slot i).refillRejected := by
    rw [own, State.slot, slots]
    rfl
  have notReady : (x.slot i).state ≠ .ready := by rw [rejected]; exact nofun
  have left : y.slot i = (s.slot i).refillRejected := (x.slotLeft_own notReady).trans rejected
  have description : (v.slot i).description = (s.slot i).description := by rw [State.slot, kept.slots]; rfl
  have seen : RefillSeen s w i := (v.setRefillSeen_seen i).earlier description kept.history
  have history : y.history = w.history :=
    (AccountsKept.slotLeft (.refl x) i .rejected).history.trans (AccountsKept.rejectSlot (.refl w) i .refillRejected).history
  have reject : MarksStay w y := (MarksStay.rejectSlot w i _).trans (.slotLeft _ i _)
  have stays : MarksStay v y :=
    (MarksStay.of_eq (congrArg Bus.lanes sameBus) sameSense).trans reject
  have before : Undisturbed s x :=
    (((Undisturbed.refl s).requestMark i .refill).setRefillSeen i).rejectSlot i .refillRejected
  have raised : MarksStay y (s.detection i sensed expected .reject) := .of_eq rfl rfl
  refine ⟨⟨seen.later history, (s.requestMark_refillMarked i).later (stays.trans raised), ?_⟩, left, fun serving inPair => ?_, ?_⟩
  · exact stays.items.trans (MarksStay.requestMark s i .refill).items
  · have channelSame : x.channel c = s.channel c := by
      rw [State.channel, only.channels, channels]
      rfl
    have channelOf : (x.slot i).channel = some c := by rw [rejected]; exact channel
    obtain ⟨fails, _⟩ := State.slotLeft_failsOver (reason := .rejected) channelOf
      (by rw [channelSame]; exact serving) (by rw [channelSame]; exact inPair) notReady
    rw [channelSame] at fails
    have others : ∀ k, k ≠ i → x.slot k = s.slot k := fun k other => by
      rw [only.others k other, State.slot, slots]
      rfl
    exact (fails.earlier channelSame others before.notices).later rfl rfl (.raise _ .refl)
  · have verdict : (Notice.verdict i (y.serviceVerdict i sensed expected .refillRejected .reject)) =
        detectionNotice i (s.slot i).serial .refillRejected sensed expected .reject := by
      rw [State.serviceVerdict, left]
      rfl
    rw [← verdict]
    exact .of_raises (before.slotLeft i .rejected).notices

/-! ## The window check (R167 to R169) -/

theorem State.windowCheck_none
    (excused : (s.slot i).state.isAdmitted = false ∨ (s.slot i).channel = none ∨ (s.slotSense i).ring.length ≠ 4 ∨
      (s.slot i).sensorFault = true ∨ s.sense.reference ≠ .good ∨ s.sense.scan = .halted) :
    s.windowCheck i = s := by
  have unchecked : s.checkable i = none := by
    unfold State.checkable
    split
    case h_1 d l channel sensed =>
      have full : (s.slotSense i).ring.length = 4 := by
        rw [sensedLevel] at sensed
        split at sensed
        case isTrue full => exact full
        case isFalse => cases sensed
      refine if_neg ?_
      rintro ⟨running, admitted, clear, good⟩
      obtain h | h | h | h | h | h := excused
      · rw [h] at admitted; cases admitted
      · rw [h] at channel; cases channel
      · exact h full
      · rw [h] at clear; cases clear
      · exact h good
      · exact running h
    case h_2 => rfl
  rw [State.windowCheck, unchecked]

/-- The deficit count, LEVEL_DISAGREE and its notice after the deficit side (R168). -/
def SlotRecord.disagreed (r : SlotRecord) (low : Bool) (deficit persistence : Nat) : SlotRecord :=
  { r with levelDisagree := low && (r.levelDisagree || decide (deficit = persistence)) }

theorem State.deficitCheck_sampled (s : State) (i : SlotId) (c : ChannelId) (sensed : Nat) {low : Bool} {deficit : Nat}
    (hlow : low = readsLow sensed (s.slot i).perMille (s.channel c).settings.deficitTolerance)
    (hdeficit : deficit = deficitAfter low (s.channel c).settings.persistence (s.slotSense i).deficit) :
    s.deficitCheck i c sensed =
      s.sampled i ((s.slot i).disagreed low deficit (s.channel c).settings.persistence)
        { s.slotSense i with deficit := deficit }
        (if low = true ∧ deficit = (s.channel c).settings.persistence ∧ (s.slot i).levelDisagree = false then
          s.notices.raise (.levelDisagree i c sensed (s.slot i).perMille (s.channel c).settings.deficitTolerance)
        else s.notices) := by
  unfold State.deficitCheck
  dsimp only
  rw [← hlow, State.updSlotSense_sampled, ← hdeficit, State.sampled_slotSense, State.sampled_slot]
  cases low with
  | false =>
    rw [if_neg Bool.false_ne_true, if_neg (by simp), State.updSlot_sampled, State.sampled_sampled, State.sampled_slot,
      State.sampled_slotSense]
    rfl
  | true =>
    rw [if_pos rfl]
    by_cases now : deficit = (s.channel c).settings.persistence ∧ (s.slot i).levelDisagree = false
    · rw [if_pos now, if_pos ⟨rfl, now⟩, State.updSlot_sampled, State.sampled_sampled, State.sampled_slot,
        State.sampled_slotSense, State.raise_sampled _ i, State.sampled_sampled, State.sampled_slot,
        State.sampled_slotSense, SlotRecord.disagreed, decide_eq_true now.1, Bool.or_true]
      rfl
    · have stays : (s.slot i).disagreed true deficit (s.channel c).settings.persistence = s.slot i := by
        rw [SlotRecord.disagreed, Bool.true_and]
        cases was : (s.slot i).levelDisagree with
        | true => rw [Bool.true_or, ← was]
        | false => rw [Bool.false_or, decide_eq_false fun h => now ⟨h, was⟩, ← was]
      rw [if_neg now, if_neg fun h => now h.2, stays]

theorem State.riseCheck_eq (s : State) (i : SlotId) (c : ChannelId) (sensed : Nat) {high : Bool} {rise : Nat}
    (hhigh : high = readsHigh sensed (s.slot i).perMille (s.channel c).settings.refillTolerance)
    (hrise : rise = riseAfter high (s.slotSense i).rise) :
    s.riseCheck i c sensed =
      if high && (s.channel c).settings.persistence ≤ rise then
        (s.updSlotSense i fun q => { q with rise := 0 }).detection i sensed (s.slot i).perMille
          (s.channel c).settings.refillPolicy
      else s.updSlotSense i fun q => { q with rise := rise } := by
  unfold State.riseCheck
  dsimp only
  rw [← hhigh, ← hrise]

/-- The state when the rise side of a check is entered, with the ring of the sample and the deficit side done. -/
def State.checkedLow (s : State) (i : SlotId) (c : ChannelId) (sensed : Nat) (low : Bool) (deficit rise : Nat) : State :=
  s.sampled i ({ s.slot i with senseUnchecked := false }.disagreed low deficit (s.channel c).settings.persistence)
    { s.slotSense i with deficit := deficit, rise := rise }
    (if low = true ∧ deficit = (s.channel c).settings.persistence ∧ (s.slot i).levelDisagree = false then
      s.notices.raise (.levelDisagree i c sensed (s.slot i).perMille (s.channel c).settings.deficitTolerance)
    else s.notices)

theorem State.windowCheck_some {sensed expected deficit rise : Nat} {low high : Bool}
    (admitted : (s.slot i).state.isAdmitted = true) (channel : (s.slot i).channel = some c)
    (full : (s.slotSense i).ring.length = 4) (clear : (s.slot i).sensorFault = false)
    (reference : s.sense.reference = .good) (running : s.sense.scan ≠ .halted)
    (hsensed : sensed = (s.slotSense i).ring.sum / 4) (hexpected : expected = (s.slot i).perMille)
    (hlow : low = decide (sensed + (s.channel c).settings.deficitTolerance < expected))
    (hhigh : high = decide (expected + (s.channel c).settings.refillTolerance < sensed))
    (hdeficit : deficit = if low then min (s.channel c).settings.persistence ((s.slotSense i).deficit + 1) else 0)
    (hrise : rise = if high then (s.slotSense i).rise + 1 else 0) :
    s.windowCheck i =
      if high && (s.channel c).settings.persistence ≤ rise then
        (s.checkedLow i c sensed low deficit 0).detection i sensed expected (s.channel c).settings.refillPolicy
      else s.checkedLow i c sensed low deficit rise := by
  have level : sensedLevel (s.slotSense i).ring = some sensed := by
    rw [hsensed]
    exact if_pos full
  have checked : s.checkable i = some (c, sensed) := by
    unfold State.checkable
    rw [channel, level]
    exact if_pos ⟨running, admitted, clear, reference⟩
  have entered : (s.updSlot i fun r => { r with senseUnchecked := false }) =
      s.sampled i { s.slot i with senseUnchecked := false } (s.slotSense i) s.notices := s.updSlot_sampled i _
  rw [State.windowCheck, checked]
  dsimp only
  rw [entered]
  generalize hv : s.sampled i { s.slot i with senseUnchecked := false } (s.slotSense i) s.notices = v
  have own : v.slot i = { s.slot i with senseUnchecked := false } := by rw [← hv, State.sampled_slot]
  have items : v.slotSense i = s.slotSense i := by rw [← hv, State.sampled_slotSense]
  have same : v.channel c = s.channel c := by rw [← hv]; rfl
  have perMille : (v.slot i).perMille = expected := by rw [own, hexpected]; rfl
  have notices : v.notices = s.notices := by rw [← hv]; rfl
  rw [State.deficitCheck_sampled v i c sensed (low := low) (deficit := deficit)
    (by rw [perMille, same]; exact hlow) (by rw [items, same]; exact hdeficit)]
  generalize hw : v.sampled i ((v.slot i).disagreed low deficit (v.channel c).settings.persistence)
    { v.slotSense i with deficit := deficit } _ = w
  have done : ∀ r, w.updSlotSense i (fun q => { q with rise := r }) = s.checkedLow i c sensed low deficit r := fun r => by
    rw [← hw, State.updSlotSense_sampled, State.sampled_sampled, State.sampled_slot, State.sampled_slotSense, items, same,
      own, notices, ← hv, State.sampled_sampled]
    rfl
  have settings : w.channel c = s.channel c := by rw [← hw]; exact same
  have perMille' : (w.slot i).perMille = expected := by rw [← hw, State.sampled_slot]; exact perMille
  have count : (w.slotSense i).rise = (s.slotSense i).rise := by
    rw [← hw, State.sampled_slotSense, items]
  rw [State.riseCheck_eq w i c sensed (high := high) (rise := rise) (by rw [perMille', settings]; exact hhigh)
    (by rw [count]; exact hrise), done, done, perMille', settings]

end

end Sys2Proof.Machine

/-! PROOF. A completed conversion that is no run's: what frees the converter, the reference, and a regular sample (R154,
R164 to R169, R181, R182; O54). -/

namespace Sys2Proof.Machine

section
variable {s t u v : State} {i k : SlotId} {ch : ChannelId} {raw : Nat} {c : Conversion} {sample : Option Nat}

/-! ## What a sample leaves -/

theorem SampleTaken.items (h : SampleTaken s v i raw c sample) :
    v.slotSense i = { s.slotSense i with goodRun := (v.slotSense i).goodRun } := by
  obtain ⟨only, _, _⟩ := h
  generalize (v.slotSense i).goodRun = run at only ⊢
  generalize (v.slot i).sensorFault = fault at only
  generalize v.notices = notices at only
  subst only
  exact Vector.getElem_set_self _

theorem SampleTaken.record (h : SampleTaken s v i raw c sample) :
    v.slot i = { s.slot i with sensorFault := (v.slot i).sensorFault } := by
  obtain ⟨only, _, _⟩ := h
  generalize (v.slotSense i).goodRun = run at only
  generalize (v.slot i).sensorFault = fault at only ⊢
  generalize v.notices = notices at only
  subst only
  exact Vector.getElem_set_self _

/-- What a sample leaves as it is. -/
structure SampleRest (s v : State) (i : SlotId) : Prop where
  others : ∀ k, k ≠ i → v.slot k = s.slot k
  slots : ∀ r, v.slots.set i.val r i.isLt = s.slots.set i.val r i.isLt
  channels : v.channels = s.channels
  bus : v.bus = s.bus
  commits : v.commits = s.commits
  history : v.history = s.history
  freeDraws : v.freeDraws = s.freeDraws
  reference : v.sense.reference = s.sense.reference
  scan : v.sense.scan = s.sense.scan
  run : v.sense.run = s.sense.run

theorem SampleTaken.rest (h : SampleTaken s v i raw c sample) : SampleRest s v i := by
  obtain ⟨only, _, _⟩ := h
  generalize (v.slotSense i).goodRun = run at only
  generalize (v.slot i).sensorFault = fault at only
  generalize v.notices = notices at only
  subst only
  exact
    { others := fun k other => Vector.getElem_set_ne i.isLt k.isLt fun same => other (Fin.ext same.symm)
      slots := fun r => Vector.set_set ..
      channels := rfl
      bus := rfl
      commits := rfl
      history := rfl
      freeDraws := rfl
      reference := rfl
      scan := rfl
      run := rfl }

/-! ## The command and its cases (R154) -/

theorem State.conversionComplete_none (free : s.sense.conversion = none) :
    exec (.conversionComplete raw) s = .next s := by
  change execConversionComplete raw s = .next s
  rw [execConversionComplete, free]

theorem State.conversionComplete_some (converting : s.sense.conversion = some c) :
    exec (.conversionComplete raw) s = .next (s.conversionDone c raw).settle := by
  change execConversionComplete raw s = _
  rw [execConversionComplete, converting]

theorem State.conversionDone_discarded (discarded : c.discarded = true) :
    s.conversionDone c raw = s.converterFreed := by
  rw [State.conversionDone]
  exact if_pos discarded

theorem State.conversionDone_reference (kept : c.discarded = false) (source : c.source = .reference) :
    s.conversionDone c raw = s.converterFreed.referenceSample raw := by
  unfold State.conversionDone
  dsimp only
  rw [if_neg (by rw [kept]; exact Bool.false_ne_true), source]
  rfl

theorem State.conversionDone_run (kept : c.discarded = false) (source : c.source = .slot i) (ofRun : c.ofRun = true)
    (taken : s.converterFreed.takeSample i raw c.offset c.gain = (v, sample)) :
    s.conversionDone c raw = v.runSample i sample := by
  unfold State.conversionDone
  dsimp only
  rw [if_neg (by rw [kept]; exact Bool.false_ne_true), source]
  dsimp only
  change State.takeSample (s.updSense fun u => { u with conversion := none }) i raw c.offset c.gain = (v, sample) at taken
  rw [taken]
  exact if_pos ofRun

theorem State.conversionDone_faulted (kept : c.discarded = false) (source : c.source = .slot i) (ofRun : c.ofRun = false)
    (taken : s.converterFreed.takeSample i raw c.offset c.gain = (v, none)) : s.conversionDone c raw = v := by
  unfold State.conversionDone
  dsimp only
  rw [if_neg (by rw [kept]; exact Bool.false_ne_true), source]
  dsimp only
  change State.takeSample (s.updSense fun u => { u with conversion := none }) i raw c.offset c.gain = (v, none) at taken
  rw [taken]
  exact if_neg (by rw [ofRun]; exact Bool.false_ne_true)

theorem State.conversionDone_regular {level : Nat} {ring : List Nat} (kept : c.discarded = false)
    (source : c.source = .slot i) (ofRun : c.ofRun = false)
    (taken : s.converterFreed.takeSample i raw c.offset c.gain = (v, some level))
    (hring : ring = pushRing (v.slotSense i).ring level) :
    s.conversionDone c raw = (v.withSlotSense i { v.slotSense i with ring := ring }).windowCheck i := by
  subst hring
  unfold State.conversionDone
  dsimp only
  rw [if_neg (by rw [kept]; exact Bool.false_ne_true), source]
  dsimp only
  change State.takeSample (s.updSense fun u => { u with conversion := none }) i raw c.offset c.gain = (v, some level)
    at taken
  rw [taken]
  exact if_neg (by rw [ofRun]; exact Bool.false_ne_true)

/-! ## The reference (R164) -/

theorem referenceGood_iff (raw : Nat) : referenceGood raw = true ↔ 1900 ≤ raw ∧ raw ≤ 2200 := by
  simp [referenceGood]

/-- The state with the reference's code and state taken. -/
def State.referenceTaken (s : State) (raw : Nat) (reference : ReferenceState) : State :=
  { s with sense := { s.sense with conversion := none, reference := reference, lastReference := some raw } }

theorem State.referenceSample_good (good : 1900 ≤ raw ∧ raw ≤ 2200) :
    s.converterFreed.referenceSample raw = s.referenceTaken raw .good := by
  unfold State.referenceSample
  dsimp only
  rw [if_pos ((referenceGood_iff raw).2 good), if_neg fun h => nomatch h.1]
  rfl

theorem State.referenceSample_bad (bad : raw < 1900 ∨ 2200 < raw) :
    s.converterFreed.referenceSample raw =
      if s.sense.reference = .bad then s.referenceTaken raw .bad
      else (s.referenceTaken raw .bad).raise (.sensorFault none raw) := by
  have notGood : ¬referenceGood raw = true := fun good => by
    have range := (referenceGood_iff raw).1 good
    omega
  unfold State.referenceSample
  dsimp only
  rw [if_neg notGood]
  by_cases was : s.sense.reference = .bad
  · rw [if_pos was, if_neg fun h => h.2 was]
    rfl
  · rw [if_neg was, if_pos ⟨rfl, was⟩]
    rfl

/-! ## A regular sample (R165, R167 to R169) -/

theorem State.sampled_withSlotSense (s : State) (i : SlotId) (r : SlotRecord) (q q' : SlotSense) (n : NoticeUnit) :
    (s.withSlotSense i q').sampled i r q n = s.sampled i r q n := by
  simp only [State.sampled, State.withSlot, State.withSlotSense, Vector.set_set]

theorem State.withSlotSense_slotSense (s : State) (i : SlotId) (q : SlotSense) :
    (s.withSlotSense i q).slotSense i = q :=
  Vector.getElem_set_self _

/-- R167: when no check is made, the sample joins the ring and nothing else happens. -/
theorem SampleTaken.unchecked {ring : List Nat} (h : SampleTaken s v i raw c sample)
    (excused : (s.slot i).state.isAdmitted = false ∨ (s.slot i).channel = none ∨ ring.length ≠ 4 ∨
      (v.slot i).sensorFault = true ∨ s.sense.reference ≠ .good ∨ s.sense.scan = .halted) :
    (v.withSlotSense i { v.slotSense i with ring := ring }).windowCheck i =
      v.withSlotSense i { v.slotSense i with ring := ring } := by
  have rest := h.rest
  have state : (v.slot i).state = (s.slot i).state := by rw [h.record]
  have channel : (v.slot i).channel = (s.slot i).channel := by rw [h.record]
  refine State.windowCheck_none ?_
  rw [State.withSlotSense_slotSense]
  rw [← state, ← channel, ← rest.reference, ← rest.scan] at excused
  exact excused

/-- A check that is made, of the sensed level against the expected one. -/
structure Checked (s v : State) (i : SlotId) (ch : ChannelId) (ring : List Nat) (sensed expected : Nat) : Prop where
  admitted : (s.slot i).state.isAdmitted = true
  channel : (s.slot i).channel = some ch
  full : ring.length = 4
  clear : (v.slot i).sensorFault = false
  reference : s.sense.reference = .good
  running : s.sense.scan ≠ .halted
  sensed : sensed = ring.sum / 4
  expected : expected = (s.slot i).remaining * 1000 / (s.slot i).nominal

/-- What a check reads: the two sides, and the counts after it. -/
structure Readings (s : State) (i : SlotId) (settings : ChannelSettings) (sensed expected : Nat) (low high : Bool)
    (deficit rise : Nat) : Prop where
  lowSide : low = decide (sensed + settings.deficitTolerance < expected)
  highSide : high = decide (expected + settings.refillTolerance < sensed)
  deficits : deficit = if low then min settings.persistence ((s.slotSense i).deficit + 1) else 0
  rises : rise = if high then (s.slotSense i).rise + 1 else 0

theorem SampleTaken.checked {ring : List Nat} {sensed expected deficit rise : Nat} {low high : Bool}
    (h : SampleTaken s v i raw c sample) (check : Checked s v i ch ring sensed expected)
    (read : Readings s i (s.channel ch).settings sensed expected low high deficit rise) :
    (v.withSlotSense i { v.slotSense i with ring := ring }).windowCheck i =
      if high && (s.channel ch).settings.persistence ≤ rise then
        ((v.withSlotSense i { v.slotSense i with ring := ring }).checkedLow i ch sensed low deficit 0).detection i sensed
          expected (s.channel ch).settings.refillPolicy
      else (v.withSlotSense i { v.slotSense i with ring := ring }).checkedLow i ch sensed low deficit rise := by
  have rest := h.rest
  generalize hw : v.withSlotSense i { v.slotSense i with ring := ring } = w
  have own : w.slotSense i = { v.slotSense i with ring := ring } := by rw [← hw, State.withSlotSense_slotSense]
  have record : w.slot i = v.slot i := by rw [← hw]; rfl
  have channels : w.channel ch = s.channel ch := by rw [← hw]; exact congrArg (fun l => l[ch.val]) rest.channels
  have deficits : (w.slotSense i).deficit = (s.slotSense i).deficit := by rw [own, h.items]
  have rises : (w.slotSense i).rise = (s.slotSense i).rise := by rw [own, h.items]
  rw [← channels] at read ⊢
  refine State.windowCheck_some ?_ ?_ ?_ ?_ ?_ ?_ ?_ ?_ read.lowSide read.highSide ?_ ?_
  · rw [record, h.record]
    exact check.admitted
  · rw [record, h.record]
    exact check.channel
  · rw [own]
    exact check.full
  · rw [record]
    exact check.clear
  · rw [← hw]
    exact rest.reference.trans check.reference
  · rw [← hw]
    exact fun halted => check.running (rest.scan.symm.trans halted)
  · rw [own]
    exact check.sensed
  · rw [record, h.record]
    exact check.expected
  · rw [deficits]
    exact read.deficits
  · rw [rises]
    exact read.rises

/-- A check without a detection (R168, R169). -/
theorem SampleTaken.counted {ring : List Nat} {sensed expected deficit rise : Nat} {low high : Bool}
    (h : SampleTaken s v i raw c sample) (check : Checked s v i ch ring sensed expected)
    (read : Readings s i (s.channel ch).settings sensed expected low high deficit rise)
    (quiet : high = false ∨ rise < (s.channel ch).settings.persistence) :
    (v.withSlotSense i { v.slotSense i with ring := ring }).windowCheck i =
      { (v.withSlotSense i
          { v.slotSense i with ring := ring, deficit := deficit, rise := rise }).withSlot i
          { v.slot i with
            senseUnchecked := false
            levelDisagree := low && ((s.slot i).levelDisagree || deficit = (s.channel ch).settings.persistence) } with
        notices :=
          if low = true ∧ deficit = (s.channel ch).settings.persistence ∧ (s.slot i).levelDisagree = false then
            v.notices.raise (.levelDisagree i ch sensed expected (s.channel ch).settings.deficitTolerance)
          else v.notices } := by
  have undetected : ¬(high && decide ((s.channel ch).settings.persistence ≤ rise)) = true := by
    rw [Bool.and_eq_true, decide_eq_true_eq]
    rintro ⟨isHigh, reached⟩
    obtain notHigh | short := quiet
    · rw [notHigh] at isHigh
      cases isHigh
    · omega
  have channels : (v.withSlotSense i { v.slotSense i with ring := ring }).channel ch = s.channel ch :=
    congrArg (fun l => l[ch.val]) h.rest.channels
  have disagree : (v.slot i).levelDisagree = (s.slot i).levelDisagree := by rw [h.record]
  have perMille : (v.slot i).perMille = expected := by
    rw [h.record, check.expected]
    rfl
  rw [h.checked check read, if_neg undetected, State.checkedLow, State.withSlotSense_slotSense, channels,
    State.sampled_withSlotSense, SlotRecord.disagreed, ← disagree, ← perMille]
  rfl

/-- The record that a detection leaves, but for the policy's part. -/
def SlotRecord.checkedHigh (r : SlotRecord) : SlotRecord :=
  { r with sensorFault := false, senseUnchecked := false, levelDisagree := false }

/-- The state in which a detection is handed over (R169): the check's flags and counts are those of a high level. -/
theorem SampleTaken.detects {ring : List Nat} {sensed expected deficit rise : Nat} {low high : Bool}
    (h : SampleTaken s v i raw c sample) (check : Checked s v i ch ring sensed expected)
    (read : Readings s i (s.channel ch).settings sensed expected low high deficit rise)
    (isHigh : high = true) (reached : (s.channel ch).settings.persistence ≤ rise) :
    (v.withSlotSense i { v.slotSense i with ring := ring }).windowCheck i =
      (v.sampled i (s.slot i).checkedHigh { v.slotSense i with ring := ring, deficit := 0, rise := 0 }
        v.notices).detection i sensed expected (s.channel ch).settings.refillPolicy := by
  have notLow : low = false := by
    have above := read.highSide.symm.trans isHigh
    rw [decide_eq_true_eq] at above
    rw [read.lowSide, decide_eq_false_iff_not]
    omega
  have none : deficit = 0 := by
    rw [read.deficits, notLow]
    exact if_neg Bool.false_ne_true
  have record : (v.slot i).checkedHigh = (s.slot i).checkedHigh := by
    rw [h.record]
    rfl
  have clear : { v.slot i with senseUnchecked := false, levelDisagree := false } = (v.slot i).checkedHigh := by
    rw [SlotRecord.checkedHigh, ← check.clear]
  rw [h.checked check read, if_pos (by rw [isHigh, decide_eq_true reached]; rfl), State.checkedLow,
    State.withSlotSense_slotSense, State.sampled_withSlotSense, SlotRecord.disagreed, notLow, none,
    if_neg (fun low => nomatch low.1), ← record, ← clear]
  rfl

end

end Sys2Proof.Machine

/-! PROOF. An in-service detection after a regular sample (R181, R182), and the end of a run up to its verdict (R159, R166;
O54). -/

namespace Sys2Proof.Machine

section
variable {s t u v : State} {i k : SlotId} {ch : ChannelId} {raw : Nat} {c : Conversion} {sample : Option Nat}

/-! ## The detection (R181, R182) -/

/-- An in-service detection, from before the sample. -/
structure DetectedInService (s u : State) (i : SlotId) (ch : ChannelId) (sensed expected : Nat) (policy : RefillPolicy)
    (q : SlotSense) : Prop where
  seen : RefillSeen s u i
  marked : RefillMarked s u i
  items : u.slotSense i = q
  warn : policy = .warn →
    u.channels = s.channels ∧ u.slots = s.slots.set i.val (s.slot i).checkedHigh.detected i.isLt ∧
      LastRaised s.notices u.notices (detectionNotice i (s.slot i).serial .refilled sensed expected .warn)
  reject : policy = .reject →
    u.slot i = (s.slot i).checkedHigh.refillRejected ∧
      ((s.channel ch).serving = some i → i ∈ (s.channel ch).pairSlots →
        FailedOver s u ch i .rejected (s.channel ch).reservations) ∧
      LastRaised s.notices u.notices (detectionNotice i (s.slot i).serial .refillRejected sensed expected .reject)

theorem SampleTaken.detectedInService (h : SampleTaken s v i raw c sample) (raises : Raises s.notices v.notices)
    (channel : (s.slot i).channel = some ch) (q : SlotSense) (sensed expected : Nat) (policy : RefillPolicy) :
    DetectedInService s ((v.sampled i (s.slot i).checkedHigh q v.notices).detection i sensed expected policy) i ch sensed
      expected policy q := by
  have rest := h.rest
  generalize hx : v.sampled i (s.slot i).checkedHigh q v.notices = x
  have own : x.slot i = (s.slot i).checkedHigh := by rw [← hx, State.sampled_slot]
  have description : (x.slot i).description = (s.slot i).description := by rw [own]; rfl
  have serial : (x.slot i).serial = (s.slot i).serial := by rw [own]; rfl
  have history : x.history = s.history := by rw [← hx]; exact rest.history
  have bus : x.bus = s.bus := by rw [← hx]; exact rest.bus
  have channels : x.channels = s.channels := by rw [← hx]; exact rest.channels
  have notices : Raises s.notices x.notices := by rw [← hx]; exact raises
  have items : x.slotSense i = q := by rw [← hx, State.sampled_slotSense]
  have slots : ∀ r, x.slots.set i.val r i.isLt = s.slots.set i.val r i.isLt := fun r => by
    rw [← rest.slots, ← hx]
    exact Vector.set_set ..
  have others : ∀ k, k ≠ i → x.slot k = s.slot k := fun k other => by
    rw [← rest.others k other, ← hx, State.sampled_slot_other other]
  have same : x.channel ch = s.channel ch := by rw [State.channel, channels]; rfl
  have kept : ∀ {y : State}, Detected x y i → RefillSeen s y i ∧ RefillMarked s y i ∧ y.slotSense i = q := fun d =>
    ⟨d.seen.earlier description history, d.marked.earlier description bus, by rw [State.slotSense, d.items]; exact items⟩
  cases policy with
  | warn =>
    obtain ⟨detected, sameChannels, newSlots, last⟩ := x.detection_warn i sensed expected
    obtain ⟨seen, marked, left⟩ := kept detected
    refine ⟨seen, marked, left, fun _ => ⟨sameChannels.trans channels, ?_, ?_⟩, nofun⟩
    · rw [newSlots, own, slots]
    · rw [← serial]
      exact last.earlier notices
  | reject =>
    have channelOf : (x.slot i).channel = some ch := by rw [own]; exact channel
    obtain ⟨detected, rejected, fails, last⟩ := State.detection_reject channelOf sensed expected
    obtain ⟨seen, marked, left⟩ := kept detected
    refine ⟨seen, marked, left, nofun, fun _ => ⟨?_, fun serving inPair => ?_, ?_⟩⟩
    · rw [rejected, own]
    · rw [same] at fails
      exact (fails serving inPair).earlier same others notices
    · rw [← serial]
      exact last.earlier notices

/-! ## A run's samples (R159, R166) -/

theorem State.runSample_gathers {r : Run} (running : v.sense.run = some r) (few : r.samples.length < 3) :
    v.runSample i sample = { v with sense := { v.sense with
      run := some { r with samples := r.samples ++ [sample] }
      conversion := some ⟨.slot i, true, (v.slotSense i).offset, (v.slotSense i).gain, false⟩ } } := by
  have few' : (r.samples ++ [sample]).length < Config.runSamples := by
    rw [List.length_append, Config.runSamples, List.length_singleton]
    omega
  rw [State.runSample, running]
  exact if_pos few'

theorem State.runSample_ends {r : Run} (running : v.sense.run = some r) (full : r.samples.length = 3) :
    v.runSample i sample = v.endRun { r with samples := r.samples ++ [sample] } := by
  have full' : ¬(r.samples ++ [sample]).length < Config.runSamples := by
    rw [List.length_append, full, List.length_singleton]
    decide
  rw [State.runSample, running]
  exact if_neg full'

/-- The four samples of a run are four good levels. -/
theorem filterMap_levels {samples : List (Option Nat)} {levels : List Nat} (good : samples = levels.map some) :
    samples.filterMap id = levels := by
  rw [good, List.filterMap_map]
  exact List.filterMap_some

/-- A run's samples with a faulted one among them give fewer levels than there are samples. -/
theorem filterMap_length_lt {samples : List (Option Nat)} (faulted : none ∈ samples) :
    (samples.filterMap id).length < samples.length := by
  induction samples with
  | nil => cases faulted
  | cons x xs ih =>
    cases x with
    | none => exact Nat.lt_succ_of_le (List.length_filterMap_le id xs)
    | some level =>
      refine Nat.succ_lt_succ (ih ?_)
      exact (List.mem_cons.1 faulted).resolve_left nofun

theorem faulted_or_good (samples : List (Option Nat)) :
    none ∈ samples ∨ ∃ levels : List Nat, samples = levels.map some := by
  induction samples with
  | nil => exact .inr ⟨[], rfl⟩
  | cons x xs ih =>
    cases x with
    | none => exact .inl List.mem_cons_self
    | some level =>
      obtain faulted | ⟨levels, good⟩ := ih
      · exact .inl (List.mem_cons_of_mem _ faulted)
      · exact .inr ⟨level :: levels, by rw [good]; rfl⟩

/-- The state with a run over, and its slot's items and the free values drawn as given. -/
def State.runOver (v : State) (i : SlotId) (items : SlotSense) (draws : Nat) : State :=
  State.withSlotSense { v with sense := { v.sense with run := none }, freeDraws := draws } i items

/-- R159: the host-senses count of a slot after a run with reason HOST, and what it draws. -/
theorem State.countHostSense_eq (s : State) (i : SlotId) :
    s.countHostSense i =
      { s.withSlotSense i { s.slotSense i with
          hostSenses := if (s.slotSense i).hostSenses < 65535 then (s.slotSense i).hostSenses + 1
            else (Config.hostSensesPastEnd s.freeDraws).toNat } with
        freeDraws := if 65535 ≤ (s.slotSense i).hostSenses then s.freeDraws + 1 else s.freeDraws } := by
  unfold State.countHostSense
  by_cases below : (s.slotSense i).hostSenses < 65535
  · rw [if_pos (show _ < Config.maxU16 from below), if_pos below, if_neg (Nat.not_le.2 below)]
    rfl
  · rw [if_neg (show ¬_ < Config.maxU16 from below), if_neg below, if_pos (Nat.not_lt.1 below)]
    rfl

/-- What four good samples leave of the items of a run's slot. -/
def SlotSense.ranGood (q : SlotSense) (levels : List Nat) (reasons : Reasons) (draws : Nat) : SlotSense :=
  { q with
    ring := levels
    hostSenses :=
      if reasons.host then
        if q.hostSenses < 65535 then q.hostSenses + 1 else (Config.hostSensesPastEnd draws).toNat
      else q.hostSenses
    rise := if reasons.admission then 0 else q.rise
    deficit := if reasons.admission then 0 else q.deficit }

theorem State.runKept_good {r : Run} {levels : List Nat} {q : SlotSense} {draws : Nat} (slot : r.request.slot = i)
    (full : levels.length = 4)
    (hq : q = (v.slotSense i).ranGood levels ⟨false, r.request.reasons.host⟩ v.freeDraws)
    (hdraws : draws = if r.request.reasons.host = true ∧ 65535 ≤ (v.slotSense i).hostSenses then v.freeDraws + 1
      else v.freeDraws) :
    v.runKept r levels = { v.withSlotSense i q with freeDraws := draws } := by
  have ring : (v.updSlotSense i fun u => { u with ring := levels }) =
      v.withSlotSense i { v.slotSense i with ring := levels } := rfl
  unfold State.runKept
  dsimp only
  rw [if_pos (show levels.length = Config.runSamples from full), slot, ring, hq, hdraws]
  cases r.request.reasons.host with
  | false => rw [if_neg Bool.false_ne_true, if_neg fun h => nomatch h.1]; rfl
  | true =>
    rw [if_pos rfl, State.countHostSense_eq, State.withSlotSense_slotSense]
    simp only [State.withSlotSense, Vector.set_set, true_and]
    rfl

theorem State.updSlotSense_runOver (v : State) (i : SlotId) (q : SlotSense) (draws : Nat) (f : SlotSense → SlotSense) :
    (v.runOver i q draws).updSlotSense i f = v.runOver i (f q) draws := by
  have own : (v.runOver i q draws).slotSense i = q := Vector.getElem_set_self _
  have items : (v.sense.slots.set i.val q i.isLt).set i.val (f q) i.isLt = v.sense.slots.set i.val (f q) i.isLt :=
    Vector.set_set ..
  have written : (v.runOver i q draws).updSlotSense i f =
      (v.runOver i q draws).withSlotSense i (f ((v.runOver i q draws).slotSense i)) := rfl
  rw [written, own]
  unfold State.runOver State.withSlotSense
  dsimp only
  rw [items]

theorem State.endRun_good {r : Run} {levels : List Nat} {items : SlotSense} {draws : Nat} (slot : r.request.slot = i)
    (good : r.samples = levels.map some) (four : r.samples.length = 4)
    (hitems : items = (v.slotSense i).ranGood levels r.request.reasons v.freeDraws)
    (hdraws : draws = if r.request.reasons.host = true ∧ 65535 ≤ (v.slotSense i).hostSenses then v.freeDraws + 1
      else v.freeDraws) :
    v.endRun r =
      if r.request.reasons.admission then
        (v.runOver i items draws).admissionResult i (if v.sense.reference = .good then some (levels.sum / 4) else none)
      else v.runOver i items draws := by
  have full : levels.length = 4 := by rw [← four, good, List.length_map]
  have sensed : sensedLevel levels = some (levels.sum / 4) := if_pos full
  generalize hq : (v.slotSense i).ranGood levels ⟨false, r.request.reasons.host⟩ v.freeDraws = q at *
  have kept : (v.updSense fun u => { u with run := none }).runKept r levels = v.runOver i q draws :=
    State.runKept_good slot full hq.symm hdraws
  unfold State.endRun
  dsimp only
  rw [filterMap_levels good, kept, slot]
  cases admission : r.request.reasons.admission with
  | false =>
    have same : items = q := by
      rw [hitems, ← hq, SlotSense.ranGood, admission]
      rfl
    rw [if_neg Bool.false_ne_true, if_neg Bool.false_ne_true, same]
  | true =>
    have cleared : items = { q with rise := 0, deficit := 0 } := by
      rw [hitems, ← hq, SlotSense.ranGood, admission]
      rfl
    rw [if_pos rfl, if_pos rfl, State.runAdmits, if_pos (show levels.length = Config.runSamples from full),
      State.updSlotSense_runOver, ← cleared, sensed]
    rfl

theorem State.endRun_faulted {r : Run} (slot : r.request.slot = i) (faulted : none ∈ r.samples)
    (four : r.samples.length = 4) :
    v.endRun r =
      if r.request.reasons.admission then
        (v.runOver i (v.slotSense i) v.freeDraws).admissionResult i none
      else v.runOver i (v.slotSense i) v.freeDraws := by
  have few : ¬(r.samples.filterMap id).length = Config.runSamples := by
    have fewer := filterMap_length_lt faulted
    rw [Config.runSamples]
    omega
  have ended : (v.updSense fun u => { u with run := none }) = v.runOver i (v.slotSense i) v.freeDraws := by
    have items : v.sense.slots.set i.val (v.slotSense i) i.isLt = v.sense.slots := Vector.set_getElem_self _
    unfold State.runOver State.withSlotSense
    dsimp only
    rw [items]
    rfl
  unfold State.endRun
  dsimp only
  rw [State.runKept, if_neg few, State.runAdmits, if_neg few, slot, ended]

end

end Sys2Proof.Machine

/-! PROOF. The admission of a slot (R4, R19, R128): its record, its commit, and the offer to its channel (O54). -/

namespace Sys2Proof.Machine

section
variable {s t u v : State} {i k : SlotId} {c : ChannelId}

/-! ## A slot that is offered stays READY or SERVING -/

/-- READY or SERVING. -/
def SlotState.supplies (state : SlotState) : Prop := state = .ready ∨ state = .serving

/-- A slot in READY or SERVING stays in one of the two. -/
def StaysOffered (k : SlotId) (s t : State) : Prop := (s.slot k).state.supplies → (t.slot k).state.supplies

theorem StaysOffered.of_slots (slots : t.slots = s.slots) : StaysOffered k s t := by
  intro offered
  rw [State.slot, slots]
  exact offered

theorem StaysOffered.trans (h : StaysOffered k s t) (l : StaysOffered k t u) : StaysOffered k s u :=
  fun offered => l (h offered)

theorem StaysOffered.moveSlot {state : SlotState} (supplies : state.supplies) (s : State) (i : SlotId) :
    StaysOffered k s (s.moveSlot i fun r => { r with state := state }) := by
  intro offered
  rw [State.moveSlot_slot]
  split
  · exact supplies
  · exact offered

theorem HeadTested.staysOffered (h : HeadTested s t c) : StaysOffered k s t := .of_slots h.slots

theorem StaysOffered.toReady (s : State) (i : SlotId) : StaysOffered k s (s.toReady i) :=
  (StaysOffered.moveSlot (.inl rfl) s i).trans (.of_slots (RecordsKept.forcedTrigger (.refl _) i).slots)

theorem StaysOffered.completionTest (s : State) (c : ChannelId) : StaysOffered k s (s.completionTest c) := by
  unfold State.completionTest
  dsimp only
  split
  · next old new _ _ _ =>
    split
    · exact .of_slots rfl
    · have moved := (StaysOffered.toReady (k := k) s old).trans (.moveSlot (.inr rfl) _ new)
      unfold State.completeSwitch
      dsimp only
      refine .trans ?_ (State.headTest_tested _ c).staysOffered
      exact moved.trans (.of_slots rfl)
  · exact .of_slots rfl

theorem StaysOffered.plannedSwitch (s : State) (c : ChannelId) : StaysOffered k s (s.plannedSwitch c) := by
  unfold State.plannedSwitch
  dsimp only
  split
  · refine .trans ?_ (.completionTest _ c)
    exact .of_slots rfl
  · exact .of_slots rfl

theorem StaysOffered.applySplit (s : State) (c : ChannelId) (drewFrom drawsFrom : Option SlotId) :
    StaysOffered k s (s.applySplit c drewFrom drawsFrom) := by
  obtain ⟨only, _, _⟩ := s.applySplit_spec c drewFrom drawsFrom
  exact .of_slots (by rw [only])

theorem StaysOffered.select (s : State) (c : ChannelId) : StaysOffered k s (s.select c) := by
  unfold State.select
  split
  · split
    case h_1 j _ =>
      dsimp only
      refine .trans ?_ (.plannedSwitch _ c)
      refine .trans ?_ (State.headTest_tested _ c).staysOffered
      have served : StaysOffered k s ((s.toServing j).updChannel c fun ch => ch.supplied j) :=
        (StaysOffered.moveSlot (.inr rfl) s j).trans (.of_slots rfl)
      exact (served.trans (.applySplit _ c _ _)).trans (.of_slots rfl)
    case h_2 => exact .of_slots rfl
  · exact .of_slots rfl

theorem StaysOffered.offerReady (s : State) (i : SlotId) : StaysOffered k s (s.offerReady i) := by
  unfold State.offerReady
  split
  · refine .trans ?_ (State.headTest_tested _ _).staysOffered
    exact (StaysOffered.select s _).trans (.plannedSwitch _ _)
  · exact .of_slots rfl

theorem StatesMoved.applySplit (s : State) (c : ChannelId) (drewFrom drawsFrom : Option SlotId) :
    StatesMoved s (s.applySplit c drewFrom drawsFrom) := by
  obtain ⟨only, _, _⟩ := s.applySplit_spec c drewFrom drawsFrom
  exact .of_eq (by rw [only]) (by rw [only])

theorem StatesMoved.select (s : State) (c : ChannelId) : StatesMoved s (s.select c) := by
  unfold State.select
  split
  · split
    case h_1 j _ =>
      dsimp only
      refine .trans ?_ (.plannedSwitch _ c)
      refine .trans ?_ (State.headTest_tested _ c).moved
      have served : StatesMoved s ((s.toServing j).updChannel c fun ch => ch.supplied j) :=
        (StatesMoved.moveSlot s j .serving).trans (.of_eq rfl rfl)
      exact (served.trans (.applySplit _ c _ _)).trans (.of_eq rfl rfl)
    case h_2 => exact .refl s
  · exact .refl s

theorem StatesMoved.offerReady (s : State) (i : SlotId) : StatesMoved s (s.offerReady i) := by
  unfold State.offerReady
  split
  · refine .trans ?_ (State.headTest_tested _ _).moved
    exact (StatesMoved.select s _).trans (.plannedSwitch _ _)
  · exact .refl s

/-! ## The offer of a READY slot (R128, R129) -/

/-- An IDLE channel takes no slot. -/
theorem State.offerReady_idle (channel : (s.slot i).channel = some c) (idle : (s.channel c).state = .idle) :
    (s.offerReady i).slot i = s.slot i := by
  have unselected : s.select c = s := by
    rw [State.select]
    exact if_neg (by rw [idle]; exact nofun)
  have unswitched : s.plannedSwitch c = s := by
    refine State.plannedSwitch_of_none ?_
    cases wanted : s.switchWanted c with
    | none => rfl
    | some j => cases idle.symm.trans (State.switchWanted_supplied wanted)
  rw [State.offerReady, channel]
  dsimp only
  rw [unselected, unswitched, (State.headTest_tested s c).slot]

/-- An UNSUPPLIED channel draws from the slot when no other slot can serve. -/
theorem State.offerReady_draws (channel : (s.slot i).channel = some c) (unsupplied : (s.channel c).state = .unsupplied)
    (inPair : i ∈ (s.channel c).pairSlots) (serves : s.CanServe i) (alone : ∀ j, j ≠ i → ¬s.CanServe j) :
    DrawsFrom (s.offerReady i) c i := by
  obtain ⟨before, after, split, first⟩ := List.eq_append_cons_of_mem inPair
  have choice : s.selectionChoice c = some i :=
    State.selectionChoice_eq split serves fun j member => alone j fun same => first (same ▸ member)
  obtain ⟨v, selects, selected⟩ := State.select_selected unsupplied choice
  have inPair' : i ∈ (v.channel c).pairSlots := by
    rw [Channel.pairSlots, selected.pair]
    exact inPair
  have stays : v.plannedSwitch c = v :=
    State.plannedSwitch_notDue selected.drawn.state selected.drawn.serving inPair' fun j due => by
      have due' := selected.switchDue_iff.1 due
      refine alone j (Ne.symm due'.pair.1) ⟨due'.ready, Nat.pos_of_ne_zero fun empty => ?_⟩
      have above := due'.above
      rw [SlotRecord.perMille, empty, Nat.zero_mul, Nat.zero_div] at above
      exact Nat.not_lt_zero _ above
  rw [State.offerReady, channel]
  dsimp only
  rw [selects, stays, stays]
  exact selected.drawn.tested (State.headTest_tested v c)

end

end Sys2Proof.Machine

/-! PROOF. The admission of a slot and the verdict on its admission run (R19, R179, R180; O54). -/

namespace Sys2Proof.Machine

section
variable {s t u v x : State} {i k : SlotId} {c : ChannelId} {q : Quality}

/-! ## The admission (R4, R19) -/

theorem SlotRecord.admittedState_eq (r : SlotRecord) :
    ((r.remaining = 0 ∨ r.shows .spent = true) → r.admittedState = .spent) ∧
      (0 < r.remaining → r.shows .spent = false → r.admittedState = .ready) := by
  refine ⟨fun empty => if_pos empty, fun positive hidden => if_neg ?_⟩
  rw [hidden]
  exact fun either => either.elim (Nat.ne_of_gt positive) Bool.false_ne_true

/-- A slot of a channel is admitted with a quality. -/
structure Admitted (s u : State) (i : SlotId) (c : ChannelId) (q : Quality) : Prop where
  record : u.slot i = { s.slot i with
    state := (u.slot i).state
    quality := some q
    band := bandOf (s.slot i).remaining (s.slot i).perMille (s.channel c).settings }
  history : u.history = s.history
  stays : MarksStay s u
  spent : ((s.slot i).remaining = 0 ∨ (s.slot i).shows .spent = true) →
    (u.slot i).state = .spent ∧ (0 < (s.slot i).uncommitted → (u.commit i).flight.isSome = true)
  ready : 0 < (s.slot i).remaining → (s.slot i).shows .spent = false →
    ((u.slot i).state = .ready ∨ (u.slot i).state = .serving) ∧
      ((s.channel c).state = .idle → (u.slot i).state = .ready) ∧
      ((s.channel c).state = .unsupplied → i ∈ (s.channel c).pairSlots → (∀ j, j ≠ i → ¬s.CanServe j) →
        DrawsFrom u c i)

/-- The state in which a slot's record is admitted, before the commit, the marks and the offer. -/
def State.recordAdmitted (s : State) (i : SlotId) (q : Quality) : State :=
  s.moveSlot i fun r => { r with state := r.admittedState, quality := some q, band := s.bandNow i }

/-- The commit trigger of an admission, and MARK(SPENT). -/
def State.admissionCommit (s : State) (i : SlotId) : State :=
  if (s.slot i).state = .spent then (s.forcedTrigger i).requestMark i .spent else s.stepTrigger i

/-- MARK(REFILL) of a slot admitted REFILLED. -/
def State.admissionMark (s : State) (i : SlotId) (q : Quality) : State :=
  if q = .refilled then s.requestMark i .refill else s

theorem State.admitSlot_eq (s : State) (i : SlotId) (q : Quality) :
    s.admitSlot i q =
      if ((((s.recordAdmitted i q).admissionCommit i).admissionMark i q).slot i).state = .ready then
        (((s.recordAdmitted i q).admissionCommit i).admissionMark i q).offerReady i
      else ((s.recordAdmitted i q).admissionCommit i).admissionMark i q := rfl

theorem State.admissionCommit_kept (s : State) (i : SlotId) :
    RecordsKept s (s.admissionCommit i) ∧ StatesMoved s (s.admissionCommit i) ∧ MarksStay s (s.admissionCommit i) := by
  unfold State.admissionCommit
  split
  · exact ⟨((RecordsKept.refl s).forcedTrigger i).requestMark i .spent,
      (StatesMoved.forcedTrigger s i).trans (.requestMark _ i .spent),
      (MarksStay.forcedTrigger s i).trans (.requestMark _ i .spent)⟩
  · exact ⟨(RecordsKept.refl s).stepTrigger i, .stepTrigger s i, .stepTrigger s i⟩

theorem State.admissionMark_kept (s : State) (i : SlotId) (q : Quality) :
    RecordsKept s (s.admissionMark i q) ∧ StatesMoved s (s.admissionMark i q) ∧ MarksStay s (s.admissionMark i q) := by
  unfold State.admissionMark
  split
  · exact ⟨(RecordsKept.refl s).requestMark i .refill, .requestMark s i .refill, .requestMark s i .refill⟩
  · exact ⟨.refl s, .refl s, .refl s⟩

/-- A slot that enters SPENT with uncommitted consumption has a commit in flight (R103). -/
theorem State.admissionCommit_flight (spent : (s.slot i).state = .spent) (positive : 0 < (s.slot i).uncommitted) :
    ((s.admissionCommit i).commit i).flight.isSome = true := by
  have acts : s.triggerActs i = true := by
    rw [State.triggerActs, spent, decide_eq_true positive]
    rfl
  rw [State.admissionCommit, if_pos spent, State.forcedTrigger, if_pos acts]
  exact (StatesMoved.requestMark _ i .spent).flights i (s.actTrigger_flight i true).1

theorem State.admitSlot_admitted (channel : (s.slot i).channel = some c) (q : Quality) :
    Admitted s (s.admitSlot i q) i c q := by
  rw [State.admitSlot_eq]
  have band : s.bandNow i = bandOf (s.slot i).remaining (s.slot i).perMille (s.channel c).settings := by
    rw [State.bandNow, channel]
  generalize hw : s.recordAdmitted i q = w
  have own : w.slot i = { s.slot i with
      state := (s.slot i).admittedState
      quality := some q
      band := bandOf (s.slot i).remaining (s.slot i).perMille (s.channel c).settings } := by
    rw [← hw, State.recordAdmitted, State.moveSlot_slot, if_pos rfl, band]
  have others : ∀ j, j ≠ i → w.slot j = s.slot j := fun j other => by
    rw [← hw, State.recordAdmitted, State.moveSlot_slot, if_neg (Ne.symm other)]
  have admits : w.channels = s.channels ∧ w.history = s.history ∧ MarksStay s w := by
    rw [← hw]
    exact ⟨rfl, rfl, .moveSlot s i _⟩
  obtain ⟨channels, history, entered⟩ := admits
  obtain ⟨kept1, moved1, stays1⟩ := w.admissionCommit_kept i
  obtain ⟨kept2, moved2, stays2⟩ := (w.admissionCommit i).admissionMark_kept i q
  have flight : (w.slot i).state = .spent → 0 < (w.slot i).uncommitted →
      (((w.admissionCommit i).admissionMark i q).commit i).flight.isSome = true := fun spent positive =>
    moved2.flights i (State.admissionCommit_flight spent positive)
  have kept : RecordsKept w ((w.admissionCommit i).admissionMark i q) := kept1.trans kept2
  generalize (w.admissionCommit i).admissionMark i q = y at *
  have slots : ∀ j, y.slot j = w.slot j := fun j => by rw [State.slot, kept.slots]; rfl
  have stays : MarksStay s y := (entered.trans stays1).trans stays2
  have channelSame : y.channel c = s.channel c := by rw [State.channel, kept.channels, channels]; rfl
  obtain ⟨toSpent, toReady⟩ := (s.slot i).admittedState_eq
  by_cases ready : (y.slot i).state = .ready
  case neg =>
    rw [if_neg ready]
    refine ⟨by rw [slots, own], kept.history.trans history, stays, fun empty => ?_, fun positive hidden => ?_⟩
    · have spent : (w.slot i).state = .spent := by rw [own]; exact toSpent empty
      refine ⟨by rw [slots]; exact spent, fun positive => flight spent ?_⟩
      rw [own]
      exact positive
    · exact (ready (by rw [slots, own]; exact toReady positive hidden)).elim
  case pos =>
    rw [if_pos ready]
    have moved := (StatesMoved.offerReady y i).slots i
    have account := AccountsKept.offerReady (.refl y) i
    have ownChannel : (y.slot i).channel = some c := by rw [slots, own]; exact channel
    refine ⟨?_, account.history.trans (kept.history.trans history), stays.trans (.offerReady y i), fun empty => ?_,
      fun positive hidden => ⟨StaysOffered.offerReady y i (.inl ready), fun idle => ?_, fun unsupplied inPair alone => ?_⟩⟩
    · rw [moved, slots, own]
    · have spent : (y.slot i).state = .spent := by rw [slots, own]; exact toSpent empty
      cases ready.symm.trans spent
    · rw [State.offerReady_idle ownChannel (by rw [channelSame]; exact idle)]
      exact ready
    · refine State.offerReady_draws ownChannel (by rw [channelSame]; exact unsupplied) (by rw [channelSame]; exact inPair)
        ⟨ready, ?_⟩ fun j other serves => alone j other ?_
      · rw [slots, own]
        exact positive
      · rw [State.CanServe, slots, others j other] at serves
        exact serves

end

end Sys2Proof.Machine

/-! PROOF. The verdict on an admission run (R179, R180) and the conversions' obligation (O54). -/

namespace Sys2Proof.Machine

section
variable {s t u v x y : State} {i k : SlotId} {ch : ChannelId} {raw : Nat} {c : Conversion} {sample sensed : Option Nat}
  {unchecked : Bool} {items : SlotSense} {tests : TestsHeld}

/-! ## The verdict (R179, R180) -/

/-- The state with the absence of a sensed level noted in the record. -/
def State.sensedNoted (s : State) (i : SlotId) (sensed : Option Nat) : State :=
  if sensed.isNone then s.updSlot i fun r => { r with senseUnchecked := true } else s

theorem State.admissionResult_genuine {settings : ChannelSettings} (sensing : (s.slot i).state = .sensing)
    (channel : (s.slot i).channel = some ch) (hsettings : settings = (s.channel ch).settings)
    (htests : (s.sensedNoted i sensed).refillTests i sensed settings.refillTolerance = tests) (pass : tests.any = false) :
    s.admissionResult i sensed =
      ((s.sensedNoted i sensed).admitSlot i .genuine).raise
        (.verdict i ((s.sensedNoted i sensed).admissionVerdict i sensed .genuine tests settings.refillPolicy)) := by
  subst htests hsettings
  unfold State.admissionResult
  rw [sensing, channel]
  exact if_neg (by rw [← Bool.not_eq_true] at pass; exact pass)

theorem State.admissionResult_warn {settings : ChannelSettings} (sensing : (s.slot i).state = .sensing)
    (channel : (s.slot i).channel = some ch) (hsettings : settings = (s.channel ch).settings)
    (htests : (s.sensedNoted i sensed).refillTests i sensed settings.refillTolerance = tests) (any : tests.any = true)
    (policy : settings.refillPolicy = .warn) :
    s.admissionResult i sensed =
      (((s.sensedNoted i sensed).setRefillSeen i).admitSlot i .refilled).raise
        (.verdict i ((s.sensedNoted i sensed).admissionVerdict i sensed .refilled tests .warn)) := by
  subst htests hsettings
  unfold State.admissionResult
  rw [sensing, channel]
  refine (if_pos any).trans ?_
  rw [policy]
  rfl

theorem State.admissionResult_reject {settings : ChannelSettings} (sensing : (s.slot i).state = .sensing)
    (channel : (s.slot i).channel = some ch) (hsettings : settings = (s.channel ch).settings)
    (htests : (s.sensedNoted i sensed).refillTests i sensed settings.refillTolerance = tests) (any : tests.any = true)
    (policy : settings.refillPolicy = .reject) :
    s.admissionResult i sensed =
      ((((s.sensedNoted i sensed).setRefillSeen i).requestMark i .refill).rejectSlot i .refillRejected).raise
        (.verdict i ((s.sensedNoted i sensed).admissionVerdict i sensed .refillRejected tests .reject)) := by
  subst htests hsettings
  unfold State.admissionResult
  rw [sensing, channel]
  refine (if_pos any).trans ?_
  rw [policy]
  rfl

/-- The state a verdict acts on, from before the sample: the record's flags, the items of the sensor and the notices
can differ. -/
structure VerdictBase (s x : State) (i : SlotId) (unchecked : Bool) (items : SlotSense) : Prop where
  record : x.slot i = { s.slot i with
    sensorFault := (x.slot i).sensorFault
    senseUnchecked := unchecked || (s.slot i).senseUnchecked }
  others : ∀ k, k ≠ i → x.slot k = s.slot k
  channels : x.channels = s.channels
  bus : x.bus = s.bus
  sensor : x.slotSense i = items
  run : x.sense.run = none
  raises : Raises s.notices x.notices

theorem VerdictBase.description (h : VerdictBase s x i unchecked items) :
    (x.slot i).description = (s.slot i).description := by rw [h.record]

theorem VerdictBase.channel (h : VerdictBase s x i unchecked items) (ch : ChannelId) : x.channel ch = s.channel ch := by
  rw [State.channel, h.channels]
  rfl

theorem VerdictBase.setRefillSeen (h : VerdictBase s x i unchecked items) :
    VerdictBase s (x.setRefillSeen i) i unchecked items := by
  obtain ⟨slots, channels, bus, sense⟩ := x.setRefillSeen_only i
  have slot : ∀ k, (x.setRefillSeen i).slot k = x.slot k := fun k => by rw [State.slot, slots]; rfl
  exact
    { record := by rw [slot]; exact h.record
      others := fun k other => (slot k).trans (h.others k other)
      channels := channels.trans h.channels
      bus := bus.trans h.bus
      sensor := by rw [State.slotSense, sense]; exact h.sensor
      run := by rw [sense]; exact h.run
      raises := h.raises.trans ((Undisturbed.refl x).setRefillSeen i).notices }

/-- A sample taken and its run over: what the verdict acts on. -/
theorem SampleTaken.verdictBase (h : SampleTaken s v i raw c sample) (raises : Raises s.notices v.notices)
    (items : SlotSense) (draws : Nat) (sensed : Option Nat) :
    VerdictBase s ((v.runOver i items draws).sensedNoted i sensed) i sensed.isNone items ∧
      ((v.runOver i items draws).sensedNoted i sensed).history = s.history := by
  have rest := h.rest
  have base : VerdictBase s (v.runOver i items draws) i false items :=
    { record := h.record
      others := rest.others
      channels := rest.channels
      bus := rest.bus
      sensor := Vector.getElem_set_self _
      run := rfl
      raises := raises }
  have history : (v.runOver i items draws).history = s.history := rest.history
  generalize v.runOver i items draws = b at base history ⊢
  cases sensed with
  | some level => exact ⟨base, history⟩
  | none =>
    have own : (b.sensedNoted i none).slot i = { b.slot i with senseUnchecked := true } := State.updSlot_slot_same ..
    refine ⟨{ base with record := ?_, others := fun k other => ?_ }, history⟩
    · rw [own, base.record]
      rfl
    · exact (State.updSlot_slot_other _ _ _ _ (Ne.symm other)).trans (base.others k other)

theorem VerdictBase.refillTests (h : VerdictBase s x i unchecked items) (history : x.history = s.history)
    (tolerance : Nat)
    (tagMark : tests.tagMark = true ↔ ∃ d, (s.slot i).description = some d ∧ d.refillMark = true)
    (seen : tests.history = true ↔ ∃ p e, s.entryOf i = some p ∧ s.place p = some e ∧ e.refillSeen = true)
    (level : tests.level = true ↔ ∃ l, sensed = some l ∧ (s.slot i).perMille + tolerance < l) :
    x.refillTests i sensed tolerance = tests := by
  have places : ∀ p, x.place p = s.place p := fun p => by rw [State.place, history]; rfl
  have mark : (x.slot i).shows .refill = tests.tagMark := by
    rw [Bool.eq_iff_iff, tagMark, SlotRecord.shows, h.description]
    cases (s.slot i).description with
    | none => exact ⟨nofun, fun ⟨_, missing, _⟩ => nomatch missing⟩
    | some d => exact ⟨fun shown => ⟨d, rfl, shown⟩, fun ⟨_, same, shown⟩ => Option.some.inj same ▸ shown⟩
  have entry : x.refillSeen i = tests.history := by
    rw [Bool.eq_iff_iff, seen, State.refillSeen_iff, State.entryOf_congr h.description places]
    simp only [places]
  have perMille : (x.slot i).perMille = (s.slot i).perMille := by rw [h.record]; rfl
  obtain ⟨testMark, testSeen, testLevel⟩ := tests
  unfold State.refillTests
  rw [mark, entry, perMille]
  have high : ∀ b : Bool, (b = true ↔ testLevel = true) → (⟨testMark, testSeen, b⟩ : TestsHeld) =
      ⟨testMark, testSeen, testLevel⟩ := fun b same => by rw [Bool.eq_iff_iff.2 same]
  refine high _ (Iff.trans ?_ level.symm)
  cases sensed with
  | none => exact ⟨nofun, fun ⟨_, missing, _⟩ => nomatch missing⟩
  | some l =>
    refine decide_eq_true_iff.trans ⟨fun above => ⟨l, rfl, above⟩, fun ⟨_, same, above⟩ => ?_⟩
    rw [Option.some.inj same]
    exact above

/-- The VERDICT of an admission. -/
def admissionNotice (s : State) (i : SlotId) (sensed : Option Nat) (outcome : VerdictOutcome) (tests : Option TestsHeld)
    (policy : RefillPolicy) : Notice :=
  .verdict i ⟨(s.slot i).serial, .admission, outcome, tests, sensed.map fun l => ⟨l, (s.slot i).perMille⟩, sensed.isNone,
    some policy, none⟩

theorem VerdictBase.notice (h : VerdictBase s x i unchecked items) (outcome : VerdictOutcome) (policy : RefillPolicy) :
    Notice.verdict i (x.admissionVerdict i sensed outcome tests policy) =
      admissionNotice s i sensed outcome (if outcome = .genuine then none else some tests) policy := by
  have serial : (x.slot i).serial = (s.slot i).serial := by rw [h.record]; rfl
  have perMille : (x.slot i).perMille = (s.slot i).perMille := by rw [h.record]; rfl
  rw [State.admissionVerdict, serial, perMille]
  rfl

/-- What any verdict leaves: the run is over, the sensor's items and the account stay. -/
structure VerdictLeaves (s u : State) (i : SlotId) (unchecked : Bool) (items : SlotSense) : Prop where
  run : u.sense.run = none
  sensor : u.slotSense i = items
  committed : (u.slot i).committed = (s.slot i).committed
  uncommitted : (u.slot i).uncommitted = (s.slot i).uncommitted
  senseUnchecked : (u.slot i).senseUnchecked = (unchecked || (s.slot i).senseUnchecked)

theorem VerdictBase.leaves (h : VerdictBase s x i unchecked items) (stays : MarksStay x u)
    (committed : (u.slot i).committed = (x.slot i).committed)
    (uncommitted : (u.slot i).uncommitted = (x.slot i).uncommitted)
    (senseUnchecked : (u.slot i).senseUnchecked = (x.slot i).senseUnchecked) :
    VerdictLeaves s u i unchecked items where
  run := stays.run h.run
  sensor := by rw [State.slotSense, stays.items]; exact h.sensor
  committed := by rw [committed, h.record]
  uncommitted := by rw [uncommitted, h.record]
  senseUnchecked := by rw [senseUnchecked, h.record]

/-- An admission from the verdict's base. -/
structure VerdictAdmits (s u : State) (i : SlotId) (ch : ChannelId) (quality : Quality) : Prop where
  quality : (u.slot i).quality = some quality
  band : (u.slot i).band = bandOf (s.slot i).remaining (s.slot i).perMille (s.channel ch).settings
  spent : ((s.slot i).remaining = 0 ∨ (s.slot i).shows .spent = true) →
    (u.slot i).state = .spent ∧ (0 < (s.slot i).uncommitted → (u.commit i).flight.isSome = true)
  ready : 0 < (s.slot i).remaining → (s.slot i).shows .spent = false →
    ((u.slot i).state = .ready ∨ (u.slot i).state = .serving) ∧
      ((s.channel ch).state = .idle → (u.slot i).state = .ready) ∧
      ((s.channel ch).state = .unsupplied → i ∈ (s.channel ch).pairSlots → (∀ j, j ≠ i → ¬s.CanServe j) →
        DrawsFrom u ch i)

theorem VerdictBase.admits (h : VerdictBase s x i unchecked items) (channel : (s.slot i).channel = some ch)
    (quality : Quality) (n : Notice) :
    VerdictAdmits s ((x.admitSlot i quality).raise n) i ch quality ∧
      VerdictLeaves s ((x.admitSlot i quality).raise n) i unchecked items ∧
      ((x.admitSlot i quality).raise n).history = x.history ∧
      LastRaised s.notices ((x.admitSlot i quality).raise n).notices n := by
  have channelOf : (x.slot i).channel = some ch := by rw [h.record]; exact channel
  have admitted := State.admitSlot_admitted channelOf quality
  have raises : Raises x.notices (x.admitSlot i quality).notices := ((Undisturbed.refl x).admitSlot i quality).notices
  generalize x.admitSlot i quality = w at admitted raises ⊢
  have remaining : (x.slot i).remaining = (s.slot i).remaining := by rw [h.record]; rfl
  have perMille : (x.slot i).perMille = (s.slot i).perMille := by rw [h.record]; rfl
  have shows : (x.slot i).shows .spent = (s.slot i).shows .spent := by rw [SlotRecord.shows, h.description]; rfl
  have uncommitted : (x.slot i).uncommitted = (s.slot i).uncommitted := by rw [h.record]
  obtain ⟨record, history, stays, spent, ready⟩ := admitted
  rw [remaining, perMille, h.channel] at record
  rw [remaining, shows, uncommitted] at spent
  rw [remaining, shows, h.channel] at ready
  have leaves : VerdictLeaves s w i unchecked items := h.leaves stays (by rw [record]) (by rw [record]) (by rw [record])
  refine ⟨⟨?_, ?_, spent, fun positive hidden => ?_⟩, ⟨leaves.run, leaves.sensor, leaves.committed, leaves.uncommitted,
    leaves.senseUnchecked⟩, history, .of_raises (h.raises.trans raises)⟩
  · change (w.slot i).quality = some quality
    rw [record]
  · change (w.slot i).band = _
    rw [record]
  · obtain ⟨offered, idle, draws⟩ := ready positive hidden
    refine ⟨offered, idle, fun unsupplied inPair alone => ?_⟩
    have drawn := draws unsupplied inPair fun j other serves => alone j other (by
      rw [State.CanServe, h.others j other] at serves
      exact serves)
    exact ⟨drawn.state, drawn.serving, drawn.target, drawn.permit, drawn.slot⟩

theorem VerdictBase.rejects (h : VerdictBase s x i unchecked items) (n : Notice) :
    let u := ((x.requestMark i .refill).rejectSlot i .refillRejected).raise n
    (u.slot i).state = .rejected ∧ (u.slot i).rejectReason = some .refillRejected ∧ RefillMarked s u i ∧
      VerdictLeaves s u i unchecked items ∧ u.history = x.history ∧ LastRaised s.notices u.notices n := by
  have kept : RecordsKept x (x.requestMark i .refill) := .requestMark (.refl x) i .refill
  obtain ⟨own, only⟩ := (x.requestMark i .refill).rejectSlot_named i .refillRejected
  have slot : (x.requestMark i .refill).slot i = x.slot i := by rw [State.slot, kept.slots]; rfl
  rw [slot] at own
  have rejectStays := MarksStay.rejectSlot (x.requestMark i .refill) i .refillRejected
  have stays := (MarksStay.requestMark x i .refill).trans rejectStays
  have marked : RefillMarked s ((x.requestMark i .refill).rejectSlot i .refillRejected) i :=
    ((x.requestMark_refillMarked i).later rejectStays).earlier h.description h.bus
  have raises := (((Undisturbed.refl x).requestMark i .refill).rejectSlot i .refillRejected).notices
  have history := only.history.trans kept.history
  generalize (x.requestMark i .refill).rejectSlot i .refillRejected = w at *
  have leaves : VerdictLeaves s w i unchecked items := h.leaves stays (by rw [own]) (by rw [own]) (by rw [own])
  have raised : w.slot i = (w.raise n).slot i := rfl
  refine ⟨?_, ?_, marked, ⟨leaves.run, leaves.sensor, leaves.committed, leaves.uncommitted, leaves.senseUnchecked⟩,
    history, .of_raises (h.raises.trans raises)⟩
  · rw [← raised, own]
  · rw [← raised, own]

/-! ## The end of a run (R159, R166) -/

/-- The end of a run after its fourth sample, with the items and the free values drawn as they come out. -/
theorem SampleTaken.endRun {r : Run} {draws : Nat} (h : SampleTaken s v i raw c sample) (slot : r.request.slot = i)
    (four : r.samples.length = 4)
    (good : ∀ levels : List Nat, r.samples = levels.map some →
      items = { v.slotSense i with
        ring := levels
        hostSenses :=
          if r.request.reasons.host then
            if (s.slotSense i).hostSenses < 65535 then (s.slotSense i).hostSenses + 1
            else (Config.hostSensesPastEnd s.freeDraws).toNat
          else (s.slotSense i).hostSenses
        rise := if r.request.reasons.admission then 0 else (s.slotSense i).rise
        deficit := if r.request.reasons.admission then 0 else (s.slotSense i).deficit } ∧
      draws =
        if r.request.reasons.host = true ∧ 65535 ≤ (s.slotSense i).hostSenses then s.freeDraws + 1 else s.freeDraws)
    (faulted : none ∈ r.samples → items = v.slotSense i ∧ draws = s.freeDraws)
    (valid : r.request.reasons.admission = true → ∀ levels : List Nat, r.samples = levels.map some →
      s.sense.reference = .good → sensed = some (levels.sum / 4))
    (invalid : r.request.reasons.admission = true → none ∈ r.samples ∨ s.sense.reference ≠ .good → sensed = none) :
    v.endRun r =
      if r.request.reasons.admission then (v.runOver i items draws).admissionResult i sensed
      else v.runOver i items draws := by
  have rest := h.rest
  have sameItems : (v.slotSense i).hostSenses = (s.slotSense i).hostSenses ∧ (v.slotSense i).rise = (s.slotSense i).rise ∧
      (v.slotSense i).deficit = (s.slotSense i).deficit := by
    rw [h.items]
    exact ⟨rfl, rfl, rfl⟩
  obtain ⟨hosts, rises, deficits⟩ := sameItems
  obtain bad | ⟨levels, allGood⟩ := faulted_or_good r.samples
  · obtain ⟨itemsSame, drawsSame⟩ := faulted bad
    rw [State.endRun_faulted slot bad four, itemsSame, drawsSame, ← rest.freeDraws]
    split
    case isTrue admission => rw [invalid admission (.inl bad)]
    case isFalse => rfl
  · obtain ⟨itemsSame, drawsSame⟩ := good levels allGood
    rw [← hosts, ← rises, ← deficits, ← rest.freeDraws] at itemsSame
    rw [← hosts, ← rest.freeDraws] at drawsSame
    rw [State.endRun_good slot allGood four itemsSame drawsSame]
    split
    case isTrue admission =>
      congr 1
      rw [rest.reference]
      split
      case isTrue reference => exact (valid admission levels allGood reference).symm
      case isFalse reference => exact (invalid admission (.inr reference)).symm
    case isFalse => rfl

end

end Sys2Proof.Machine

/-! PROOF. The conversions' obligation (O54), put together from the reference, the regular sample and the run. -/

namespace Sys2Proof.Machine

section
variable {s t u v x y : State} {i k : SlotId} {ch : ChannelId} {raw : Nat} {c : Conversion} {sample sensed : Option Nat}
  {items : SlotSense} {tests : TestsHeld}

/-- R165: the ring that a good regular sample joins. -/
theorem SampleTaken.joins {level : Nat} {ring : List Nat} (h : SampleTaken s v i raw c sample)
    (hring : ring = if (s.slotSense i).ring.length < 4 then (s.slotSense i).ring ++ [level]
      else (s.slotSense i).ring.drop 1 ++ [level]) : ring = pushRing (v.slotSense i).ring level := by
  have same : (v.slotSense i).ring = (s.slotSense i).ring := by rw [h.items]
  rw [same]
  exact hring

/-- The clause of an admission run: what the verdict leaves. -/
structure AdmissionJudged (s u : State) (i : SlotId) (ch : ChannelId) (settings : ChannelSettings)
    (sensed : Option Nat) (tests : TestsHeld) (items : SlotSense) : Prop where
  leaves : VerdictLeaves s u i sensed.isNone items
  admits : ∀ outcome quality,
    (tests.any = false ∧ outcome = .genuine ∧ quality = .genuine ∨
      tests.any = true ∧ settings.refillPolicy = .warn ∧ outcome = .refilled ∧ quality = .refilled) →
    VerdictAdmits s u i ch quality ∧ (quality = .refilled → RefillSeen s u i) ∧
      LastRaised s.notices u.notices
        (admissionNotice s i sensed outcome (if outcome = .genuine then none else some tests) settings.refillPolicy)
  rejects : tests.any = true → settings.refillPolicy = .reject →
    (u.slot i).state = .rejected ∧ (u.slot i).rejectReason = some .refillRejected ∧ RefillSeen s u i ∧
      RefillMarked s u i ∧
      LastRaised s.notices u.notices (admissionNotice s i sensed .refillRejected (some tests) .reject)

theorem SampleTaken.judged {settings : ChannelSettings} {draws : Nat} (h : SampleTaken s v i raw c sample)
    (raises : Raises s.notices v.notices) (sensing : (s.slot i).state = .sensing) (channel : (s.slot i).channel = some ch)
    (hsettings : settings = (s.channel ch).settings)
    (tagMark : tests.tagMark = true ↔ ∃ d, (s.slot i).description = some d ∧ d.refillMark = true)
    (history : tests.history = true ↔ ∃ p e, s.entryOf i = some p ∧ s.place p = some e ∧ e.refillSeen = true)
    (level : tests.level = true ↔ ∃ l, sensed = some l ∧ (s.slot i).perMille + settings.refillTolerance < l) :
    AdmissionJudged s ((v.runOver i items draws).admissionResult i sensed) i ch settings sensed tests items := by
  obtain ⟨base, sameHistory⟩ := h.verdictBase raises items draws sensed
  have htests := base.refillTests sameHistory settings.refillTolerance tagMark history level
  have sensing' : ((v.runOver i items draws).slot i).state = .sensing := by
    change (v.slot i).state = .sensing
    rw [h.record]
    exact sensing
  have channel' : ((v.runOver i items draws).slot i).channel = some ch := by
    change (v.slot i).channel = some ch
    rw [h.record]
    exact channel
  have hsettings' : settings = ((v.runOver i items draws).channel ch).settings := by
    rw [hsettings]
    exact congrArg (fun l : Vector Channel 8 => (l[ch.val]).settings) h.rest.channels.symm
  have seen : RefillSeen s (((v.runOver i items draws).sensedNoted i sensed).setRefillSeen i) i :=
    (State.setRefillSeen_seen _ i).earlier base.description sameHistory
  cases any : tests.any with
  | false =>
    rw [State.admissionResult_genuine sensing' channel' hsettings' htests any, base.notice]
    obtain ⟨admits, leaves, _, last⟩ := base.admits channel .genuine
      (admissionNotice s i sensed .genuine none settings.refillPolicy)
    refine ⟨leaves, fun outcome quality either => ?_, fun yes => ?_⟩
    · obtain ⟨_, rfl, rfl⟩ | ⟨yes, _⟩ := either
      · exact ⟨admits, nofun, last⟩
      · cases any.symm.trans yes
    · cases any.symm.trans yes
  | true =>
    cases policy : settings.refillPolicy with
    | warn =>
      rw [State.admissionResult_warn sensing' channel' hsettings' htests any policy, base.notice]
      obtain ⟨admits, leaves, sameTable, last⟩ := base.setRefillSeen.admits channel .refilled
        (admissionNotice s i sensed .refilled (some tests) .warn)
      refine ⟨leaves, fun outcome quality either => ?_, fun _ reject => ?_⟩
      · obtain ⟨no, _⟩ | ⟨_, _, rfl, rfl⟩ := either
        · cases any.symm.trans no
        · rw [policy]
          exact ⟨admits, fun _ => seen.later sameTable, last⟩
      · cases policy.symm.trans reject
    | reject =>
      rw [State.admissionResult_reject sensing' channel' hsettings' htests any policy, base.notice]
      obtain ⟨state, reason, marked, leaves, sameTable, last⟩ := base.setRefillSeen.rejects
        (admissionNotice s i sensed .refillRejected (some tests) .reject)
      refine ⟨leaves, fun outcome quality either => ?_, fun _ _ => ?_⟩
      · obtain ⟨no, _⟩ | ⟨_, warn, _⟩ := either
        · cases any.symm.trans no
        · cases policy.symm.trans warn
      · exact ⟨state, reason, seen.later sameTable, marked, last⟩

end

/-- Settles O54: what a completed conversion does, by its source and by whether it is a run's. -/
theorem conversion_completes : Obligations.Conversion_completes := by
  unfold Obligations.Conversion_completes
  intro s raw
  refine ⟨State.conversionComplete_none, fun c converting => ⟨fun discarded => ?_, fun kept source => ⟨?_, ?_, ?_⟩,
    fun i kept source => ?_⟩⟩
  · rw [State.conversionComplete_some converting, State.conversionDone_discarded discarded]
    rfl
  · intro good
    rw [State.conversionComplete_some converting, State.conversionDone_reference kept source,
      State.referenceSample_good good]
    rfl
  · intro bad was
    rw [State.conversionComplete_some converting, State.conversionDone_reference kept source,
      State.referenceSample_bad bad, if_pos was, State.referenceTaken, ← was]
  · intro bad was
    rw [State.conversionComplete_some converting, State.conversionDone_reference kept source,
      State.referenceSample_bad bad, if_neg was]
    rfl
  · have taken := s.takeSample_taken i raw c
    have raises : Raises s.notices (s.converterFreed.takeSample i raw c.offset c.gain).1.notices :=
      ((Undisturbed.refl s).updSense _ rfl rfl rfl id |>.takeSample i raw c.offset c.gain).notices
    have undisturbed : Undisturbed s (s.conversionDone c raw) := (Undisturbed.refl s).conversionDone c raw
    rw [State.conversionComplete_some converting]
    generalize pair : s.converterFreed.takeSample i raw c.offset c.gain = result at taken raises
    obtain ⟨v, sample⟩ := result
    dsimp only at taken raises
    refine ⟨v, sample, taken, fun regular faulted => ?_, fun level ring regular good hring => ⟨fun excused => ?_, ?_⟩,
      fun r ofRun running slot => ⟨fun few => ?_, fun three items draws good faulted => ⟨fun notAdmission => ?_, ?_⟩⟩⟩
    · subst faulted
      rw [State.conversionDone_faulted kept source regular pair]
    · subst good
      rw [State.conversionDone_regular kept source regular pair (taken.joins hring), taken.unchecked excused]
    · subst good
      intro ch settings sensed expected low high deficit rise admitted channel full clear reference unhalted hsettings hsensed
        hexpected hlow hhigh hdeficit hrise
      subst hsettings
      have check : Checked s v i ch ring sensed expected :=
        ⟨admitted, channel, full, clear, reference, unhalted, hsensed, hexpected⟩
      have read : Readings s i (s.channel ch).settings sensed expected low high deficit rise :=
        ⟨hlow, hhigh, hdeficit, hrise⟩
      rw [State.conversionDone_regular kept source regular pair (taken.joins hring)] at undisturbed ⊢
      refine ⟨fun quiet => ?_, fun isHigh reached => ⟨_, rfl, undisturbed, ?_⟩⟩
      · rw [taken.counted check read quiet]
      · rw [taken.detects check read isHigh reached]
        have detected := taken.detectedInService raises channel
          { v.slotSense i with ring := ring, deficit := 0, rise := 0 } sensed expected (s.channel ch).settings.refillPolicy
        exact ⟨detected.seen, detected.marked, detected.items, detected.warn, detected.reject⟩
    · rw [State.conversionDone_run kept source ofRun pair, State.runSample_gathers (taken.rest.run.trans running) few,
        taken.items]
    · have ended : v.endRun { r with samples := r.samples ++ [sample] } = _ :=
        taken.endRun slot (by rw [List.length_append, three]; rfl) good faulted (sensed := none)
          (fun admission => nomatch notAdmission.symm.trans admission) fun _ _ => rfl
      rw [State.conversionDone_run kept source ofRun pair, State.runSample_ends (taken.rest.run.trans running) three, ended,
        if_neg (by rw [notAdmission]; exact Bool.false_ne_true)]
      rfl
    · intro ch settings sensed tests admission sensing channel hsettings valid invalid tagMark history level
      have ended : v.endRun { r with samples := r.samples ++ [sample] } = _ :=
        taken.endRun slot (by rw [List.length_append, three]; rfl) good faulted (fun _ => valid) fun _ => invalid
      rw [State.conversionDone_run kept source ofRun pair, State.runSample_ends (taken.rest.run.trans running) three, ended,
        if_pos admission] at undisturbed ⊢
      have judged := taken.judged (draws := draws) (items := items) raises sensing channel hsettings tagMark history level
      obtain ⟨leaves, admits, rejects⟩ := judged
      refine ⟨_, rfl, undisturbed, leaves.run, leaves.sensor, leaves.committed, leaves.uncommitted, leaves.senseUnchecked,
        fun outcome quality either => ?_, rejects⟩
      obtain ⟨outcomes, seen, last⟩ := admits outcome quality either
      rw [hsettings]
      exact ⟨outcomes.quality, outcomes.band, seen, outcomes.spent, outcomes.ready, hsettings ▸ last⟩

end Sys2Proof.Machine
